-- ==== Sys2Proof/Word.lean ====
section
/-!
DEFINITION. The words, bytes and sparse maps of the model, and the records that commands carry.
-/
namespace Sys2Proof

/-- A register of the register space is 32 bits wide (R45). -/
abbrev Word := BitVec 32

/-- A byte of a memory, a packet or a frame (R10). -/
abbrev Byte := BitVec 8

/-- Bytes in ascending address order. -/
abbrev Bytes := List Byte

/-- Sparse data by a number: keys strictly rising, and no entry equal to what an unlisted key
reads as (the canonical form; `Map.wf` in Machine/Ops.lean states it). -/
abbrev Map (α : Type) := List (Nat × α)

/-- The packet header of R128 without the opcode and `LEN` (the command names the one and the
payload's length is the other), and the session whose ring carried the packet. -/
structure Hdr where
  ses : Nat := 0            -- session 0 to 3
  seq : Word := 0           -- SEQ
  target : BitVec 16 := 0   -- TARGET
  dep : Bool := false       -- DEP
  depSes : BitVec 2 := 0    -- DEP_SES
  depSeq : BitVec 16 := 0   -- DEP_SEQ
  ep : Bool := false        -- EP
  effect : Word := 0        -- EFFECT
  flags : BitVec 3 := 0     -- the reserved flags, bits [15:13] of the word at 0x02
  deriving DecidableEq, Repr

/-- A stamp of network time (R316): seconds, nanoseconds and 2^-32 ns. -/
structure Stamp where
  sec : Nat := 0
  ns : Nat := 0
  frac : Nat := 0
  deriving DecidableEq, Repr

/-- What the partner's pairing record says (R388). -/
structure PairingRec where
  version : Nat
  sideB : Bool
  id : Word
  capLive : Word
  capLiveX : Word
  level : BitVec 16
  ticks : Nat
  unlocked : Bool
  timeOfs : Int
  dev : BitVec 4
  lside : List Word
  inRun : Bool
  deriving DecidableEq, Repr

/-- A reply intent: the slot of the completion ring, and the command whose reply will stand there (R397; the
second field is DESIGN CHOICE, log 40). -/
structure Intent where
  slot : Word
  seq : Word
  deriving DecidableEq, Repr

/-- What a proxy does (R398): a packet is fetched and forwarded, or a reply that the Active sends back is written. -/
inductive ProxyWork where
  | packet (slot : Bytes)
  | reply (index : Word) (slot : Bytes)
  deriving DecidableEq, Repr

/-- A received PTP message as IEEE 1588 reads it (R462). `kind`: 0 Sync, 1 Delay_Req,
2 Pdelay_Req, 3 Pdelay_Resp, 8 Follow_Up, 9 Delay_Resp, 10 Pdelay_Resp_Follow_Up, 11 Announce;
every other kind is discarded. -/
structure PtpMsg where
  port : Nat             -- the ETH instance it arrived on
  kind : Nat
  domain : Nat
  source : BitVec 64     -- clock identity of the sender, its first byte lowest
  portNo : BitVec 16     -- port number of the sender
  requester : BitVec 64  -- requestingPortIdentity of a response
  seqId : Nat
  twoStep : Bool
  originNs : Int         -- the timestamp it carries, ns since the epoch
  rxNs : Int             -- stamp at the ball, ns since the epoch
  correction : Int       -- correctionField, ns
  utcOfs : BitVec 16
  utcValid : Bool
  deriving DecidableEq, Repr

/-- A CAN frame on the bus (R477) and the age of its start-of-frame edge when it ends (R478). -/
structure CanFrame where
  id : BitVec 29      -- a standard identifier stands in [28:18]
  ide : Bool
  rtr : Bool
  fdf : Bool
  brs : Bool
  esi : Bool
  dlc : BitVec 4
  data : Bytes
  age : Nat           -- ns since its start-of-frame edge
  deriving DecidableEq, Repr

end Sys2Proof
end

