-- ==== Sys2Proof/Syntax.lean ====
section
/-!
DEFINITION. The commands of the block: one constructor per row of spec/opcode_table.json.

The first 76 rows are host command packets (R128): `h` is the packet header and `p` the payload,
`LEN` being its length. The others are register accesses, protocol operations and events; their
operands carry only what the outside decides (bytes that arrive, levels, codes, which unit failed).
-/
namespace Sys2Proof

/-- The commands, in the order of the table. -/
inductive Instr where
  /-- NOP (R138): Command that does nothing; with target 0xFFFF it acts as a fence in its session. -/
  | nop (h : Hdr) (p : Bytes)
  /-- ECHO (R138): Command that returns its payload unchanged. -/
  | echo (h : Hdr) (p : Bytes)
  /-- SESSION_INFO (R138): Command that returns the session's version, credit and sequence counters. -/
  | sessionInfo (h : Hdr) (p : Bytes)
  /-- DEV_INFO (R138): Command that returns identity, capability, strap, firmware and state words. -/
  | devInfo (h : Hdr) (p : Bytes)
  /-- RUN_START (R27): Command that moves the device from READY to RUN at a boundary. -/
  | runStart (h : Hdr) (p : Bytes)
  /-- RUN_STOP (R27): Command that moves the device from RUN to READY when every axis is DISABLED or READY. -/
  | runStop (h : Hdr) (p : Bytes)
  /-- SET_PERIOD (R149): Command that changes the base period at its effect boundary and unbuilds every active table. -/
  | setPeriod (h : Hdr) (p : Bytes)
  /-- DEV_STATUS (R138): Command that returns the period number, axis counts and dropped stops. -/
  | devStatus (h : Hdr) (p : Bytes)
  /-- GET_PARAMS (R145): Command that reads parameter entries of an axis slot. -/
  | getParams (h : Hdr) (p : Bytes)
  /-- SET_PARAMS (R144): Command that checks all its parameter entries and stages them to take hold together at one boundary. -/
  | setParams (h : Hdr) (p : Bytes)
  /-- DEFAULT_PARAMS (R139): Command that restores the defaults of a parameter range of a DISABLED slot. -/
  | defaultParams (h : Hdr) (p : Bytes)
  /-- ENABLE (R214): Command that takes a READY slot to ENABLED and initialises its loop and set-point state. -/
  | enable (h : Hdr) (p : Bytes)
  /-- DISABLE (R291): Command that disables an axis, stopping a moving axis by quick or immediate stop. -/
  | disable (h : Hdr) (p : Bytes)
  /-- CLEAR_FAULT (R139): Command that takes a FAULT axis whose cause has gone to DISABLED. -/
  | clearFault (h : Hdr) (p : Bytes)
  /-- AXIS_STATUS (R139): Command that returns the axis record as at the last sealing. -/
  | axisStatus (h : Hdr) (p : Bytes)
  /-- MOVE_ABS (R264): Command that plans a move to an absolute position, replacing or appending. -/
  | moveAbs (h : Hdr) (p : Bytes)
  /-- MOVE_REL (R557): Command that plans a move by a distance from the end position of the motion it follows. -/
  | moveRel (h : Hdr) (p : Bytes)
  /-- MOVE_VEL (R264): Command that plans a ramp to a target velocity. -/
  | moveVel (h : Hdr) (p : Bytes)
  /-- STREAM (R268): Command that queues a segment of streamed set-point positions. -/
  | stream (h : Hdr) (p : Bytes)
  /-- HALT (R261): Command that empties the queue and plans a jerk-limited stop. -/
  | halt (h : Hdr) (p : Bytes)
  /-- QUICK_STOP (R287): Command that replaces the plan by a deceleration at QS_DEC without jerk limit. -/
  | quickStop (h : Hdr) (p : Bytes)
  /-- GROUP_DEFINE (R270): Command that defines or dissolves a coordination group. -/
  | groupDefine (h : Hdr) (p : Bytes)
  /-- PATH_SEGMENT (R271): Command that queues a linear, arc or dwell segment of a group path. -/
  | pathSegment (h : Hdr) (p : Bytes)
  /-- FLUSH_QUEUE (R261): Command that removes the queue entries behind the segment in progress. -/
  | flushQueue (h : Hdr) (p : Bytes)
  /-- DOVETAIL_LINK (R307): Command that links a follower to a master by an exact ratio. -/
  | dovetailLink (h : Hdr) (p : Bytes)
  /-- DOVETAIL_RATIO (R309): Command that changes the ratio of a linked follower. -/
  | dovetailRatio (h : Hdr) (p : Bytes)
  /-- DOVETAIL_UNLINK (R310): Command that unlinks a follower and halts it from its total set-point state. -/
  | dovetailUnlink (h : Hdr) (p : Bytes)
  /-- CAM_LOAD (R312): Command that writes a cam table header or points. -/
  | camLoad (h : Hdr) (p : Bytes)
  /-- CAM_ENGAGE (R313): Command that copies a cam table to the follower engine and engages it. -/
  | camEngage (h : Hdr) (p : Bytes)
  /-- CAM_DISENGAGE (R315): Command that releases a cam follower as an unlink does. -/
  | camDisengage (h : Hdr) (p : Bytes)
  /-- VMASTER_SET (R306): Command that sets a virtual master's velocity through its bound slot. -/
  | vmasterSet (h : Hdr) (p : Bytes)
  /-- SHAFT_CONFIG (R325): Command that configures a line-shaft channel. -/
  | shaftConfig (h : Hdr) (p : Bytes)
  /-- HOME_START (R292): Command that starts homing with a chosen method. -/
  | homeStart (h : Hdr) (p : Bytes)
  /-- HOME_SET (R298): Command that applies the homing completion rule at the current position. -/
  | homeSet (h : Hdr) (p : Bytes)
  /-- HOME_ABORT (R298): Command that ends homing with a stop and leaves HOMED clear. -/
  | homeAbort (h : Hdr) (p : Bytes)
  /-- LATCH_ARM (R317): Command that selects a latch input's edges for a slot, with an optional window. -/
  | latchArm (h : Hdr) (p : Bytes)
  /-- LATCH_DISARM (R140): Command that disarms a latch input. -/
  | latchDisarm (h : Hdr) (p : Bytes)
  /-- LATCH_READ (R140): Command that returns and removes latch records from the host FIFO. -/
  | latchRead (h : Hdr) (p : Bytes)
  /-- REGISTER_CFG (R321): Command that binds or unbinds a latch input to a slot's registration. -/
  | registerCfg (h : Hdr) (p : Bytes)
  /-- TT_WRITE (R154): Command that writes stop records into a shadow table. -/
  | ttWrite (h : Hdr) (p : Bytes)
  /-- TT_CLEAR (R154): Command that zeroes a shadow table. -/
  | ttClear (h : Hdr) (p : Bytes)
  /-- BUILD_TIMETABLE (R169): Command that checks shadow tables and, if all pass, makes them active at one boundary. -/
  | buildTimetable (h : Hdr) (p : Bytes)
  /-- TT_READ (R154): Command that returns records of an active table. -/
  | ttRead (h : Hdr) (p : Bytes)
  /-- KERNEL_LOAD (R193): Command that writes custom kernel bytes into kernel memory. -/
  | kernelLoad (h : Hdr) (p : Bytes)
  /-- KERNEL_CHECK (R193): Command that checks a CRC over kernel memory. -/
  | kernelCheck (h : Hdr) (p : Bytes)
  /-- KERNEL_LIST (R193): Command that lists the custom kernel directory. -/
  | kernelList (h : Hdr) (p : Bytes)
  /-- ACQ_CONFIG (R507): Command that configures the acquisition stream. -/
  | acqConfig (h : Hdr) (p : Bytes)
  /-- ACQ_START (R508): Command that starts acquisition records at its boundary. -/
  | acqStart (h : Hdr) (p : Bytes)
  /-- ACQ_STOP (R508): Command that ends acquisition records from its boundary. -/
  | acqStop (h : Hdr) (p : Bytes)
  /-- ACQ_MARK (R510): Command that writes a host mark into the acquisition stream. -/
  | acqMark (h : Hdr) (p : Bytes)
  /-- FIO_SET (R452): Command that replaces masked bits of the general output commands. -/
  | fioSet (h : Hdr) (p : Bytes)
  /-- FIO_GET (R458): Command that returns field inputs, output commands, readback and state. -/
  | fioGet (h : Hdr) (p : Bytes)
  /-- FIO_CONFIG (R458): Command that writes input types, wake enables and filters. -/
  | fioConfig (h : Hdr) (p : Bytes)
  /-- TIME_GET (R141): Command that returns network time, period number and time flags. -/
  | timeGet (h : Hdr) (p : Bytes)
  /-- TIME_ALARM (R471): Command that sets and arms the time alarm. -/
  | timeAlarm (h : Hdr) (p : Bytes)
  /-- TIME_RESTEP (R464): Command that arms the first-lock step again in READY or below. -/
  | timeRestep (h : Hdr) (p : Bytes)
  /-- TIME_CONFIG (R472): Command that writes the PTP, servo, threshold, guard and sample-offset registers. -/
  | timeConfig (h : Hdr) (p : Bytes)
  /-- PAIR_STATUS (R415): Command that returns pair state and counters. -/
  | pairStatus (h : Hdr) (p : Bytes)
  /-- PAIR_HANDOVER (R412): Command that swaps the Active and Standby roles at a boundary. -/
  | pairHandover (h : Hdr) (p : Bytes)
  /-- PAIR_RELEASE (R413): Command that releases the Standby from RUN and leaves the Active alone. -/
  | pairRelease (h : Hdr) (p : Bytes)
  /-- PAIR_RESYNC (R389): Command that starts resynchronisation of a waiting partner. -/
  | pairResync (h : Hdr) (p : Bytes)
  /-- SAFE_OPEN (R443): Command that opens safety commissioning with a credential. -/
  | safeOpen (h : Hdr) (p : Bytes)
  /-- SAFE_WRITE (R444): Command that writes bytes of the working safety image. -/
  | safeWrite (h : Hdr) (p : Bytes)
  /-- SAFE_READ (R444): Command that reads the working or committed safety image. -/
  | safeRead (h : Hdr) (p : Bytes)
  /-- SAFE_COMMIT (R444): Command that checks the working image and commits it to flash. -/
  | safeCommit (h : Hdr) (p : Bytes)
  /-- SAFE_CLOSE (R444): Command that discards uncommitted changes and closes commissioning. -/
  | safeClose (h : Hdr) (p : Bytes)
  /-- UPDATE_BEGIN (R526): Command that opens an update of a device bank or a drive head. -/
  | updateBegin (h : Hdr) (p : Bytes)
  /-- UPDATE_DATA (R526): Command that delivers the next bytes of an update image. -/
  | updateData (h : Hdr) (p : Bytes)
  /-- UPDATE_COMMIT (R526): Command that verifies an update image and commits it. -/
  | updateCommit (h : Hdr) (p : Bytes)
  /-- UPDATE_ACTIVATE (R526): Command that activates a committed image, resetting the device or the head. -/
  | updateActivate (h : Hdr) (p : Bytes)
  /-- LEDGER_READ (R523): Command that returns event-ledger records. -/
  | ledgerRead (h : Hdr) (p : Bytes)
  /-- HEALTH_READ (R535): Command that returns the health report. -/
  | healthRead (h : Hdr) (p : Bytes)
  /-- NP_READ (R527): Command that returns a nameplate record. -/
  | npRead (h : Hdr) (p : Bytes)
  /-- NP_BIND (R529): Command that binds a nameplate to a wear account of a slot. -/
  | npBind (h : Hdr) (p : Bytes)
  /-- WEAR_READ (R533): Command that returns a wear account. -/
  | wearRead (h : Hdr) (p : Bytes)
  /-- WEAR_REPLACE (R532): Command that binds the part now fitted and starts from its own wear block. -/
  | wearReplace (h : Hdr) (p : Bytes)
  /-- QSPI_WRITE (R97): Quad-SPI instruction that writes a burst of 1 to 256 words. -/
  | qspiWrite (addr : Nat) (words : List Word) (cut : Bool)
  /-- QSPI_READ (R98): Quad-SPI instruction that reads words until chip select rises, each with its side effects. -/
  | qspiRead (addr : Nat) (count : Nat)
  /-- QSPI_PING (R97): Quad-SPI instruction that returns SYS.ID. -/
  | qspiPing
  /-- REGISTER_WRITE (R58): Host write to a register that has no row of its own, including ignored and absent writes. -/
  | registerWrite (addr : Nat) (data : Bytes)
  /-- READ_CLEAR_READ (R51): Read of a register with RC fields, which clears them. -/
  | readClearRead (addr : Nat) (size : Nat)
  /-- LATCHED_LO_READ (R50): Read of a latched-pair low word, which copies the high word into the read hold. -/
  | latchedLoRead (addr : Nat)
  /-- LATCHED_HI_READ (R50): Read of a latched-pair high word, which returns the read hold. -/
  | latchedHiRead (addr : Nat)
  /-- LATCHED_LO_WRITE (R50): Write of a latched-pair low word into the write hold. -/
  | latchedLoWrite (addr : Nat) (val : Word)
  /-- LATCHED_HI_WRITE (R50): Write of a latched-pair high word, which writes both words together. -/
  | latchedHiWrite (addr : Nat) (val : Word)
  /-- GUARDED_VALUE_WRITE (R53): First write of a guarded pair, held in the window hold. -/
  | guardedValueWrite (addr : Nat) (val : Word)
  /-- GUARDED_COMPLEMENT_FAULT (R55): Complement-region write that does not complete a held value; ignored and discards the hold. -/
  | guardedComplementFault (addr : Nat) (val : Word)
  /-- NOW_NS_READ (R461): Read of TMU.NOW_NS that captures seconds, fraction and period number at the same tick. -/
  | nowNsRead
  /-- SWI_SET (R63): Write of SYS.SWI.SET that sets SYS.STAT.SWI. -/
  | swiSet (val : Word)
  /-- IRQ_EOI (R65): Write of a source number that re-arms its MSI-X message and resends if still asserted. -/
  | irqEoi (val : Word)
  /-- PWR_REQ_READY (R92): Guarded PWR.REQ for READY, which starts the second boot stage or continues a host load. -/
  | pwrReqReady
  /-- PWR_REQ_STANDBY (R122): Guarded PWR.REQ for STANDBY in READY, which waits for the command path and then powers down. -/
  | pwrReqStandby
  /-- SOFTWARE_RESET (R87): Guarded PWR.RST.SYS write that performs a software reset. -/
  | softwareReset
  /-- CMD_OPEN (R123): Guarded CTRL ACTION 1 that opens a session and negotiates its version. -/
  | cmdOpen (ses : Nat) (verMin : Byte) (verMax : Byte)
  /-- CMD_CLOSE (R125): Guarded CTRL ACTION 2 that puts a session in CLOSING. -/
  | cmdClose (ses : Nat)
  /-- CMD_RESUME (R124): Guarded CTRL ACTION 3 that resumes a halted session from SQ_HEAD. -/
  | cmdResume (ses : Nat)
  /-- SESSION_CLOSED (R125): A CLOSING session becomes CLOSED once every accepted command has retired and replied. -/
  | sessionClosed (ses : Nat)
  /-- SQ_TAIL (R102): Submission doorbell write; an out-of-range value halts the session. -/
  | sqTail (ses : Nat) (val : Word)
  /-- CQ_HEAD (R102): Write of the completion head after replies are consumed. -/
  | cqHead (ses : Nat) (val : Word)
  /-- PACKET_FETCH (R108): Fetch and acceptance check of the packet at SQ_HEAD. -/
  | packetFetch (ses : Nat) (slot : Bytes)
  /-- HOST_BUS_ERROR (R96): A failed ring fetch or completion write halts the session with cause 4. -/
  | hostBusError (ses : Nat) (fetch : Bool)
  /-- PORTER_TICK (R111): Each 1 µs tick moves due delay entries to their ready lists. -/
  | porterTick
  /-- TASK_DISPATCH (R112): An idle service core receives the next ready task. -/
  | taskDispatch (core : Nat)
  /-- TASK_FINISH (R115): A service core finishes interpreting a command, producing effect records and a reply. -/
  | taskFinish (core : Nat)
  /-- CORE_STALL (R112): A task run exceeds 40 µs. -/
  | coreStall (core : Nat)
  /-- DEPENDENCY_TIMEOUT (R114): A dependency unmet after DEP_TMO retires its command with ST_BUSY. -/
  | dependencyTimeout (ses : Nat) (seq : Word)
  /-- RETIREMENT (R116): The retire stage commits the oldest finished command of a session. -/
  | retirement (ses : Nat)
  /-- REPLY_WRITE (R103): A reply is written to a free completion slot and CQ_TAIL advances. -/
  | replyWrite (ses : Nat)
  /-- CQ_COAL_TIMEOUT (R126): A reply unconsumed for CQ_COAL.TIME sets CQ_EVT. -/
  | cqCoalTimeout (ses : Nat)
  /-- PCIE_LINK_DOWN (R95): Link-down, hot reset or FLR pauses every session without resetting the device. -/
  | pcieLinkDown
  /-- PCIE_LINK_UP (R95): Link up with bus mastering resumes paused sessions and DMA. -/
  | pcieLinkUp
  /-- POWER_ON_RESET (R70): Main supplies pass release at first power-up or after VBAK loss. -/
  | powerOnReset (straps : BitVec 14)
  /-- MAIN_SUPPLY_LOSS (R68): A main supply below brown-out holds the device in reset, in DORMANT while VBAK holds. -/
  | mainSupplyLoss (rails : BitVec 3)
  /-- MAIN_SUPPLY_RESTORED (R68): Main supplies pass release again, ending the brown-out reset. -/
  | mainSupplyRestored (straps : BitVec 14)
  /-- PIN_RESET (R87): RESET_N low for at least 1 µs. -/
  | pinReset (straps : BitVec 14)
  /-- RUN_SUPPLY_RESET (R69): A run-supply brown-out in READY or RUN causes a reset to STANDBY. -/
  | runSupplyReset (rails : BitVec 3)
  /-- VBAK_LOST (R70): VBAK falls below 1.55 V, invalidating retained memory. -/
  | vbakLost
  /-- REFERENCE_STOPPED (R73): No reference edge in 4 keep-alive periods; boundaries stop and a clock-fault reset follows. -/
  | referenceStopped
  /-- REFERENCE_OUT_OF_WINDOW (R73): Reference frequency beyond ±1,000 ppm over 250 ms; clock-fault reset. -/
  | referenceOutOfWindow
  /-- REFERENCE_RECOVERED (R73): The reference passes the window again, ending the clock-fault reset in STANDBY. -/
  | referenceRecovered
  /-- PLL_LOSS_OF_LOCK (R74): Loss of lock of a system, compute or SerDes PLL causes a clock-fault reset. -/
  | pllLossOfLock (pll : Nat)
  /-- PCIE_CLOCK_LOSS (R74): Loss of the PCIe clock retrains the host link only. -/
  | pcieClockLoss
  /-- KA_XTAL_FAIL (R75): The 32.768 kHz crystal stops; multi-turn counting halts. -/
  | kaXtalFail
  /-- FIRST_STAGE_DONE (R83): The Innkeeper's first boot stage completes and the device enters STANDBY. -/
  | firstStageDone (failed : List Nat) (flashOk : Bool)
  /-- HOST_LOAD_TIMEOUT (R84): No second READY request within 10 s; the request fails back to STANDBY. -/
  | hostLoadTimeout
  /-- SECOND_STAGE_DONE (R83): Firmware verified, cores started and rings settled; the device is READY. -/
  | secondStageDone (failed : List Nat)
  /-- STANDBY_POWER_DOWN (R122): After the command path drains or 1 s passes, the fabric, SerDes and islands power down. -/
  | standbyPowerDown (expired : Bool)
  /-- FIELD_WAKE_EDGE (R451): An enabled field-input edge in STANDBY wakes the device. -/
  | fieldWakeEdge (input : Nat) (rising : Bool)
  /-- CAN_WAKE_PATTERN (R485): A CAN wake-up pattern in STANDBY wakes the device. -/
  | canWakePattern (ctl : Nat)
  /-- TIME_ALARM_FIRE (R471): Network time reaches the armed alarm; in STANDBY it wakes the device. -/
  | timeAlarmFire
  /-- PERIOD_BOUNDARY (R16): Boundary k: frames launched, effects take hold, exchange copied and per-period firmware work done. -/
  | periodBoundary
  /-- HOMING_CHATTER_ABORT (R295): Too many switch edges within the debounce window abort homing. -/
  | homingChatterAbort (slot : Nat)
  /-- HOMING_NOT_FOUND (R296): Search travel beyond HOME_MAXDIST aborts homing. -/
  | homingNotFound (slot : Nat)
  /-- HARD_STOP_FOUND (R293): Current saturation for HOME_HS_N periods marks the hard-stop reference. -/
  | hardStopFound (slot : Nat)
  /-- SHAFT_CHANNEL_LOST (R327): MISS_MAX consecutive misses lose the channel and fault its followers. -/
  | shaftChannelLost (chan : Nat)
  /-- SAMPLE_TIME (R15): Stations and local channels sample at boundary plus sample offset. -/
  | sampleTime
  /-- SERIAL_ENCODER_DONE (R229): A BiSS C or SSI transfer completes or reports a fault. -/
  | serialEncoderDone (ch : Nat) (data : BitVec 64) (nErr : Bool) (nWarn : Bool) (crc : BitVec 6) (answer : Nat × Bool) (delay : Nat)
  /-- INDEX_EDGE (R227): An index edge captures the count into IDX_CNT. -/
  | indexEdge (ch : Nat) (abHigh : Bool)
  /-- RETURNING_FRAME (R373): A returning frame arrives at a ring port and its segments are checked. -/
  | returningFrame (port : Nat) (ns : Nat) (frame : Bytes)
  /-- RETURN_DEADLINE (R373): The return deadline passes; a frame not arrived counts late. -/
  | returnDeadline (port : Nat)
  /-- STOP_VISIT (R157): The sequencer takes the next entry, skipping, dropping or starting its kernel. -/
  | stopVisit (le : Nat)
  /-- STOP_COMPLETE (R176): A stop's commit ends, writing stores, outputs and exchange records. -/
  | stopComplete (le : Nat)
  /-- STOP_ABORT (R157): A stop still running at its DEADLINE is aborted and dropped. -/
  | stopAbort (le : Nat)
  /-- FEEDBACK_FAULT (R239): FB_FLT_N consecutive bad samples set the feedback fault. -/
  | feedbackFault (slot : Nat)
  /-- URGENT_TRIGGER (R162): An urgent trigger starts its urgent stop, preempting if needed. -/
  | urgentTrigger (le : Nat) (stop : Nat)
  /-- URGENT_STOP_COMPLETE (R186): An urgent stop's run ends; stores are held and the preempted stop resumes. -/
  | urgentStopComplete (le : Nat)
  /-- ISLAND_CLOCK_RESTART (R78): The island clock restarts 40 ns before the next boundary. -/
  | islandClockRestart (le : Nat)
  /-- SEALING (R159): At the sealing offset each due slot's output is packed as fresh, stale, hold or disabled. -/
  | sealing
  /-- DROPS_FAULT (R165): Stale output in two consecutive due periods puts the axis in FAULT. -/
  | dropsFault (slot : Nat)
  /-- ACQ_RATE_CHANGE (R514): Fill thresholds and record counts double or halve the decimation. -/
  | acqRateChange
  /-- HOP_TRAINED (R365): A hop finishes training at a common version, or stays down. -/
  | hopTrained (port : Nat) (hop : Nat) (maskA : Byte) (maskB : Byte) (deskew : Bool)
  /-- RETRAIN (R367): VLK CTRL RETRAIN retrains a ring port in READY. -/
  | retrain (port : Nat)
  /-- RECLOSE (R380): VLK CTRL RECLOSE sets RECLOSE in the next west-end frame. -/
  | reclose (port : Nat)
  /-- DISCOVERY_FRAME (R367): A discovery frame returns with the station descriptors. -/
  | discoveryFrame (port : Nat) (descriptors : List (Nat × Nat × Nat × Nat)) (returnedAt : Nat) (contradiction : Bool)
  /-- DELAY_FRAME (R368): A delay frame returns; station delays are computed. -/
  | delayFrame (port : Nat) (roundTrip : Nat) (stationDiffs : List Nat) (latencies : Nat)
  /-- DELAY_SET (R368): Side-channel message giving a station its delay for one end. -/
  | delaySet (port : Nat) (station : Nat) (fromWest : Bool) (delay : Nat)
  /-- RING_UP (R367): A ring reaches its up phase and carries idle frames. -/
  | ringUp (port : Nat)
  /-- TRAIN_FAIL (R367): A ring not up 10 ms after training starts fails. -/
  | trainFail (port : Nat)
  /-- STATION_LINK_LOSS (R377): A station detects a lost link port and loops frames back. -/
  | stationLinkLoss (port : Nat) (station : Nat) (eastPort : Bool)
  /-- STATION_LOST (R378): A station with bad segments for LOST_N periods is lost and its axes fault. -/
  | stationLost (port : Nat) (station : Nat)
  /-- SIDE_FAIL (R382): A request unanswered after 64 frames is recorded. -/
  | sideFail (port : Nat)
  /-- HEAD_FRAME_RECEIVE (R376): A drive head receives a frame, takes its timing, fills its slots and selects words. -/
  | headFrameReceive (port : Nat) (station : Nat) (fromWest : Bool) (frame : Bytes)
  /-- HEAD_APPLY (R376): A drive head applies its selected words at the apply time. -/
  | headApply (port : Nat) (station : Nat)
  /-- ZERO_I (R376): A drive head's second stale period switches the channel's power stage off. -/
  | zeroI (port : Nat) (station : Nat) (chan : Nat)
  /-- HEAD_FRAME_LOSS (R376): A drive head without a usable frame for two periods switches every stage off. -/
  | headFrameLoss (port : Nat) (station : Nat)
  /-- UPD_ACTIVATE (R383): Side-channel message that makes a head change its firmware image. -/
  | updActivate (port : Nat) (station : Nat) (starts : Bool)
  /-- CHAIN_MESSAGE_RECEIVE (R326): A chain message is received, checked, used and forwarded. -/
  | chainMessageReceive (upstream : Bool) (ticks : Nat) (msg : Bytes)
  /-- PAIR_LINK_TRAINED (R387): The pair link trains at entry to READY or on request. -/
  | pairLinkTrained (delay : Nat)
  /-- PAIRING_RECORD (R388): The pairing record is exchanged and checked; roles are decided. -/
  | pairingRecord (partner : PairingRec)
  /-- PAIR_ACTIVE_ALONE (R390): PAIR CTRL ACTION 1 makes the device Active alone after a one-period listen. -/
  | pairActiveAlone (activeSeen : Bool)
  /-- PAIR_LINK_RETRAIN (R416): PAIR CTRL ACTION 2 retrains the pair link in READY. -/
  | pairLinkRetrain
  /-- ALONE_WAIT_EXPIRY (R390): Side A unpaired for WAIT × 100 ms becomes Active alone. -/
  | aloneWaitExpiry (activeSeen : Bool)
  /-- MIRROR_RECORD (R392): The Standby receives and stores a mirror record, then acknowledges. -/
  | mirrorRecord (ses : Nat) (sqHead : Word) (effect : Nat) (slot : Bytes)
  /-- MIRROR_ACK (R392): The Active receives the Standby's acknowledgement and completes acceptance. -/
  | mirrorAck (ses : Nat) (seq : Word)
  /-- MIRROR_ACK_TIMEOUT (R392): No acknowledgement within 100 µs takes the Standby out of step. -/
  | mirrorAckTimeout (ses : Nat) (seq : Word)
  /-- RETIRE_RECORD (R394): The Standby receives a retire record with the take-hold period. -/
  | retireRecord (ses : Nat) (seq : Word) (period : Nat)
  /-- RETIRE_RECORD_ACK (R394): The Active receives the Standby's acknowledgement of a retire record. -/
  | retireRecordAck (ses : Nat) (seq : Word)
  /-- REPLY_INTENT (R397): The Standby receives a reply intent and acknowledges it. -/
  | replyIntent (ses : Nat) (index : Intent)
  /-- REPLY_INTENT_ACK (R397): The Active receives the intent acknowledgement and may write the reply. -/
  | replyIntentAck (ses : Nat) (index : Word)
  /-- SESSION_RECORD (R396): The Standby receives a session's configuration and counters. -/
  | sessionRecord (ses : Nat) (cfg : Word) (sqBase : BitVec 64) (cqBase : BitVec 64) (ver : Byte) (nextSeq : Word) (retired : Word)
  /-- FORWARDED_DOORBELL (R396): A Standby CMD write forwarded to the Active. -/
  | forwardedDoorbell (ses : Nat) (reg : Nat) (val : Word)
  /-- PROXY (R398): The Standby fetches and writes rings for an Active whose host link is paused. -/
  | proxy (ses : Nat) (slot : ProxyWork)
  /-- SWITCH_SOURCE_SAMPLE (R399): The Active's switch samples and island holds arrive at the Standby. -/
  | switchSourceSample (field : Word) (latch : Word) (holds : List Nat)
  /-- LATCH_STAMP_TRANSFER (R320): A latch stamp of the Active arrives at the Standby. -/
  | latchStampTransfer (input : Nat) (falling : Bool) (stamp : Stamp)
  /-- FORWARDED_SEGMENT (R379): A ring segment forwarded by the partner arrives over the pair link. -/
  | forwardedSegment (port : Nat) (station : Nat) (chan : Nat) (segment : Bytes)
  /-- PERIOD_RECORD (R400): The partner's period record arrives and digests are compared. -/
  | periodRecord (period : Word) (digest : Word) (slotDigests : List (BitVec 16)) (timeOfs : Int)
  /-- PERIOD_RECORD_MISSING (R400): No period record by boundary k + 1 + 2.0 µs. -/
  | periodRecordMissing
  /-- ADOPTION_REQUEST (R401): A partner receives a request for a slot's image. -/
  | adoptionRequest (slot : Nat)
  /-- ADOPTION_IMAGE (R401): A slot image arrives, to be sealed and installed. -/
  | adoptionImage (image : Bytes) (period : Word)
  /-- PAIR_LINK_LOST (R407): Loss of the pair link is detected. -/
  | pairLinkLost
  /-- FAILOVER (R408): At the next return deadline a Standby with no Active frame becomes Active. -/
  | failover
  /-- RESYNC_DRAINED (R411): Resynchronisation phase 1 ends once every accepted command has taken hold. -/
  | resyncDrained
  /-- RESYNC_COPY_DONE (R411): The state copy ends and the joiner enters RUN. -/
  | resyncCopyDone
  /-- PAIRED (R411): STEP_N matching digests make the joiner Standby in step. -/
  | paired
  /-- RESYNC_FAIL (R411): Resynchronisation beyond 200 ms fails. -/
  | resyncFail
  /-- SAFETY_CYCLE (R418): Each 250 µs both island channels read inputs, evaluate functions and exchange results. -/
  | safetyCycle (oscBad : Bool) (resultsDiffer : Bool) (silent : Bool) (memoryBad : Bool) (imageBad : Bool) (refBad : Bool)
  /-- ISLAND_BOOT_DONE (R422): Island boot completes in OPERATING or NO_CONFIG. -/
  | islandBootDone (aOk : Bool) (bOk : Bool)
  /-- ISLAND_WATCHDOG (R420): No island refresh for 2 ms makes the field die switch safe outputs off. -/
  | islandWatchdog
  /-- TEST_PULSE (R429): A test pulse on a safe output switch and its readback check. -/
  | testPulse (out : Nat) (low : Bool) (passed : Bool)
  /-- INPUT_DISCREPANCY (R427): A channel difference lasting beyond DISC latches a discrepancy. -/
  | inputDiscrepancy (input : Nat)
  /-- SAFE_FEEDBACK_LOSS (R433): A source silent for FB_TMO cycles is lost. -/
  | safeFeedbackLoss (axis : Nat) (second : Bool)
  /-- STOP_T_EXPIRY (R434): SS1 or SS2 reaches STOP_T and goes to STO or SOS. -/
  | stopTExpiry (axis : Nat)
  /-- STANDSTILL_CONFIRMED (R434): Four cycles within SOS_WIN confirm standstill. -/
  | standstillConfirmed (axis : Nat)
  /-- BRAKE_DELAY_EXPIRY (R428): BRK_DLY after a brake closes, the group output switches off. -/
  | brakeDelayExpiry (out : Nat)
  /-- SAFE_TELEGRAM_PRODUCE (R438): A produce connection sends a telegram every PROD cycles. -/
  | safeTelegramProduce (conn : Nat)
  /-- SAFE_TELEGRAM_RECEIVE (R440): A consumer checks and accepts or rejects a telegram. -/
  | safeTelegramReceive (conn : Nat) (telegram : Bytes)
  /-- CONN_LOST (R440): No telegram accepted for EXPECT cycles loses the connection. -/
  | connLost (conn : Nat)
  /-- COMMISSIONING_TIMEOUT (R443): Commissioning closes after 30 minutes without a class 0x0E command. -/
  | commissioningTimeout
  /-- AUTH_LOCKOUT_EXPIRY (R443): The 60 s lockout after three wrong codes ends. -/
  | authLockoutExpiry
  /-- FIELD_DIE_START (R447): The field die starts when L+ first rises above 18.5 V. -/
  | fieldDieStart
  /-- FIELD_LINK_FRAME (R447): A link frame between main and field die every 10 µs. -/
  | fieldLinkFrame (valid : Bool)
  /-- FIELD_LINK_LOST (R447): 50 µs without a valid frame loses the link and disarms outputs. -/
  | fieldLinkLost
  /-- FIELD_INPUT_SAMPLE (R450): The die samples and filters every input every 10 µs. -/
  | fieldInputSample (raw : Word)
  /-- REARM (R448): Guarded FIO.REARM with GO sets ARMED while L+ is good and the link is up. -/
  | rearm
  /-- OUT_CMD (R452): Host write of the general output commands to the field die. -/
  | outCmd (val : Word)
  /-- FIELD_OUTPUT_FAULT (R454): Readback differing for 2 ms latches an output off. -/
  | fieldOutputFault (out : Nat)
  /-- FIELD_OUTPUT_LATCH_CLEAR (R454): Command and readback both 0 for 2 ms clear an output latch. -/
  | fieldOutputLatchClear (out : Nat)
  /-- SAG (R455): L+ below 17.5 V for 50 µs starts a sag; every output goes off. -/
  | sag (mv10 : Nat)
  /-- RECOVERED (R455): L+ at or above 18.5 V for 10 ms ends a sag. -/
  | recovered (mv10 : Nat)
  /-- REFERENCE_TICK (R459): Each 40 ns tick adds the increment to network time. -/
  | referenceTick
  /-- PTP_MESSAGE (R462): A PTP message is received and handled by the time unit. -/
  | ptpMessage (msg : PtpMsg)
  /-- SLEW_END (R466): The slew duration elapses and ρ returns to ri. -/
  | slewEnd
  /-- LOCK_EVT (R467): Eight consecutive offsets inside or outside LOCK_THR change LOCKED. -/
  | lockEvt
  /-- HOLDOVER (R467): ANN_TMO intervals without Announce lose the grandmaster. -/
  | holdover
  /-- PTP_SYNC_SEND (R462): A time transmitter sends Sync every 2^LOG_SYNC s. -/
  | ptpSyncSend
  /-- PTP_EN (R464): Guarded TMU CTRL PTP_EN switches PTP and arms the step on a rise. -/
  | ptpEn (on : Bool)
  /-- RESTEP (R464): Guarded TMU CTRL RESTEP arms the step in READY or below. -/
  | restep
  /-- ETH_FRAME_RECEIVE (R474): A received Ethernet frame is checked and routed. -/
  | ethFrameReceive (mac : Nat) (frame : Bytes) (fcsOk : Bool)
  /-- ETH_FRAME_TRANSMIT (R475): A MAC starts the next frame from its priority queues. -/
  | ethFrameTransmit (mac : Nat)
  /-- TIMED_FRAME_LAUNCH (R476): A timed frame starts at its launch time. -/
  | timedFrameLaunch (mac : Nat)
  /-- TIMED_FRAME_LATE (R476): A timed frame past its tolerance is dropped. -/
  | timedFrameLate (mac : Nat)
  /-- LINK_EVT (R473): An Ethernet link goes up or down. -/
  | linkEvt (mac : Nat) (up : Bool) (slow : Bool)
  /-- CAN_FRAME_RECEIVE (R480): A received CAN frame is filtered and stored in the next entry. -/
  | canFrameReceive (ctl : Nat) (frame : CanFrame)
  /-- TX_DONE (R481): A CAN transmit entry is sent and released. -/
  | txDone (ctl : Nat) (entry : Nat)
  /-- TX_REQ (R481): Write of TX_REQ hands transmit entries to the controller. -/
  | txReq (ctl : Nat) (val : Word)
  /-- TX_ABORT (R481): Write of TX_ABORT aborts transmit entries. -/
  | txAbort (ctl : Nat) (val : Word)
  /-- RX_RET (R480): Write of RX_RET gives receive entries back to the controller. -/
  | rxRet (ctl : Nat) (val : Word)
  /-- BUS_OFF (R482): The controller enters bus-off. -/
  | busOff (ctl : Nat)
  /-- RECOVER (R482): CAN CTRL RECOVER starts bus-off recovery. -/
  | recover (ctl : Nat)
  /-- CAN_RECOVERY_DONE (R482): 128 occurrences of 11 recessive bits end recovery. -/
  | canRecoveryDone (ctl : Nat)
  /-- DETECT (R484): CAN CTRL DETECT starts rate detection in listen-only mode. -/
  | detect (ctl : Nat)
  /-- DETECT_CANDIDATE_TIMEOUT (R484): A candidate rate tried for 250 ms without a match. -/
  | detectCandidateTimeout (ctl : Nat)
  /-- DMA_START (R498): CTRL.START begins a channel's chain at HEAD. -/
  | dmaStart (ch : Nat)
  /-- DMA_STOP (R499): CTRL.STOP stops a channel at the next descriptor boundary. -/
  | dmaStop (ch : Nat)
  /-- KICK (R493): CTRL.KICK refetches a WAIT_OWN descriptor. -/
  | kick (ch : Nat)
  /-- DESCRIPTOR_FETCH (R493): A channel fetches and checks its next descriptor. -/
  | descriptorFetch (ch : Nat) (host : Bytes) (failed : Bool)
  /-- WAIT_OWN_POLL (R493): Every 10 µs a WAIT_OWN channel refetches its descriptor. -/
  | waitOwnPoll (ch : Nat)
  /-- DESCRIPTOR_COMPLETE (R497): A descriptor's data is moved and its STATUS written. -/
  | descriptorComplete (ch : Nat) (host : Bytes) (busError : Bool) (writeBackFails : Bool)
  /-- POWER_DOWN_DEFER_EXPIRY (R504): After 100 µs a descriptor delaying power-down is marked BAD_POWER. -/
  | powerDownDeferExpiry (ch : Nat)
  /-- ACQ_RD (R513): Host write of ACQ.RD consumes acquisition ring bytes. -/
  | acqRd (val : Word)
  /-- TRIG_SW (R511): ACQ.CTRL.TRIG_SW write makes a software trigger. -/
  | trigSw
  /-- ACQ_TRIG_LINE (R511): A falling edge on ACQ_TRIG is stamped as a trigger. -/
  | acqTrigLine
  /-- LATCH_EDGE (R316): A latch input edge is stamped and queued. -/
  | latchEdge (input : Nat) (level : Bool) (stamp : Stamp)
  /-- PWM_RELOAD (R339): At each PWM period start an armed channel transfers its shadows or withholds. -/
  | pwmReload (ch : Nat) (cut : Bool)
  /-- PWM_SHADOW_WRITE (R340): Write of a PWM shadow register, marking PER or CMP written. -/
  | pwmShadowWrite (ch : Nat) (reg : Nat) (val : Word)
  /-- PWM_ARM (R339): Write of PWM.ARM arms channels. -/
  | pwmArm (val : Word)
  /-- PWM_TRIP (R347): An active trip input latches and switches masked channels off. -/
  | pwmTrip (input : Nat) (active : Bool)
  /-- TRIP_CLR (R347): Write of TRIP_CLR clears inactive trip latches. -/
  | tripClr (val : Word)
  /-- EMU_ARM (R249): Write of EMU.ARM makes shadowed settings take hold at the next boundary. -/
  | emuArm (val : Word)
  /-- FBK_CFG_WRITE (R252): Write of a feedback channel CFG; a MODE change clears counts. -/
  | fbkCfgWrite (ch : Nat) (val : Word)
  /-- MT_STROBE (R241): A multi-turn channel strobes its contacts and counts quarters. -/
  | mtStrobe (ch : Nat) (a : Bool) (b : Bool)
  /-- MT_CLR (R252): MT CTRL CLR clears SKIP and XTAL. -/
  | mtClr (ch : Nat)
  /-- MT_ZERO (R242): MT CTRL ZERO sets the count to 0 and VALID. -/
  | mtZero (ch : Nat)
  /-- LE_MEMORY_WRITE (R195): Host write to engine memory, immediate, queued or ignored by table state. -/
  | leMemoryWrite (le : Nat) (offset : Nat) (val : Word)
  /-- MONITOR_SAMPLE (R518): The Innkeeper samples each sensor every 1 ms. -/
  | monitorSample (values : List Int)
  /-- MONITOR_CROSSING (R519): Three samples beyond a threshold begin or end a crossing. -/
  | monitorCrossing (sensor : Nat)
  /-- HEARTBEAT (R520): A service core gives a watchdog heartbeat. -/
  | heartbeat (core : Nat)
  /-- CORE_WATCHDOG_EXPIRY (R520): A core silent for 100 ms causes a watchdog reset. -/
  | coreWatchdogExpiry (core : Nat)
  /-- INNKEEPER_WATCHDOG_EXPIRY (R520): The Innkeeper timer expiring after 1 s causes a watchdog reset. -/
  | innkeeperWatchdogExpiry
  /-- LEDGER_FLASH_WRITE (R522): Buffered event records are written to flash in index order. -/
  | ledgerFlashWrite
  /-- NAMEPLATE_WRITE_BACK (R531): Wear is written back to the nameplate every WEAR_WB minutes or at disable. -/
  | nameplateWriteBack (slot : Nat) (part : Nat)
  /-- WEAR_LEDGER_COPY (R531): Accounts are copied to the flash wear ledger hourly and at STANDBY. -/
  | wearLedgerCopy
  /-- NP_IDENTITY_CHECK (R532): Bound nameplate identities are reread at READY and hourly. -/
  | npIdentityCheck (slot : Nat) (part : Nat) (nameplate : Bytes)
  /-- FLASH_SCRUB (R534): Flash pages are read and checked, repaired or marked failed. -/
  | flashScrub (page : Nat) (ok : Bool) (copyOk : Bool)
  /-- FLASH_REWRITE (R534): An erase block in use is rewritten once every 10 years of its age. -/
  | flashRewrite (block : Nat) (verified : Bool)
  /-- UPDATE_TIMEOUT (R526): An update with no class 0x0F command for 60 s is closed. -/
  | updateTimeout
  /-- SCRUB_PASS_DONE (R60): A background SRAM scrub pass completes. -/
  | scrubPassDone (flips : List Nat)
  /-- AWAITING_HOST_IMAGE (R84): With a host boot source, the second stage reaches the end of its fabric self-test, sets PWR.BOOT.RESULT to 5 and starts the 10 s wait for the host image. -/
  | awaitingHostImage (failed : List Nat)
  /-- KA_XTAL_RESTART (R75): The stopped 32.768 kHz crystal runs again, PWR.CLK.KA_OK returns to 1 and multi-turn counting resumes. -/
  | kaXtalRestart
  /-- SUPPLY_EVT (R93): A run supply or VBAK crosses its threshold without causing a reset, changing its PWR.SUPPLY bit and setting PWR.STAT.SUPPLY_EVT. -/
  | supplyEvt (rail : Nat) (up : Bool)
  /-- ENCODER_EDGE (R226): An A or B edge on a quadrature channel changes the count, may detect a phase error, and after the hysteresis changes the direction flag with FBK.STAT.DIR_CHG. -/
  | encoderEdge (ch : Nat) (ab : Bool × Bool) (samples : Nat)
  /-- ADC_CONVERSION (R231): An analog input completes a conversion, updating its value or running average, sin/cos quarter count and CLIP bit. -/
  | adcConversion (input : Nat) (code : BitVec 16) (atSample : Bool)
  /-- SHARED_SRAM_ACCESS (R555): A host access to shared SRAM through BAR2 or quad-SPI, with SECDED correction on reads and read-modify-write on narrow writes. -/
  | sharedSramAccess (offset : Nat) (data : List (Option Byte)) (read : Nat) (flips : List Nat)
  /-- SAFETY_AREA_FLASH_WRITE_DONE (R444): The two-copy flash write of a committed safety image completes, or reaches its 2 s bound, and SAFE_COMMIT replies. -/
  | safetyAreaFlashWriteDone (ok : Bool)
  /-- CHAIN_PORT_LINK_EVT (R333): A chain port trains or goes down, changing CHN.LINK and setting CHN.STAT.LINK_EVT. -/
  | chainPortLinkEvt (upstream : Bool) (up : Bool)
  /-- ANNOUNCE_SEND (R462): A time transmitter sends Announce every announce interval. -/
  | announceSend
  /-- CAN_BUS_ERROR (R482): A CAN controller detects a bus error, such as a missing acknowledgement, updates TEC or REC and may enter error-passive. -/
  | canBusError (ctl : Nat) (tx : Bool) (ack : Bool) (dominant : Bool)
  /-- BUS_MASTER_ENABLE_WRITE (R503): A PCIe configuration write disables or re-enables bus mastering, pausing or resuming sessions and host-memory DMA. -/
  | busMasterEnableWrite (on : Bool)
  /-- SAFE_TORQUE_OFF_INPUT (R376): A drive head's STO input changes and holds its power stage off in hardware, reported as STO in its status. -/
  | safeTorqueOffInput (port : Nat) (station : Nat) (active : Bool)
  /-- POWER_STAGE_FAULT (R371): A drive head's power stage reports a fault, later reported as DRV_FAULT in its status word. -/
  | powerStageFault (port : Nat) (station : Nat) (chan : Nat)
  deriving DecidableEq, Repr

end Sys2Proof
end

