-- ==== Sys2Proof/Decode.lean ====
section
/-!
DEFINITION. The reading of a table word: the table gives no row any bits, so no word spells a
command (log 2).
-/
namespace Sys2Proof

/-- The command that a word spells: none, since no row of the table gives bits. -/
def decodeTableWord (_nbits _w : Nat) : Option Instr := none

end Sys2Proof
end

