-- ==== Sys2Proof/Machine/State.lean ====
section
/-!
DEFINITION. The state of the block as plain data, and the state after reset.

Every register of the register space lives in `State.regs` under its BAR0 address (R37 to R44); what
the spec gives the machine beside its registers stands in the records below, one per unit. A unit
whose registers are only views of another part of the state is read through Machine/Regs.lean.
-/
namespace Sys2Proof.Machine

/-- No command of this block ends in a fault: every event has the effect the spec gives it. -/
inductive Fault where
  deriving DecidableEq, Repr

/-- Reasons for which a command has no meaning here. -/
inductive Refusal where
  /-- An arm of `exec` whose command has no meaning yet; safe, since nothing can be proved of it. -/
  | notModelled (mnemonic : String)
  deriving DecidableEq, Repr

/-! ### Variant and power (chapters 00, 01, 03) -/

/-- The base part number (R2). -/
inductive Variant where
  | bx7128 | bx7064 | bx7032
  deriving DecidableEq, Repr

/-- The part: variant and option letters (R1). -/
structure Part where
  variant : Variant := .bx7128
  optS : Bool := true
  optA : Bool := true
  optP : Bool := true
  deriving DecidableEq, Repr

/-- The operating states of R25. -/
inductive Mode where
  | dormant | standby | ready | run
  deriving DecidableEq, Repr

/-- What a transition in progress is doing (R83, R84, R87, R122); `idle` when there is none. -/
inductive Phase where
  | idle         -- no transition: PWR.STATE.BUSY reads 0
  | held         -- a reset is held (R68, R73)
  | firstStage   -- first boot stage running (R83)
  | secondStage  -- second boot stage running
  | ringTrain    -- the firmware runs; READY waits for the ring ports (R83)
  | hostLoad     -- waiting for the host image (R84)
  | drain        -- STANDBY requested, waiting for the command path (R122)
  deriving DecidableEq, Repr

/-- Power, clocks and boot beside the `PWR` registers. -/
structure Power where
  mode : Mode := .standby
  target : Mode := .standby            -- PWR.STATE.TARGET
  cut : Bool := false                  -- a power-down has begun and waits for DMA (R92, R504)
  phase : Phase := .firstStage
  straps : BitVec 14 := 0       -- the straps as last sampled (R79)
  mainOk : Bool := true            -- every main supply above its release threshold (R68)
  vbakFell : Bool := false          -- VBAK fell below 1.55 V since the previous reset (R70)
  clockHold : Bool := false         -- the reference is outside its window: resets stay held (R73)
  holdKind : Nat := 6               -- the kind with which a held reset ends, a bit of PWR.CAUSE (R89)
  locks : BitVec 3 := 0             -- PLLs seen locked during the second stage (R72, R93)
  pcieClk : Bool := false           -- the PCIe clock is locked (R74, R93)
  recovery : Bool := false          -- ROM recovery firmware serves (R84)
  wakeCause : BitVec 8 := 0     -- causes present of the entry to READY, as PWR.CAUSE [15:8] (R91)
  wakeHeld : BitVec 8 := 0      -- wake events held during a move to STANDBY (R90)
  firstFailed : List Nat := []   -- units that failed the first stage (R85), as `PWR.BIST.FIRST` numbers them
  secondFailed : List Nat := []  -- units that failed the second stage of this entry to READY
  imageGiven : Bool := false     -- the host image has been written and READY requested again (R84)
  loadAt : Nat := 0              -- uptime at which the wait for the host image began, ns
  image : Bytes := []            -- header of the running firmware image (R524); empty: firmware from ROM
  fuseFloorDue : Bool := false      -- an activation not yet followed by an entry to READY (R525)
  pcieUp : Bool := false            -- PCIe link up (R95)
  busMaster : Bool := false         -- bus mastering enabled (R95)
  subsysVendor : BitVec 16 := 0x2B71 -- PCIe subsystem identifiers (R94)
  subsysId : BitVec 16 := 0x7128
  deriving DecidableEq, Repr

/-! ### Register interface (chapter 02) -/

/-- A held guarded value (R54). -/
structure GuardHold where
  inst : Nat := 0
  off : Nat := 0
  val : Word := 0
  deriving DecidableEq, Repr

/-- The host side of the register space. -/
structure HostBus where
  guard : Map (Option GuardHold) := [] -- the hold of each window, by window number (R54)
  rhold : Map Word := []               -- read hold of each latched pair, by the address of _LO (R50)
  whold : Map Word := []               -- write hold of each latched pair (R50)
  rdata : Bytes := []                  -- data of the latest host read (the model's own field)
  msixArm : BitVec 28 := 0xFFFFFFF            -- MSI-X arm of each source (R65)
  msixTable : Map Byte := []           -- MSI-X table, by byte offset (R38)
  msixPba : BitVec 64 := 0            -- pending-bit array (R38)
  deriving DecidableEq, Repr

/-! ### Command path (chapters 04, 05) -/

/-- A command packet: opcode, header and payload (R128). -/
structure Packet where
  op : Nat := 0
  hdr : Hdr := {}
  payload : Bytes := []
  deriving DecidableEq, Repr

/-- A reply before its slot is written (R131). -/
structure Reply where
  status : Nat := 0
  result : Bytes := []
  effect : Word := 0
  epv : Bool := false
  late : Bool := false
  deriving DecidableEq, Repr

/-- Where an accepted, unretired command stands (R110, R115). -/
inductive TaskPhase where
  | mirror   -- mirror record sent, acknowledgement awaited (R392)
  | parked   -- wait list
  | ready    -- in a ready list
  | running  -- on a service core
  | finished -- reply produced, waiting for retirement
  deriving DecidableEq, Repr

/-- A fetched command that has not retired. -/
structure Flight where
  pkt : Packet := {}
  dep : Option (Nat × Word) := none  -- the dependency of R129, extended at acceptance
  eff : Option Nat := none           -- effect period fixed at acceptance in a pair (R393)
  phase : TaskPhase := .ready
  tick : Word := 0                -- Porter tick at acceptance
  reply : Option Reply := none
  deriving DecidableEq, Repr

/-- A retired command whose reply is not yet written (R116, R133). -/
structure StoredReply where
  seq : Word := 0
  op : Nat := 0
  reply : Reply := {}
  due : Bool := false      -- its effect has taken hold, or it has none
  intent : Nat := 0    -- 0 none; 1 intent sent; 2 acknowledged (R397)
  deriving DecidableEq, Repr

/-- The settings of a session as they stood at its open (R126). -/
structure SesCfg where
  cfg : Word := 0
  sqBase : BitVec 64 := 0
  cqBase : BitVec 64 := 0
  deriving DecidableEq, Repr

/-- A session beside its `CMD` registers. -/
structure Session where
  opened : SesCfg := {}
  flights : List Flight := []        -- oldest first
  replies : List StoredReply := []   -- the reply store, oldest first
  paused : Bool := false                -- R95
  stuck : Bool := false              -- a completion write has failed (R96)
  closing : Bool := false            -- a halt came while the session was CLOSING (R125)
  waiting : List Word := []          -- Porter ticks at which the unconsumed replies were written
  covered : List (Word × StoredReply) := [] -- replies of a Standby that an intent covers, by slot index (R397)
  ahead : Option Intent := none      -- an intent whose reply this Standby does not have yet (R397)
  disc : Option (Word × Word) := none  -- discarded range reported at the last open (R121)
  deriving DecidableEq, Repr

/-- One record of the command journal (R120), in two copies. -/
structure Journal where
  isOpen : Bool := false
  ver : Byte := 0
  accepted : Word := 0
  retired : Word := 0
  copyA : Bool := false   -- the first copy passes its check
  copyB : Bool := false
  deriving DecidableEq, Repr

/-- A Porter task: the command `seq` of session `ses`, or with `ses` 4 a firmware task (R110). -/
structure Task where
  ses : Nat := 0
  seq : Word := 0
  since : Nat := 0    -- uptime at which it became ready, ns
  prio : Nat := 0     -- priority of a firmware task
  deriving DecidableEq, Repr

/-- The Porter's lists (R110 to R112). -/
structure Porter where
  ready : Map (List Task) := []          -- by priority
  delay : List (Word × Nat × Task) := [] -- wake tick, priority, task; sorted by wake tick
  wait : List Task := []
  cores : Map (Option Task) := []        -- by core
  sinceP3 : Nat := 0                    -- dispatches since the last one of priority 3
  deriving DecidableEq, Repr

/-! ### Motion (chapters 08 to 13) -/

/-- The states of an axis slot (R24), numbered as `AXS` `STATE` [2:0]. -/
inductive AxState where
  | disabled | ready | enabled | moving | stopping | fault
  deriving DecidableEq, Repr

/-- A leg of a plan (R263): a jerk and a length in steps. -/
structure Leg where
  jerk : Int := 0
  len : Nat := 0
  deriving DecidableEq, Repr

/-- A residual spread over `len` steps after step `start` (R266). -/
structure Spread where
  start : Nat := 0
  len : Nat := 0
  total : Int := 0
  deriving DecidableEq, Repr

/-- A plan (R263): legs, velocity offsets and position offsets. -/
structure Plan where
  legs : List Leg := []
  vel : List Spread := []
  pos : List Spread := []
  deriving DecidableEq, Repr

/-- An entry of a motion queue (R258). -/
inductive SegKind where
  | pos (target : Int)
  | vel (target : Int)
  | stream (points : List Int)
  | path (target : Int)
  deriving DecidableEq, Repr

/-- A queued segment with its plan and its final position (R557). -/
structure Seg where
  kind : SegKind := .pos 0
  plan : Plan := {}
  endPos : Int := 0
  lim : List Int := []       -- V_u, A_u, D_u, J_u and r of the slot when it was planned (R277)
  deriving DecidableEq, Repr

/-- A stop in progress (R286, R290). -/
inductive Stop where
  | none
  | halt
  | quick (cause : Option Nat) (disable : Bool)  -- fault cause; DISABLED at rest (R291)
  | immediate (cause : Option Nat)
  deriving DecidableEq, Repr

/-- A switch input of a slot, debounced (R280, R281). -/
structure Switch where
  raw : Bool := false
  deb : Bool := false
  count : Nat := 0          -- consecutive samples in which raw differs from deb
  edgePos : Int := 0        -- POS_ACT at the first of them, then the edge position
  rose : Bool := false       -- it became active and the slot has not been due since
  recent : List Bool := []   -- raw edges within the last W samples, newest first (R295)
  deriving DecidableEq, Repr

/-- Homing of a slot (R292 to R298). -/
structure Homing where
  outcome : Nat := 0        -- HOME_STATE [3:0]
  method : Nat := 0
  phase : Nat := 0          -- HOME_STATE [6:4]
  halting : Bool := false       -- the halt that ends the phase runs
  dir : Int := 0            -- direction of the search
  back : Nat := 0           -- reversal of R294: 0 none, 1 halting, 2 searching, 3 seen active, 4 halting
  reversed : Bool := false
  start : Int := 0          -- POS_SET at the start of the search
  refPos : Int := 0
  satRun : Nat := 0         -- consecutive due periods with SAT[1] (method 6)
  idxSeen : Bool := false
  deriving DecidableEq, Repr

/-- Gearing of a slot (R303 to R315). -/
structure Gear where
  kind : Nat := 0           -- 0 free, 1 dovetail, 2 cam
  master : Nat := 0
  num : Int := 0
  den : Nat := 0
  gPrev : Int := 0
  gRem : Int := 0
  vgPrev : Int := 0
  fresh : Bool := false         -- the first run since the link or engagement
  relead : Bool := false        -- GEAR_SRC or GEAR_LEAD changed (R305)
  table : Nat := 0
  ph : Int := 0
  cyc : Int := 0
  base : Int := 0
  camN : Nat := 2           -- points, span and rise of the table as engaged
  camSpan : Nat := 1
  camRise : Int := 0
  camAt : Nat := 0          -- its first point in the engine's cam region (R313)
  deriving DecidableEq, Repr

/-- The offset component beside `AP`, `VP` and `PF` (R311). -/
structure Offset where
  pos : Int := 0
  tgt : Int := 0
  deriving DecidableEq, Repr

/-- Registration of a slot (R321 to R324). -/
structure Registration where
  input : Option Nat := none
  falling : Bool := false
  x1 : Int := 0
  have1 : Bool := false
  err : Int := 0
  applied : Nat := 0
  rejected : Nat := 0
  ended : Bool := false         -- ended by a stop until the next ENABLE
  deriving DecidableEq, Repr

/-- Sin/cos extremes of a slot's calibration window and its proposals (R235). -/
structure Calib where
  ext : List Int := []       -- max and min of s1, c2, s1+c2, s1-c2, s1 and c1 with offset
  samples : Nat := 0
  proposals : List Int := [] -- OFS_S, OFS_C, G, PHA, PHB; empty until a window qualifies
  due : Option Nat := none     -- period number at which they are adopted
  deriving DecidableEq, Repr

/-- An axis slot beside its `AXS` record and its axis state block. -/
structure Axis where
  state : AxState := .disabled
  fault : Nat := 0                -- AXS STATE [31:16]
  stop : Stop := .none
  causes : List Nat := []          -- fault causes recorded since the last sealing
  present : List Nat := []         -- DRV_FAULT, STO or a lost station present (R24)
  homed : Bool := false
  uncertain : Bool := false           -- POS_UNCERTAIN
  accov : Bool := false
  dropped : Bool := false             -- a stop of the slot was dropped in this period
  drops : Nat := 0                -- axis drop counter (R164)
  stale : Nat := 0                -- consecutive due periods with a stale output (R165)
  queue : List Seg := []           -- the segment in progress first (R258)
  plan : Plan := {}                -- the plan that the set-point kernel follows
  base : Nat := 0                  -- PLAN_K at which it began
  origin : List Int := [0, 0, 0]   -- position, VP and AP in u at which it began
  inSeg : Bool := false            -- the first entry of the queue is in progress
  seq : Word := 0                 -- AXS RETIRED_SEQ
  seqSes : Nat := 0
  swHome : Switch := {}
  swPos : Switch := {}
  swNeg : Switch := {}
  homing : Homing := {}
  gear : Gear := {}
  ofs : Offset := {}
  reg : Registration := {}
  calib : Calib := {}
  mtAt : Int := 0                -- count of the multi-turn channel at the last boundary (R243)
  mtQt : Option Int := none      -- count of the multi-turn channel at the last boundary, if valid (R243)
  out : List Word := []            -- OUT0 to OUT3 of the SEAL stop of this period
  fresh : Bool := false               -- the SEAL stop completed in this period
  drove : Bool := false            -- on since its local outputs were last forced (R346)
  sealed : Nat := 0               -- word kind sealed last: 0 fresh, 1 stale, 2 hold, 3 disabled
  holdKind : Nat := 0             -- the island's hold read at the last boundary (R436)
  runs : Nat := 0                  -- `PLAN_K` before it wraps, as last written (R255, R263)
  snapK : Int := 0                 -- runs of the plan at the last boundary, from which moves are planned (R267)
  snap : List (Nat × BitVec 64) := [] -- read-only parameters as at the last boundary (R145); empty before one
  deriving DecidableEq, Repr

/-- A path segment (R271, R272). -/
structure PathSeg where
  kind : Nat := 0             -- 0 linear, 1 arc, 2 dwell
  blend : Bool := false
  cw : Bool := false
  px : Nat := 0
  py : Nat := 0
  feed : Nat := 0
  dwell : Nat := 0            -- axis periods; those left once it has begun
  cx : Int := 0
  cy : Int := 0
  start : List Int := []
  ends : List Int := []
  len : Nat := 0              -- L in u
  rad : Nat := 0              -- radius in fine counts, and the angles at start and over the arc
  th0 : Nat := 0
  dth : Nat := 0
  deriving DecidableEq, Repr

/-- A coordination group (R270): its path as segments, and one plan in the path coordinate. -/
structure Group where
  members : List Nat := []     -- ascending slots
  segs : List PathSeg := []    -- the segment in progress first
  base : Int := 0              -- path coordinate of its start
  plan : Plan := {}
  origin : List Int := [0, 0, 0] -- coordinate, speed and acceleration at which the plan began
  begun : Nat := 0             -- due periods before its first step
  marks : List (Nat × Nat) := [] -- per planned segment: the steps at which its blend begins and ends
  blends : List Nat := []      -- per planned segment: half-length of the blend into the next, in u
  stale : Bool := false        -- segments have joined or gone since the plan was made
  stop : Nat := 0              -- 0 none, 1 halt, 2 quick stop
  rest : List Int := []        -- where the members come to rest
  left : List Nat := []        -- members that fault or are disabled while the path runs: they follow it no more
  deriving DecidableEq, Repr

/-- A stop record (R155). -/
structure StopRec where
  kernel : Nat := 0
  slot : Nat := 0
  flags : Nat := 0
  param : Nat := 0
  pred : Nat := 0
  earliest : Nat := 0
  deadline : Nat := 0
  input : Nat := 0
  accov : Bool := false
  drops : Nat := 0
  hdr : Nat := 0                 -- header of a custom kernel, as its build found it (R192); 0 before
  deriving DecidableEq, Repr

/-- A staged effect (R116, R118): a retired "Y" command that has not taken hold. -/
structure Staged where
  ses : Nat := 0
  pkt : Packet := {}
  eff : Nat := 0              -- effect period E
  asked : Bool := false           -- an effect period was given
  slots : List Nat := []       -- slots it acts on
  seg : Option Seg := none    -- the planned segment of a move
  append : Bool := false      -- it joins the queue
  switchK : Nat := 0          -- SWITCH_K of a replacement (R267)
  waiting : Bool := false     -- its boundary has come; the switch run or the copied table has not
  late : Bool := false        -- its boundary came too late (R119)
  cut : Bool := false         -- displaced by a quick stop, whose end settles the reply (R290)
  copied : Nat := 0           -- points copied for an engagement (R313)
  camAt : Nat := 0            -- where they go in the engine's cam region
  acked : Bool := false           -- retire record acknowledged (R394)
  tables : List (Nat × Nat × Map StopRec) := [] -- engine, `SPARE` and table of a build, as checked (R169)
  deriving DecidableEq, Repr

/-- A cam table header (R312); the points stand in `State.camPoints`. -/
structure CamTable where
  n : Nat := 0
  span : Nat := 0
  rise : Int := 0
  deriving DecidableEq, Repr

/-- A shaft message held for a channel (R325, R327). -/
structure ShaftMsg where
  period : Word := 0
  hops : Nat := 0
  origin : Nat := 0
  pos : Int := 0
  vel : Int := 0
  ticks : Nat := 0            -- arrival after its own boundary
  deriving DecidableEq, Repr

/-- A shaft channel beside its `CHN` registers. -/
structure Shaft where
  held : List ShaftMsg := []
  pos : Int := 0              -- the last deposit
  vel : Int := 0
  misses : Nat := 0           -- consecutive misses
  deriving DecidableEq, Repr

/-- A latch record or pending stamp (R317, R318). -/
structure LatchRec where
  falling : Bool := false
  stamp : Stamp := {}
  pos : Option Int := none       -- the position once completed
  ref : Option Nat := none       -- the slot that the input was armed for
  deriving DecidableEq, Repr

/-- A latch input beside its `LAT` registers. -/
structure Latch where
  slot : Option Nat := none      -- the slot it is armed for
  mode : Byte := 0            -- MODE of LATCH_ARM
  winStart : BitVec 64 := 0
  winEnd : BitVec 64 := 0
  bound : Option Nat := none     -- slot whose registration has it bound
  host : List LatchRec := []   -- host FIFO, oldest first
  reg : List LatchRec := []    -- registration queue, oldest first
  last : Option Nat := none      -- time of the last accepted edge, in 1/4 ns
  level : Bool := false           -- ball level
  first : Option LatchRec := none  -- the first accepted edge since the last boundary, for switch sources
  latest : Option LatchRec := none -- the latest one, for urgent triggers
  own : List LatchRec := []    -- a Standby's own stamps of the latest 2 ms (R399)
  deriving DecidableEq, Repr

/-! ### Loop engines and the Timetable (chapters 06, 07) -/

/-- A stop that is on the engine: its index, the cycle it was dispatched and the cycle at which its
commit ends. -/
structure Running where
  stop : Nat := 0
  start : Nat := 0
  fin : Nat := 0
  deriving DecidableEq, Repr

/-- An address generator (R182, R183). -/
structure AddrGen where
  base : Nat := 0
  len : Nat := 0
  stride : Int := 0
  ptr : Word := 0
  next : Option Nat := none
  deriving DecidableEq, Repr, Inhabited

/-- A register bank of an engine (R173): data registers, writes on their way, accumulators with clamp flags,
address generators, `IN`, `OUT`, `PUB` and the store buffer, newest first. -/
structure Bank where
  d : List Word := List.replicate 32 0
  way : List (Nat × Nat × Word) := []   -- cycle at which visible, register, value
  acc : List (Int × Bool) := List.replicate 4 (0, false)
  accWay : List (Nat × Nat × (Int × Bool) × Bool) := []  -- the same for accumulators, with `MAC`, `MSU` and `MUL` marked
  ag : List AddrGen := List.replicate 16 {}
  input : List Word := List.replicate 8 0
  out : List Word := List.replicate 4 0
  pub : List (Option Word) := List.replicate 8 none
  stores : List (Nat × Word) := []
  accov : Bool := false
  deriving DecidableEq, Repr

/-- What a run of `REG_LATCH` writes into its target's block (R323). -/
structure RegWrite where
  slot : Nat := 0
  x1 : Int := 0
  have1 : Bool := false
  err : Int := 0
  applied : Nat := 0
  rejected : Nat := 0
  tgt : Int := 0            -- OFS_TGT
  deriving DecidableEq, Repr

/-- A loop engine and its sequencer beside their `TTB` and `LE` registers. -/
structure Engine where
  index : Nat := 0                 -- next entry of the table to visit
  now : Nat := 0                   -- completion of the previous entry, in cycles from the boundary
  busy : Nat := 0                  -- foreground cycles of this period
  main : Option Running := none       -- the stop in the main bank
  urgent : Option Running := none     -- the stop in the shadow bank
  preempted : Bool := false            -- the main-bank stop is suspended
  dropped : List Nat := []          -- entries dropped in this period
  completed : List Nat := []        -- entries completed in this period
  fired : List Nat := []            -- urgent entries that fired in this period
  waiting : List Nat := []          -- urgent entries whose trigger waits (R162)
  inputs : Map (List Word) := []    -- IN0 to IN7 of each started stop, by index (R175)
  heldStores : List (Nat × Word) := [] -- stores of an urgent stop held in the shadow bank (R186)
  heldRegs : List RegWrite := []    -- and what a registration stop writes into its target's block
  heldTime : Nat := 0              -- cycles that writing them takes
  writeQ : List (Nat × Word) := []  -- host writes waiting for the boundary (R195)
  ended : Bool := false                -- the background stop of this period has ended (R160)
  bg : Option Nat := none          -- the background stop runs since this cycle, pauses taken off (R162, R167)
  bgUsed : Nat := 0                -- its cycles in this period
  bgTele : Nat := 0                -- queued background work, in cycles: a telemetry set (R196)
  bgJobs : Nat := 0                -- and other jobs, which resume after a cut (R167)
  mainBank : Bank := {}            -- the two register banks (R173)
  shadowBank : Bank := {}
  deriving DecidableEq, Repr

/-- The values of one kernel parameter block (R199, R215): the parameters as last written into it,
by index, and the run-to-run state of its kernel, by word. -/
structure Block where
  params : Map (BitVec 64) := []
  words : Map Int := []
  deriving DecidableEq, Repr

/-! ### Local motion I/O (chapters 09, 13) -/

/-- A sample of a digital channel (R223). -/
structure FbkSample where
  started : Bool := false    -- the sample time has passed
  done : Bool := false       -- the sample is complete
  lo : Word := 0             -- count or position low
  hi : Word := 0
  idx : Word := 0
  status : Word := 0
  deriving DecidableEq, Repr

/-- A digital feedback channel beside its `FBK` registers (R226 to R230). -/
structure FbkCh where
  act : Word := 0x005A68C0   -- CFG in force
  a : Bool := false          -- filtered levels of A and B, and their levels and runs before the filter (R226)
  b : Bool := false
  rawA : Bool := false
  rawB : Bool := false
  runA : Nat := 16
  runB : Nat := 16
  down : Bool := false       -- direction flag
  back : Nat := 0            -- counts back from the extreme in the current direction
  idx : Bool := false        -- an index edge since the last sample
  dirChg : Bool := false
  phase : Bool := false      -- a phase error or quadrant skip since the last sample
  restart : Bool := false
  quad : Option Nat := none  -- quadrant of the latest conversion pair (mode 4)
  cur : FbkSample := {}      -- the sample of this period
  nxt : FbkSample := {}      -- that of the next, taken before its boundary (R470)
  deriving DecidableEq, Repr

/-- A multi-turn channel beside its `MT` registers (R241). -/
structure MtCh where
  a : Bool := false
  b : Bool := false
  seen : Bool := false       -- a strobe has set the levels
  deriving DecidableEq, Repr

/-- An analog input beside its `ADC` registers (R231). -/
structure AdcIn where
  sum : Int := 0
  count : Nat := 0
  value : Word := 0          -- latest conversion value
  code : Int := 0            -- latest code less the offset
  fresh : Bool := false      -- a conversion since the last pair (mode 4)
  wait : Nat := 0            -- the sample conversion awaited: 0 none, 1 this period's, 2 the next one's
  cur : Option Word := none  -- the sample of this period, and of the next taken early (R223, R470)
  nxt : Option Word := none
  deriving DecidableEq, Repr

/-- The edges that an emulation channel emits for one period (R247). -/
structure Train where
  start : Nat := 0          -- its boundary, ns
  out : Int := 0
  tBase : Nat := 0
  delay : Nat := 0          -- ns
  deriving DecidableEq, Repr

/-- An encoder emulation channel (R246 to R249); its active settings. -/
structure Emu where
  cfg : Word := 0
  num : Word := 0
  den : Word := 1
  zper : Word := 0
  zofs : Word := 0
  armed : Bool := false
  pPrev : Int := 0
  rem : Int := 0
  demand : Word := 0
  resync : Bool := false
  trains : List Train := [] -- edges that have not all fallen
  phase : Int := 0          -- edges of A and B that have fallen, net, since EN rose
  deriving DecidableEq, Repr

/-- A PWM channel's active set (R339), the values held for the boundary (R345) and its forcing. -/
structure Pwm where
  per : Nat := 4000          -- ticks of 2.5 ns; before the first transfer the reset values of the shadows (log 3)
  cmp : Nat := 0             -- fine steps of 78.125 ps, as the delays
  dtr : Nat := 1280
  dtf : Nat := 1280
  start : Option Nat := none -- where the PWM period that runs began, in 1/64 ns of network time; none: not running
  since : Nat := 0           -- when `EN` rose
  was : Bool := false        -- the reference at the end of the period before, and its last edge
  edge : Nat := 0
  dead : Nat × Nat := (1280, 1280)  -- the dead times that follow that edge
  sync : Nat := 0            -- when `SYNC` rose or `PHASE` changed
  held : Option Nat := none  -- compare value that the boundary writes
  word : Bool := false       -- armed by the device with a sealed word
  force : Nat := 0           -- 0 none, 1 all off, 2 windings shorted (R346, R351)
  next : Option Nat := none  -- forcing that the boundary begins
  deriving DecidableEq, Repr

/-- A step/direction channel beside its `STP` registers (R352). -/
structure Step where
  word : Int := 0           -- the count sealed for the next period
  pulses : Int := 0         -- pulses of this period, signed
  cfg : Word := 0x191900    -- CFG in force
  dir : Bool := false       -- level of DIR
  hard : Bool := false      -- a hard stop takes hold at this boundary or the next (R354)
  deriving DecidableEq, Repr

/-! ### Rings and drive heads (chapter 14) -/

/-- A station as discovered (R367). -/
structure Station where
  channels : Nat := 0
  west : Nat := 0
  east : Nat := 0
  vendor : Nat := 0
  product : Nat := 0
  bad : Nat := 0            -- consecutive periods without good segments (R378)
  deriving DecidableEq, Repr

/-- Requests waiting for the side channel of a ring, the first of them in progress once sent (R382). -/
structure SideQueue where
  reqs : List Bytes := []
  seq : Nat := 0
  age : Nat := 0                     -- frames since the request in progress was sent
  busy : Bool := false               -- the first request has been sent
  deriving DecidableEq, Repr

/-- A ring port beside its `VLK` registers. -/
structure RingPort where
  cfg : Word := 0                    -- CFG as of the latest training
  stations : List Station := []
  discovered : Bool := false
  hopVer : Map Nat := []              -- version of each hop, 0 down; unlisted: 7, not yet trained
  good : Map (List Word) := []        -- IN0 to IN7 of each good segment of this period, by station*4+channel
  last : Map (List Word) := []        -- those of the latest period with a good segment
  arrived : Bool := false                -- the returning frame arrived by the deadline
  closed : Bool := false                 -- the return deadline of this period has passed
  words : Map (List Word) := []       -- kind and OUT0 to OUT3 sealed for the next frame, by station*4+channel
  reclose : Bool := false                -- RECLOSE in the next west-end frame
  healable : Bool := false
  side : SideQueue := {}             -- foreground requests
  plate : SideQueue := {}            -- nameplate writes (R168)
  sideRun : Nat := 0                 -- latest frames in a row that carried foreground requests
  activeSeen : Bool := false             -- a frame with ACTIVE arrived in this period
  trainAt : Nat := 0                     -- uptime at which training started, ns
  measured : Bool := false               -- the delay frame has returned
  cable : Nat := 0                       -- measured cable delay of the ring length, ns
  fwd : List Nat := []                   -- channels whose segment of this period the partner sent
  deriving DecidableEq, Repr

/-- One channel of a drive head (R376). -/
structure HeadCh where
  wordA : Option (Nat × List Word) := none  -- kind and outputs of the good word of the frame with ACTIVE
  wordB : Option (Nat × List Word) := none  -- good word of the other frame
  kind : Nat := 3                           -- word kind of the latest period
  outs : List Word := []                    -- outputs applied
  on : Bool := false                        -- power stage on
  shorted : Bool := false
  run : Nat := 0                            -- consecutive STALE periods
  zeroI : Bool := false
  cmpDiff : Bool := false
  downBad : Bool := false
  drvFault : Bool := false
  record : List Word := []                  -- sample record of this period, IN0 to IN7
  captured : Bool := false                  -- an index edge since training or RESTART (R371)
  deriving DecidableEq, Repr

/-- A drive head (R376). -/
structure Head where
  delayW : Option Nat := none  -- D_i for frames of the west end
  delayE : Option Nat := none
  chans : Map HeadCh := []
  period : Word := 0        -- PERIOD of the latest frame that gave a boundary
  usable : Bool := false    -- a usable frame arrived in this period
  missed : Nat := 0         -- periods without a usable frame
  loopW : Bool := false     -- the west link port is lost: frames from the east are looped
  loopE : Bool := false
  healW : Bool := false     -- the lost west link has trained again
  healE : Bool := false
  sto : Bool := false
  image : Nat := 0          -- firmware image: 0 the former, 1 the new
  upd : Bytes := []         -- data of an image that is being transferred (R381)
  cfg : Map (Option Byte) := []  -- configuration block as written, by offset (R381)
  channels : Nat := 0       -- channels it declared at discovery; 0: no head is known here
  vendor : Nat := 0
  product : Nat := 0
  deriving DecidableEq, Repr

/-! ### Pair (chapter 15) -/

/-- The redundant pair beside the `PAIR` registers. -/
structure Pair where
  partner : Option PairingRec := none
  partnerState : Word := 0
  diffs : Nat := 0               -- digest differences since pairing
  adopted : Nat := 0             -- slots adopted since pairing
  roleAt : Word := 0             -- period of the last change of role
  digest : Option (Word × Word × List (BitVec 16)) := none -- own record of the latest sealed period
  missing : Nat := 0             -- consecutive missing period records
  received : Bool := false           -- the partner's record of the latest period came
  lostAt : Option Nat := none       -- period in which the loss of the link was detected
  matching : Nat := 0            -- consecutive matching periods (R411)
  equal : Bool := false          -- the digests compared last were equal (R405)
  requests : List Nat := []       -- adoption requests of this period
  asked : Nat := 0               -- requests received in this period
  images : List Bytes := []      -- images received in time for the sealing, waiting for the boundary
  late : List Bytes := []        -- images received too late for the sealing
  roundAt : Nat := 0             -- first slot of the next step of an adoption round (R411)
  leave : Bool := false              -- the Standby leaves step at its next sealing
  clear : Bool := false              -- the Active role ends at the next sealing
  rejoin : Bool := false             -- and the device then leaves RUN and joins (R389)
  waited : Nat := 0              -- uptime at which the wait for a partner began, ns
  resyncAt : Nat := 0            -- uptime at which the resynchronisation began, ns
  proxied : Option (Nat × Word) := none -- the packet that a proxy forwarded last: session, SEQ (R398)
  theirs : Option (Word × Word × List (BitVec 16)) := none -- the partner's period record of the latest period
  field : Word := 0              -- the Active's switch samples (R399)
  latch : Word := 0
  holds : List Nat := []
  swDue : Bool := false              -- the boundary's work that takes these samples has yet to be done
  listen : Option Nat := none        -- period in which listening for an Active began (R390)
  heard : Bool := false              -- an Active frame came since
  rounds : Nat := 0                  -- adoption rounds begun (R411)
  order : List (Nat × Word) := []         -- mirrored commands that have not retired, in mirroring order
  retires : List (Nat × Word × Nat) := [] -- retire records: session, SEQ, E'
  deriving DecidableEq, Repr

/-! ### Safety island and field die (chapters 16, 17) -/

/-- A safe axis of the island (R432 to R434). -/
structure SafeAx where
  hist : List (BitVec 32) := [] -- positions of the latest cycles, newest first, at most 5
  p2 : Option (BitVec 32) := none -- last position of SRC2
  d : Int := 0                 -- cross-check difference
  dRem : Int := 0
  new1 : Option (BitVec 32) := none -- newest accepted value since the last cycle
  new2 : Option (BitVec 32) := none
  tag1 : Option Nat := none    -- last accepted UTAG
  tag2 : Option Nat := none
  age1 : Nat := 0              -- cycles without a new value
  age2 : Nat := 0
  bad1 : Bool := false         -- the source's status word reports FAULT
  bad2 : Bool := false
  lost : Bool := false         -- a source is lost
  fbFault : Bool := false      -- feedback fault, latched
  viol : Bool := false         -- a limit is violated now
  stopping : Nat := 0          -- 0 none, 1 SS1, 2 SS2 in progress, 3 SOS reached, 4 STO
  byViol : Bool := false       -- an SS1 that a violation triggered
  stopT : Nat := 0             -- cycles since the demand
  v0 : Int := 0
  still : Nat := 0             -- cycles within SOS_WIN of `stillAt`
  stillAt : BitVec 32 := 0
  sosAt : BitVec 32 := 0
  turn : Nat := 0              -- travel in the forbidden direction since the turning point
  sls : Bool := false          -- SLS is active
  hold : Nat := 0              -- kind 0, 1 or 2
  speed : Int := 0
  deriving DecidableEq, Repr

/-- A safe input of the island (R427). -/
structure SafeIn where
  a : Bool := false                -- filtered levels of the two channels
  b : Bool := false
  cntA : Nat := 0
  cntB : Nat := 0
  diff : Nat := 0              -- cycles of difference
  disc : Bool := false
  value : Bool := false
  deriving DecidableEq, Repr

/-- A safe output of the island (R428 to R430). -/
structure SafeOut where
  hi : Bool := false           -- the high-side switch as channel A commands it (R418)
  lo : Bool := false           -- the low-side switch as channel B commands it
  interlock : Bool := false
  fault : Bool := false
  low : Bool := false          -- the fault was found on the low-side switch
  stuckH : Bool := false       -- SO_k_H reads high from outside (R429)
  stuckL : Bool := false       -- SO_k_L reads high from outside while the output is off
  off : Nat := 0               -- cycles both balls have read off since the fault
  tp : Nat := 0                -- cycles since the output came on or its last test pulse
  tpLow : Bool := false        -- the next test pulse is one of the low-side switch
  ack : Nat := 0               -- cycles the ACK bit has been 1
  brake : Nat := 0             -- cycles since the brake closed
  braking : Bool := false      -- the brake has closed and the group output waits
  rush : Bool := false         -- a violation does not wait for the brake
  stale : Bool := false        -- commanded on before the die was rearmed: off until commanded anew (R448)
  deriving DecidableEq, Repr

/-- The output is on only while both switches are (R418, R428). -/
def SafeOut.on (x : SafeOut) : Bool := x.hi && x.lo

/-- Both channels command the output; one that goes off no longer waits for a brake. -/
def SafeOut.switch (b : Bool) (x : SafeOut) : SafeOut :=
  { x with hi := b, lo := b, braking := false, brake := 0, rush := false, tp := if b && x.on then x.tp else 0
           stale := b && x.stale }

/-- A safe connection (R438 to R440). -/
structure SafeConn where
  seq : Word := 0              -- produced or last accepted SEQ
  any : Bool := true           -- any SEQ is accepted
  good : Nat := 0              -- consecutive accepted telegrams, up to 2
  age : Nat := 0               -- cycles since the last produced or accepted
  lost : Bool := true          -- lost, or not yet healthy since the start
  told : Bool := false         -- this silence has been counted as a loss
  ok : Bool := false           -- OK flag of the last accepted
  data : BitVec 64 := 0
  first : Bool := true         -- the next produced telegram carries RESTART
  mismatch : Bool := false     -- PAIR_MISMATCH has been reported
  deriving DecidableEq, Repr

/-- The safety island beside the `SAFE` registers. -/
structure Island where
  st : Nat := 0                 -- 0 BOOT, 1 NO_CONFIG, 2 OPERATING, 3 COMMISSIONING, 4 FAULT
  fcode : Nat := 0              -- fault code
  bist : Nat := 0               -- A_OK, B_OK, IMAGE_OK
  testBad : Bool := false       -- a channel failed its test at the last boot: the unit is absent (R6, R85)
  fails : Nat := 0              -- wrong codes in a row
  axes : Map SafeAx := []
  ins : Map SafeIn := []
  outs : Map SafeOut := []
  conns : Map SafeConn := []
  working : Map Byte := []      -- working image
  committed : Map Byte := []    -- committed image
  valid : Bool := false            -- there is a committed image
  cycle : Nat := 0             -- safety cycles since boot
  silent : Nat := 0            -- cycles without a result of the other channel
  closeAt : Nat := 0           -- cycles without a class 0x0E command while commissioning
  lockout : Nat := 0           -- cycles of lockout left
  writing : Option (Nat × Word) := none -- SAFE_COMMIT in its flash write: session, SEQ
  commit : Option Bytes := none -- the image that it writes, while it may still become the committed one
  deriving DecidableEq, Repr

/-- The field die beside the `FIO` registers. -/
structure FieldDie where
  started : Bool := false
  lplusOk : Bool := false        -- no sag (R455)
  linkUp : Bool := false
  armed : Bool := false          -- ARMED on the die
  cmd : BitVec 16 := 0           -- OUT_CMD as the die holds it
  latched : BitVec 16 := 0       -- outputs latched off (R454)
  rbHigh : BitVec 16 := 0        -- outputs read back 1 from outside since a fault (R454)
  sagged : Bool := true          -- STATE.FAULT not yet followed by REARM (R455, R457)
  level : Word := 0              -- filtered levels on the die
  count : Map Nat := []          -- samples for which an input's raw level has differed
  rearm : Bool := false          -- a rearm is on its way to the die
  stale : BitVec 16 := 0         -- outputs not commanded since the rearm (R448)
  written : BitVec 16 := 0       -- outputs commanded after any rearm, on the way to the die
  clearing : Bool := false       -- an event that clears ARMED is in this link frame
  errs : Nat := 0                -- frames failing their check
  safeOff : Bool := false        -- the watchdog of R420 holds the safe outputs off
  deriving DecidableEq, Repr

/-! ### Time and networks (chapter 18) -/

/-- The time unit beside the `TMU` registers. -/
structure Tmu where
  ns : Nat := 0                -- seconds * 10^9 + nanoseconds
  frac : Nat := 0              -- 2^-32 ns
  lag : Nat := 0               -- network time since the last tick of the reference, 2^-32 ns (R469)
  lead : Nat := 0              -- reference time since that tick, ns
  period : Nat := 0            -- number of the period that runs
  ri : Int := 0                -- integral rate of the servo, ppb
  rho : Int := 0               -- rate of the servo, ppb
  slewEnd : Nat := 0           -- uptime at which the slew ends, ns
  armed : Bool := true         -- the first-lock step is armed (R464)
  inRun : Nat := 0             -- consecutive offsets within LOCK_THR
  outRun : Nat := 0
  gm : Option (BitVec 64) := none
  annAt : Nat := 0             -- uptime of the last Announce of the grandmaster
  hadGm : Bool := false        -- a grandmaster has been lost
  t1 : Option Int := none      -- stamps of the exchange in progress
  t2 : Option Int := none
  t3 : Option Int := none
  syncSeq : Nat := 0
  pd1 : Option Int := none     -- stamps of the peer-delay exchange in progress
  pd2 : Option Int := none
  pd4 : Option Int := none
  path : Option Int := none    -- mean link delay
  seqId : Nat := 0             -- sequence number of the next message sent
  delaySeq : Nat := 0          -- sequence number of the delay request, and of the peer-delay request, in progress
  peerSeq : Nat := 0
  boundaries : Bool := true    -- boundaries are emitted (R73)
  smp : Map Word := []         -- in force: sample offsets by number (R470); `APPLY` of ring p at 16 + p (R374)
  sealed : Bool := false       -- the sealing of the period that runs is over (R16)
  sampled : List Nat := []     -- ring ports, and 8 for the local channels, whose sample of this period is taken (R15)
  deriving DecidableEq, Repr

/-- What a PTP message is, for the stamp that its transmission takes (R462, R463). -/
structure PtpTag where
  kind : Nat := 0
  seq : Nat := 0
  who : Bytes := []            -- requestingPortIdentity
  corr : Int := 0              -- correctionField, ns
  deriving DecidableEq, Repr

/-- A frame waiting in a MAC (R475, R476). -/
structure EthFrame where
  data : Bytes := []
  launch : Nat := 0            -- ns; 0 for best effort
  ch : Nat := 0                -- DMA channel to complete; 32 none
  ptp : Option PtpTag := none
  deriving DecidableEq, Repr

/-- An Ethernet MAC beside its `ETH` registers. -/
structure Mac where
  ptp : List EthFrame := []
  safe : List EthFrame := []
  timed : List EthFrame := []
  best : List EthFrame := []
  deriving DecidableEq, Repr

/-- A CAN FD controller beside its `CAN` registers. -/
structure CanCtl where
  next : Nat := 0              -- receive entry after the last one filled
  abort : BitVec 8 := 0        -- entries to be aborted at the end of the attempt
  onBus : Option Nat := none   -- entry in transmission; 8 the island's
  sof : Nat := 0               -- network time at the start of the attempt (R478)
  above : Bool := false        -- TEC stands above 255 (R482)
  island : Option (Word × Bytes) := none -- the island's entry
  cand : Nat := 0
  hits : Nat := 0              -- consecutive good frames of the candidate
  listen : Bool := false       -- listen-only since a detection (R484)
  deriving DecidableEq, Repr

/-! ### DMA, acquisition and the Innkeeper (chapters 19, 20) -/

/-- A DMA channel beside its registers. -/
structure DmaCh where
  desc : Option Bytes := none  -- the 48 bytes of the descriptor in flight (R491)
  refetch : Bool := false      -- a WAIT_OWN descriptor is to be fetched again (R493)
  queued : Bool := false       -- its frame stands in a MAC's queue
  deriving DecidableEq, Repr

/-- The acquisition engine beside its registers. -/
structure Acq where
  dec : Nat := 0
  flags : Word := 0
  base : BitVec 64 := 0
  log2 : Nat := 0
  trigEn : Word := 0
  latchMask : Word := 0
  fieldMask : Word := 0
  sigs : List Word := []
  marks : List (Nat × Bytes) := [] -- pending marks: type and body
  gap : Nat := 0                   -- records lost since the last GAP mark
  high : Nat := 0                  -- 0: the fill is below 75 %; else 1 + data records since it rose
  low : Nat := 0                   -- consecutive data records below 25 %
  rateDue : Int := 0               -- a change of LEVEL that the fill asks for
  seen : List (Bytes × Nat) := []  -- chain trigger messages of the last 1 ms, with the uptime
  muteEnd : Nat := 0               -- uptime until which ACQ_TRIG is ignored, ns
  deriving DecidableEq, Repr

/-- An event record of the ledger (R521). -/
structure Event where
  index : Word := 0
  code : Nat := 0
  severity : Nat := 0
  flags : Nat := 0
  ns : Nat := 0
  sec : Nat := 0
  unit : Nat := 0
  data0 : Word := 0
  data1 : Word := 0
  deriving DecidableEq, Repr

/-- A bank record (R525) in two copies. -/
structure BankRec where
  act : Nat := 0
  valid : Bool := false
  deriving DecidableEq, Repr

/-- A wear account (R529 to R533). -/
structure Wear where
  state : Nat := 0             -- 0 unbound, 1 counting, 2 changed, 3 unreadable
  source : Nat := 0
  np : Nat := 0
  incRev : Nat := 0
  ident : Bytes := []           -- identity block
  used : Nat := 0              -- micro-units
  rem : Nat := 0               -- remainder below one micro-unit
  remDen : Nat := 0            -- its denominator
  hours : Nat := 0             -- HOURS
  hourNs : Nat := 0            -- enabled time below one hour
  bindSec : Word := 0
  wseq : Word := 0             -- SEQ of the current wear block
  posPrev : Int := 0
  warned : Bool := false
  ended : Bool := false
  lastWb : Nat := 0            -- uptime of the last write-back, ns
  wbDue : Bool := false        -- a disable or a level crossing asks for a write-back
  deriving DecidableEq, Repr

/-- An open update (R526). -/
structure Update where
  dest : Nat := 0
  port : Nat := 0
  station : Nat := 0
  size : Nat := 0
  received : Nat := 0
  last : Nat := 0              -- uptime of the latest class 0x0F command, ns
  committed : Bool := false
  waiting : Option (Nat × Word) := none -- command that waits for the head: session, SEQ
  deriving DecidableEq, Repr

/-- The Innkeeper beside the `MGT` registers. -/
structure Innkeeper where
  buffer : List Event := []     -- at most 64 records in retained memory, oldest first
  ledger : List Event := []     -- records in the flash area, oldest first
  next : Word := 0             -- INDEX of the next record
  flash : Map Byte := []        -- external flash, by offset (R517)
  flashOk : Bool := false
  banks : Map BankRec := []
  runBank : Nat := 0
  floor : Nat := 0             -- rollback floor (R525)
  update : Option Update := none
  wear : Map Wear := []         -- by slot*4 + part; in retained memory
  wearFlash : Map Wear := []    -- the flash wear ledger
  excess : Map Nat := []          -- consecutive samples beyond, by sensor*4 + threshold
  inside : Map Nat := []
  beat : Map Nat := []          -- uptime of each core's last heartbeat, ns
  uptime : Nat := 0             -- ns since the last power-on reset
  wearCopy : Nat := 0           -- uptime of the last copy of the accounts to flash
  resetDue : Option (Nat × Word) := none -- an activation resets the device once this reply is written
  plates : Map Bytes := []      -- nameplate memories by place; empty: does not answer (R527, R528)
  watchdog : Option Nat := none -- expired core, or 0xFF, to be recorded after the restart (R520)
  failedBlocks : List Nat := []
  scrubDate : Nat := 0           -- second of network time of the last complete scrub pass, from the refresh record (R534)
  deriving DecidableEq, Repr

/-! ### The whole block -/

/-- What the class-3 copy of a resynchronisation carries: all state that commands have set (R411). -/
structure ResyncCopy where
  params : Map (BitVec 64) := []
  axes : Map Axis := []
  groups : Map Group := []
  camHdr : Map (Option CamTable) := []
  camPoints : Map (Option Int) := []
  active : Map StopRec := []
  shadow : Map StopRec := []
  leMem : Map Byte := []
  blocks : Map Block := []
  sessions : Map Session := []
  latches : Map Latch := []
  regs : Map Word := []
  deriving DecidableEq, Repr, Inhabited

/-- What the block sends out; the newest first in `State.out` (the model's own field: the spec's
outputs on wires). -/
inductive Output where
  | msix (vector : Nat) (addr : BitVec 64) (data : Word)
  | hostWrite (addr : BitVec 64) (data : Bytes)          -- bus-master write (R94)
  | ring (port : Nat) (frame : Bytes)                    -- a frame launched (R369)
  | side (port station : Nat) (word : Bytes)             -- side-channel request (R381)
  | chain (upstream : Bool) (msg : Bytes)                -- chain message (R384)
  | pair (cls kind : Nat) (body : List Nat)              -- pair-link message (R387)
  | resync (copy : ResyncCopy)                           -- the class-3 copy of a resynchronisation (R411)
  | eth (mac queue : Nat) (frame : Bytes)                -- Ethernet frame started (R475)
  | can (ctl entry : Nat) (frame : CanFrame)             -- CAN frame (R477, R481)
  | trigLine                                             -- ACQ_TRIG driven low (R511)
  | serial (ch : Nat)                                    -- BiSS C or SSI transfer started (R229)
  | nameplate (slot part : Nat) (block : Bytes)          -- nameplate write (R531)
  | head (port station : Nat) (east : Bool) (frame : Bytes) -- frame leaving a drive head's link port (R376)
  deriving DecidableEq, Repr

/-- The state of the block. -/
structure State where
  pending : List Instr := []           -- commands waiting, first in first out
  part : Part := {}
  power : Power := {}
  bus : HostBus := {}
  regs : Map Word := []                -- every register, by BAR0 address; unlisted: its reset value
  out : List Output := []
  sram : Map Byte := []                -- shared SRAM as stored (R60); unlisted: 0
  sramFlip : Map (BitVec 64) := []     -- soft errors of a 64-bit word, by word number
  leMem : Map Byte := []               -- data and kernel memories, engine*0x40000 + window offset; unlisted: 0
  sessions : Map Session := []
  journal : Map Journal := []          -- retained memory
  porter : Porter := {}
  staged : List Staged := []           -- in retirement order
  params : Map (BitVec 64) := []       -- parameters in force, slot*65536 + index
  axes : Map Axis := []
  groups : Map Group := []
  exchange : Map Word := []            -- current copies, record*8 + word (R178)
  exchNext : Map Word := []            -- next copies
  exchAt : Map Nat := []               -- period whose POS_ACT each current copy holds (R318)
  exchAtNext : Map Nat := []
  active : Map StopRec := []           -- active tables, engine*512 + index
  shadow : Map StopRec := []           -- shadow tables
  engines : Map Engine := []
  blocks : Map Block := []             -- kernel parameter blocks, engine*2048 + PARAM
  camHdr : Map (Option CamTable) := []
  camPoints : Map (Option Int) := []   -- table*2048 + point
  shafts : Map Shaft := []
  latches : Map Latch := []
  fbk : Map FbkCh := []
  mts : Map MtCh := []
  adc : Map AdcIn := []
  emu : Map Emu := []
  pwm : Map Pwm := []
  steps : Map Step := []
  ports : Map RingPort := []
  heads : Map Head := []               -- drive heads, port*32 + station
  pair : Pair := {}
  island : Island := {}
  die : FieldDie := {}
  tmu : Tmu := {}
  macs : Map Mac := []
  cans : Map CanCtl := []
  dma : Map DmaCh := []
  acq : Acq := {}
  inn : Innkeeper := {}
  droppedStops : Nat := 0             -- stops dropped since `RUN_START` (R138)
  draws : Nat := 0                    -- draws of free values so far (the model's own field)
  deriving DecidableEq, Repr

/-- The machine right after reset: the end of a power-on reset of a BX-7128-SAP with every strap 0
(DESIGN CHOICE, log 1), before its first boot stage has ended (R83, R87): no register written, every
memory at what an unlisted cell reads as, the queue empty. -/
def State.reset : State := {}

end Sys2Proof.Machine
end

