-- ==== Sys2Proof/Config.lean ====
section
/-!
DEFINITION. The values that the spec leaves open. Each is an opaque constant: nothing can be proved
of its value, so that a claim holds whatever the device does. Those that take a draw number are
applied to `State.draws`, which the step reads and advances.
-/
namespace Sys2Proof.Config

open Sys2Proof.Machine

/-- DESIGN CHOICE (log 4): whether the axis events that are enabled per axis assert the `AXS` line,
from the `STATE` words of the records; R64 names the line and no rule gives its enables. -/
opaque axisLine : List Word → Bool

/-- DESIGN CHOICE (log 5): what a SECDED decoder makes of a word with three or more flipped bits
(R60): 0 no report, 1 corrected as a single error, 2 reported as a double error; and the data. -/
opaque eccWide : BitVec 64 → BitVec 64 → Nat × BitVec 64

/-- DESIGN CHOICE (log 6): a free word (identity words and results that the spec does not state). -/
opaque word : Nat → Word

/-- DESIGN CHOICE (log 6): data register `n`, accumulator `n` and address generator `n` of a bank after the run of a ROM
kernel, by draw. -/
opaque bankWord : Nat → Nat → Word
opaque bankAcc : Nat → Nat → Int × Bool
opaque bankAg : Nat → Nat → AddrGen

/-- DESIGN CHOICE (log 35): the kind of feedback of a channel of a drive head, and what its configuration block holds at an
offset before it is written (R371, R381), by the place of the head. -/
opaque headKind : Nat → Nat → Nat
opaque headCfg : Nat → Nat → Byte

/-- DESIGN CHOICE (log 28): the place, in double words of the parameter block, of word `n` of a ROM kernel's block. -/
opaque blockAt : Nat → Nat → Nat

/-- DESIGN CHOICE (log 30): what 64 bits hold of a value that they do not fit. -/
opaque beyond : Int → BitVec 64

/-- DESIGN CHOICE (log 25): the word at an offset of the axis state block after a feedback run on a mismatch (R224), by
offset, period number and input words. -/
opaque mismatch : Nat → Nat → List Word → Word

/-- DESIGN CHOICE (log 6): a free number, by draw. -/
opaque num : Nat → Nat

/-- DESIGN CHOICE (log 6): the version and the pair level of the firmware in ROM, as `MGT.ID` shows them. -/
opaque romId : Word

/-- DESIGN CHOICE (log 47): the tasks that firmware puts into the delay list at a tick, as wait and priority,
by draw; how a run of a firmware task ends: for good, or with a yield and a wait (R110 to R112). -/
opaque fwTasks : Nat → List (Word × Nat)
opaque fwEnd : Nat → Option Word

/-- DESIGN CHOICE (log 8): whether an update image passes its Ed25519 signature (R524); the public key
in ROM is not in the spec. -/
opaque signatureOk : Bytes → Bool

/-- DESIGN CHOICE (log 11): whether half a nanosecond of a PTP measurement rounds upward (R463 gives
no rounding). -/
opaque halfUp : Int → Bool

/-- DESIGN CHOICE (log 23): whether the average of `n` conversions with the given sum, when it is not
whole, is taken upward (R231 gives no rounding). -/
opaque avgUp : Int → Nat → Bool

/-- DESIGN CHOICE (log 29): whether a quotient that the spec leaves without a rounding, when it is not
whole, is taken upward. -/
opaque quotUp : Int → Nat → Bool

/-- DESIGN CHOICE (log 32): whether an arc that ends where it starts is a full circle or none (R271 does not
say), by its start and its centre. -/
opaque arcFull : Int → Int → Int → Int → Bool

/-- DESIGN CHOICE (log 30): RJ of the offset component while J_p is 0 (R268, R311): a quotient by 0. -/
opaque rj : Int

/-- DESIGN CHOICE (log 40): what the class-3 copy of a resynchronisation brings (R411): the Active's state, which no
command of this device holds, by draw. -/
opaque copy : Nat → ResyncCopy

/-- DESIGN CHOICE (log 40): whether the partner too holds the shaft message of a channel for a period, as its report
says (R406; no row brings the report). -/
opaque partnerHolds : Nat → Word → Bool

end Sys2Proof.Config
end

