-- ==== Sys2Proof/Machine/Ops.lean ====
section
/-!
DEFINITION. Named operations over sparse maps, bytes, bit fields and whole numbers.
-/
namespace Sys2Proof

/-! ### Sparse maps -/

/-- The listed entry of a key. -/
def Map.find? {α : Type} : Map α → Nat → Option α
  | [], _ => none
  | (k, v) :: r, a => if k = a then some v else Map.find? r a

/-- The value at a key, `d` giving what unlisted keys read as. -/
def Map.get {α : Type} (d : Nat → α) (m : Map α) (k : Nat) : α := (Map.find? m k).getD (d k)

/-- Remove a key. -/
def Map.erase {α : Type} : Map α → Nat → Map α
  | [], _ => []
  | (k, v) :: r, a => if k = a then Map.erase r a else (k, v) :: Map.erase r a

/-- Put an entry in its place by rising key, the key not being listed. -/
def Map.insert {α : Type} : Map α → Nat → α → Map α
  | [], a, x => [(a, x)]
  | (k, v) :: r, a, x => if a < k then (a, x) :: (k, v) :: r else (k, v) :: Map.insert r a x

/-- Write one key; writing what an unlisted key reads as removes the entry. -/
def Map.set {α : Type} [DecidableEq α] (d : Nat → α) (m : Map α) (k : Nat) (x : α) : Map α :=
  if x = d k then Map.erase m k else Map.insert (Map.erase m k) k x

/-- Every listed key lies above `a`, rising. -/
def Map.rising {α : Type} : Option Nat → Map α → Bool
  | _, [] => true
  | none, (k, _) :: r => Map.rising (some k) r
  | some a, (k, _) :: r => decide (a < k) && Map.rising (some k) r

/-- The canonical form: keys strictly rising, no entry equal to what an unlisted key reads as. -/
def Map.wf {α : Type} [DecidableEq α] (d : Nat → α) (m : Map α) : Bool :=
  Map.rising none m && m.all (fun e => decide (e.2 ≠ d e.1))

/-- The canonical form of a memory whose unlisted bytes read as 0. -/
def Memory.wf (m : Map Byte) : Bool := Map.wf (fun _ => 0) m

/-- Write a run of consecutive keys from `k`. -/
def Map.setRun {α : Type} [DecidableEq α] (d : Nat → α) : Map α → Nat → List α → Map α
  | m, _, [] => m
  | m, k, x :: r => Map.setRun d (Map.set d m k x) (k + 1) r

/-- Read `n` consecutive keys from `k`. -/
def Map.getRun {α : Type} (d : Nat → α) (m : Map α) : Nat → Nat → List α
  | _, 0 => []
  | k, n + 1 => Map.get d m k :: Map.getRun d m (k + 1) n

/-! ### Bytes, little-endian (R10) -/

/-- The number that bytes stand for, the first byte the least significant. -/
def leNat : Bytes → Nat
  | [] => 0
  | b :: r => b.toNat + 256 * leNat r

/-- The low `n` bytes of a number. -/
def leBytes : Nat → Nat → Bytes
  | 0, _ => []
  | n + 1, v => BitVec.ofNat 8 v :: leBytes n (v / 256)

/-- The number that `n` bytes from offset `o` stand for; bytes beyond the end read as 0. -/
def Bytes.num (p : Bytes) (o n : Nat) : Nat := leNat ((p.drop o).take n)

/-- The two's complement number of `n` bytes from offset `o`. -/
def Bytes.sint (p : Bytes) (o n : Nat) : Int :=
  let v := Bytes.num p o n
  if 2 * v < 256 ^ n then (v : Int) else (v : Int) - (256 ^ n : Nat)

/-- The 32-bit word at offset `o`. -/
def Bytes.word (p : Bytes) (o : Nat) : Word := BitVec.ofNat 32 (Bytes.num p o 4)

/-- The bytes of a word. -/
def wordBytes (w : Word) : Bytes := leBytes 4 w.toNat

/-- The bytes of a number in two's complement. -/
def sleBytes (n : Nat) (v : Int) : Bytes := leBytes n (v % (256 ^ n : Nat)).toNat

/-- The words of a run of bytes, cut to whole words. -/
def bytesWords : Bytes → List Word
  | a :: b :: c :: d :: r => BitVec.ofNat 32 (leNat [a, b, c, d]) :: bytesWords r
  | _ => []

/-- `n` zero bytes. -/
def zeros (n : Nat) : Bytes := List.replicate n 0

/-- Cut or fill with zeros to `n` bytes. -/
def padTo (n : Nat) (p : Bytes) : Bytes := p.take n ++ zeros (n - p.length)

/-! ### Bit fields -/

/-- Bits [hi:lo] of a number. -/
def field (v hi lo : Nat) : Nat := v / 2 ^ lo % 2 ^ (hi + 1 - lo)

/-- Bits [hi:lo] of a word. -/
def bits (w : Word) (hi lo : Nat) : Nat := field w.toNat hi lo

/-- Bit `n` of a word. -/
def bit (w : Word) (n : Nat) : Bool := w.getLsbD n

/-- A word of one bit. -/
def bitw (n : Nat) : Word := BitVec.ofNat 32 (2 ^ n)

/-- A Boolean as a number. -/
def b2n (b : Bool) : Nat := if b then 1 else 0

/-- A word from a number, modulo 2^32. -/
def w32 (n : Nat) : Word := BitVec.ofNat 32 n

/-- The mask of bits [hi:lo]. -/
def maskw (hi lo : Nat) : Word := BitVec.ofNat 32 ((2 ^ (hi + 1 - lo) - 1) * 2 ^ lo)

/-- Replace bits [hi:lo] of a word. -/
def setBits (w : Word) (hi lo v : Nat) : Word :=
  (w &&& ~~~ maskw hi lo) ||| (BitVec.ofNat 32 (v % 2 ^ (hi + 1 - lo) * 2 ^ lo))

/-- Set or clear bit `n` of a word. -/
def setBit (w : Word) (n : Nat) (b : Bool) : Word :=
  if b then w ||| bitw n else w &&& ~~~ bitw n

/-- The words of a 64-bit quantity. -/
def lo64 (v : BitVec 64) : Word := BitVec.ofNat 32 v.toNat
def hi64 (v : BitVec 64) : Word := BitVec.ofNat 32 (v.toNat / 2 ^ 32)
def cat64 (hi lo : Word) : BitVec 64 := BitVec.ofNat 64 (hi.toNat * 2 ^ 32 + lo.toNat)

/-- Numbers of the bits that are 1, ascending. -/
def setBitsOf (w : Word) : List Nat := (List.range 32).filter (bit w)

/-- `a - b` modulo 2^32 read as a signed number: serial order of sequence numbers. -/
def seqDiff (a b : Word) : Int := (a - b).toInt

/-! ### Whole numbers -/

/-- Clamp between bounds. -/
def clampI (lo hi v : Int) : Int := if v < lo then lo else if hi < v then hi else v

/-- Saturate to a signed number of `n` bits. -/
def satN (n : Nat) (v : Int) : Int := clampI (-(2 ^ (n - 1) : Nat)) ((2 ^ (n - 1) : Nat) - 1) v

/-- sat32() and sat64() of the manual's pseudocode. -/
def sat32 (v : Int) : Int := satN 32 v
def sat64 (v : Int) : Int := satN 64 v

/-- Keep the low `n` bits as a signed number. -/
def wrapN (n : Nat) (v : Int) : Int :=
  let u := v % (2 ^ n : Nat)
  if 2 * u < (2 ^ n : Nat) then u else u - (2 ^ n : Nat)

/-- wrap64() of the manual's pseudocode. -/
def wrap32 (v : Int) : Int := wrapN 32 v
def wrap64 (v : Int) : Int := wrapN 64 v

/-- rnd(x, n) of R181: divide by 2^n, ties upward. -/
def rnd (x : Int) (n : Nat) : Int := if n = 0 then x else (x + (2 ^ (n - 1) : Nat)) / (2 ^ n : Nat)

/-- The rounding of R181 of an exact quotient. -/
def rndDiv (a : Int) (b : Nat) : Int := (2 * a + b) / (2 * b : Nat)

/-- Sign of a number: -1, 0 or 1. -/
def sgn (x : Int) : Int := if x < 0 then -1 else if x = 0 then 0 else 1

/-- The unsigned reading of a signed number in `n` bits. -/
def toU (n : Nat) (v : Int) : Nat := (v % (2 ^ n : Nat)).toNat

/-- A signed number as a word. -/
def wInt (v : Int) : Word := BitVec.ofInt 32 v

/-- The integer square root, by binary digits from `2^k` down. -/
def isqrtGo (n : Nat) : Nat → Nat → Nat
  | 0, r => r
  | k + 1, r => isqrtGo n k (if (r + 2 ^ k) * (r + 2 ^ k) ≤ n then r + 2 ^ k else r)

/-- The largest `r` with `r * r ≤ n`. -/
def isqrt (n : Nat) : Nat := isqrtGo n (Nat.log2 n / 2 + 1) 0

/-- Replace the element at a place of a list. -/
def setAt {α : Type} (l : List α) (n : Nat) (x : α) : List α := l.set n x

/-- The elements that differ from `x`. -/
def without {α : Type} [DecidableEq α] (x : α) (l : List α) : List α := l.filter (· ≠ x)

/-- Add to a list without repeats. -/
def adjoin {α : Type} [DecidableEq α] (x : α) (l : List α) : List α := if x ∈ l then l else l ++ [x]

/-- Apply an update for each element of a list, in order. -/
def foldl1 {σ α : Type} (f : α → σ → σ) (l : List α) (s : σ) : σ := l.foldl (fun t x => f x t) s

/-- CRC over bits, most significant bit of each byte first: `poly` without its top bit, `w` bits. -/
def crcBit (w poly : Nat) (c : Nat) (b : Bool) : Nat :=
  let top := c / 2 ^ (w - 1) % 2 = 1
  let c2 := c * 2 % 2 ^ w
  if top ≠ b then Nat.xor c2 poly else c2

/-- The bits of a byte, the most significant first. -/
def msbBits (b : Byte) : List Bool := (List.range 8).map (fun i => b.getLsbD (7 - i))

/-- The bits of a byte, the least significant first. -/
def lsbBits (b : Byte) : List Bool := (List.range 8).map (fun i => b.getLsbD i)

/-- A CRC over bits. The matches on the value so far have each bit evaluated before the next. -/
def crcBits (w poly : Nat) : List Bool → Nat → Nat
  | [], c => c
  | b :: r, 0 => crcBits w poly r (crcBit w poly 0 b)
  | b :: r, c + 1 => crcBits w poly r (crcBit w poly (c + 1) b)

/-- A CRC taking each byte's most significant bit first. -/
def crcMsb (w poly init : Nat) (p : Bytes) : Nat :=
  crcBits w poly (p.flatMap msbBits) init

/-- Reflect the low `w` bits. -/
def reflect (w v : Nat) : Nat :=
  (List.range w).foldl (fun r i => r + (v / 2 ^ i % 2) * 2 ^ (w - 1 - i)) 0

/-- A reflected CRC: least significant bits first, the result reflected. -/
def crcLsb (w poly init : Nat) (p : Bytes) : Nat :=
  reflect w (crcBits w poly (p.flatMap lsbBits) init)

/-- CRC-32 of IEEE 802.3 (reflected, initial value and final XOR all ones). -/
def crc32 (p : Bytes) : Nat := Nat.xor (crcLsb 32 0x04C11DB7 0xFFFFFFFF p) 0xFFFFFFFF

end Sys2Proof
end

