-- ==== Sys2Proof/Machine/Operands.lean ====
section
/-!
DEFINITION. The register space: the addresses of the registers (R37 and the register tables of
every chapter), their access codes (R12), write masks, read-clear masks and reset values, and the
decoding of a BAR0 address (R40 to R44).
-/
namespace Sys2Proof.Machine

/-- Access codes of R12, with the words of a latched pair (R50) and the mirror of a read-clear
register (R51), `of` being the mirrored offset of the same instance (relative when `rel`). -/
inductive Acc where
  | rw | ro | rc | wo | gw | pairLo | pairHi
  | peek (of : Nat)
  | peekBack (by_ : Nat)
  deriving DecidableEq, Repr

/-- A register or a run of `count` registers `stride` bytes apart; `inc` is what the reset value
grows by along the run. -/
structure RegDef where
  off : Nat
  stride : Nat
  count : Nat
  acc : Acc
  wmask : Nat
  rcmask : Nat
  reset : Nat
  inc : Nat := 0
  deriving DecidableEq, Repr

/-- A block's window: decode mask (R42), instances, whether it has a complement region (R44). -/
structure BlockDef where
  mask : Nat
  insts : Nat
  multi : Bool
  guarded : Bool
  regs : List RegDef
  deriving DecidableEq, Repr

namespace Reg
/-! `SYS` (R63). -/
abbrev sysId : Nat := 0x0
abbrev sysIfver : Nat := 0x4
abbrev sysCapFused : Nat := 0x8
abbrev sysCapFusedX : Nat := 0xc
abbrev sysCapLive : Nat := 0x10
abbrev sysCapLiveX : Nat := 0x14
abbrev sysStrap : Nat := 0x18
abbrev sysScratch : Nat := 0x1c
abbrev sysStat : Nat := 0x40
abbrev sysStatPeek : Nat := 0x44
abbrev sysEccCnt : Nat := 0x48
abbrev sysEccAddr : Nat := 0x4c
abbrev sysIrqEn : Nat := 0x80
abbrev sysIrqStat : Nat := 0x84
abbrev sysIrqEoi : Nat := 0x88
abbrev sysSwi : Nat := 0x8c
abbrev sysIrqRoute (i : Nat) : Nat := 0x100 + 0x4 * i
/-! `PWR` (R93). -/
abbrev pwrState : Nat := 0x10000
abbrev pwrReq : Nat := 0x10004
abbrev pwrRst : Nat := 0x10008
abbrev pwrCause : Nat := 0x1000c
abbrev pwrStat : Nat := 0x10010
abbrev pwrStatPeek : Nat := 0x10014
abbrev pwrIrqEn : Nat := 0x10018
abbrev pwrSupply : Nat := 0x1001c
abbrev pwrClk : Nat := 0x10020
abbrev pwrDomain : Nat := 0x10024
abbrev pwrLePwr : Nat := 0x10028
abbrev pwrWakeEn : Nat := 0x1002c
abbrev pwrBoot : Nat := 0x10030
abbrev pwrBist : Nat := 0x10034
/-! `CMD` (R126). -/
abbrev cmdCfg (n : Nat) : Nat := 0x20000 + 0x1000 * n
abbrev cmdCtrl (n : Nat) : Nat := 0x20004 + 0x1000 * n
abbrev cmdState (n : Nat) : Nat := 0x20008 + 0x1000 * n
abbrev cmdStat (n : Nat) : Nat := 0x2000c + 0x1000 * n
abbrev cmdStatPeek (n : Nat) : Nat := 0x20010 + 0x1000 * n
abbrev cmdIrqEn (n : Nat) : Nat := 0x20014 + 0x1000 * n
abbrev cmdCqCoal (n : Nat) : Nat := 0x20018 + 0x1000 * n
abbrev cmdDepTmo (n : Nat) : Nat := 0x2001c + 0x1000 * n
abbrev cmdSqBaseLo (n : Nat) : Nat := 0x20020 + 0x1000 * n
abbrev cmdSqBaseHi (n : Nat) : Nat := 0x20024 + 0x1000 * n
abbrev cmdCqBaseLo (n : Nat) : Nat := 0x20028 + 0x1000 * n
abbrev cmdCqBaseHi (n : Nat) : Nat := 0x2002c + 0x1000 * n
abbrev cmdSqTail (n : Nat) : Nat := 0x20030 + 0x1000 * n
abbrev cmdSqHead (n : Nat) : Nat := 0x20034 + 0x1000 * n
abbrev cmdCqTail (n : Nat) : Nat := 0x20038 + 0x1000 * n
abbrev cmdCqHead (n : Nat) : Nat := 0x2003c + 0x1000 * n
abbrev cmdNextSeq (n : Nat) : Nat := 0x20040 + 0x1000 * n
abbrev cmdAcceptedSeq (n : Nat) : Nat := 0x20044 + 0x1000 * n
abbrev cmdRetiredSeq (n : Nat) : Nat := 0x20048 + 0x1000 * n
abbrev cmdBaseSeq (n : Nat) : Nat := 0x2004c + 0x1000 * n
abbrev cmdDiscFirst (n : Nat) : Nat := 0x20050 + 0x1000 * n
abbrev cmdDiscLast (n : Nat) : Nat := 0x20054 + 0x1000 * n
abbrev cmdBadSeq (n : Nat) : Nat := 0x20058 + 0x1000 * n
abbrev cmdInflight (n : Nat) : Nat := 0x2005c + 0x1000 * n
/-! `PTR` (R127). -/
abbrev ptrCfg : Nat := 0x30000
abbrev ptrStat : Nat := 0x30004
abbrev ptrStatPeek : Nat := 0x30008
abbrev ptrIrqEn : Nat := 0x3000c
abbrev ptrEntries : Nat := 0x30010
abbrev ptrReady01 : Nat := 0x30014
abbrev ptrReady23 : Nat := 0x30018
abbrev ptrParked : Nat := 0x3001c
abbrev ptrCore : Nat := 0x30020
abbrev ptrDispatchCnt : Nat := 0x30024
abbrev ptrPeak : Nat := 0x30028
abbrev ptrMaxlat : Nat := 0x3002c
abbrev ptrTick : Nat := 0x30030
/-! `TMU` (R486). -/
abbrev tmuCtrl : Nat := 0x40000
abbrev tmuState : Nat := 0x40004
abbrev tmuStat : Nat := 0x40008
abbrev tmuStatPeek : Nat := 0x4000c
abbrev tmuIrqEn : Nat := 0x40010
abbrev tmuPeriod : Nat := 0x40014
abbrev tmuGuard : Nat := 0x40018
abbrev tmuPtpCfg : Nat := 0x4001c
abbrev tmuServo : Nat := 0x40020
abbrev tmuThr : Nat := 0x40024
abbrev tmuRate : Nat := 0x40028
abbrev tmuRateTrim : Nat := 0x4002c
abbrev tmuOffset : Nat := 0x40030
abbrev tmuPathDly : Nat := 0x40034
abbrev tmuNowNs : Nat := 0x40038
abbrev tmuNowSecLo : Nat := 0x4003c
abbrev tmuNowSecHi : Nat := 0x40040
abbrev tmuNowFrac : Nat := 0x40044
abbrev tmuNowPerLo : Nat := 0x40048
abbrev tmuNowPerHi : Nat := 0x4004c
abbrev tmuAlarmSecLo : Nat := 0x40050
abbrev tmuAlarmSecHi : Nat := 0x40054
abbrev tmuAlarmNs : Nat := 0x40058
abbrev tmuPtpAddrLo : Nat := 0x4005c
abbrev tmuPtpAddrHi : Nat := 0x40060
abbrev tmuGmIdLo : Nat := 0x40064
abbrev tmuGmIdHi : Nat := 0x40068
abbrev tmuUtcOfs : Nat := 0x4006c
abbrev tmuSmpOfs (i : Nat) : Nat := 0x40080 + 0x4 * i
/-! `ETH` (R487). -/
abbrev ethCfg (n : Nat) : Nat := 0x50000 + 0x1000 * n
abbrev ethStat (n : Nat) : Nat := 0x50004 + 0x1000 * n
abbrev ethStatPeek (n : Nat) : Nat := 0x50008 + 0x1000 * n
abbrev ethIrqEn (n : Nat) : Nat := 0x5000c + 0x1000 * n
abbrev ethLink (n : Nat) : Nat := 0x50010 + 0x1000 * n
abbrev ethMacLo (n : Nat) : Nat := 0x50014 + 0x1000 * n
abbrev ethMacHi (n : Nat) : Nat := 0x50018 + 0x1000 * n
abbrev ethPhyDly (n : Nat) : Nat := 0x5001c + 0x1000 * n
abbrev ethLateTol (n : Nat) : Nat := 0x50020 + 0x1000 * n
abbrev ethTxFrames (n : Nat) : Nat := 0x50024 + 0x1000 * n
abbrev ethRxFrames (n : Nat) : Nat := 0x50028 + 0x1000 * n
abbrev ethRxErr (n : Nat) : Nat := 0x5002c + 0x1000 * n
abbrev ethRxDrop (n : Nat) : Nat := 0x50030 + 0x1000 * n
abbrev ethLateCnt (n : Nat) : Nat := 0x50034 + 0x1000 * n
abbrev ethTxTsNs (n : Nat) : Nat := 0x50038 + 0x1000 * n
abbrev ethTxTsSec (n : Nat) : Nat := 0x5003c + 0x1000 * n
/-! `CAN` (R488). -/
abbrev canCfg (n : Nat) : Nat := 0x60000 + 0x1000 * n
abbrev canCtrl (n : Nat) : Nat := 0x60004 + 0x1000 * n
abbrev canState (n : Nat) : Nat := 0x60008 + 0x1000 * n
abbrev canStat (n : Nat) : Nat := 0x6000c + 0x1000 * n
abbrev canStatPeek (n : Nat) : Nat := 0x60010 + 0x1000 * n
abbrev canIrqEn (n : Nat) : Nat := 0x60014 + 0x1000 * n
abbrev canNode (n : Nat) : Nat := 0x60018 + 0x1000 * n
abbrev canNbt (n : Nat) : Nat := 0x6001c + 0x1000 * n
abbrev canDbt (n : Nat) : Nat := 0x60020 + 0x1000 * n
abbrev canErr (n : Nat) : Nat := 0x60024 + 0x1000 * n
abbrev canRxOwn (n : Nat) : Nat := 0x60028 + 0x1000 * n
abbrev canRxRet (n : Nat) : Nat := 0x6002c + 0x1000 * n
abbrev canRxLost (n : Nat) : Nat := 0x60030 + 0x1000 * n
abbrev canTxReq (n : Nat) : Nat := 0x60034 + 0x1000 * n
abbrev canTxAbort (n : Nat) : Nat := 0x60038 + 0x1000 * n
abbrev canDetect (n : Nat) : Nat := 0x6003c + 0x1000 * n
abbrev canFiltId (n : Nat) (i : Nat) : Nat := 0x60040 + 0x1000 * n + 0x8 * i
abbrev canFiltMask (n : Nat) (i : Nat) : Nat := 0x60044 + 0x1000 * n + 0x8 * i
abbrev canDetNbt (n : Nat) (i : Nat) : Nat := 0x600c0 + 0x1000 * n + 0x8 * i
abbrev canDetDbt (n : Nat) (i : Nat) : Nat := 0x600c4 + 0x1000 * n + 0x8 * i
abbrev canRxe (n : Nat) (i : Nat) : Nat := 0x60200 + 0x1000 * n + 0x4 * i
abbrev canTxe (n : Nat) (i : Nat) : Nat := 0x60c00 + 0x1000 * n + 0x4 * i
/-! `DMA` (R515). -/
abbrev dmaStat : Nat := 0x70000
abbrev dmaStatPeek : Nat := 0x70004
abbrev dmaIrqEn : Nat := 0x70008
abbrev dmaActive : Nat := 0x7000c
abbrev dmaLoad : Nat := 0x70010
abbrev dmaBadCnt : Nat := 0x70014
abbrev dmaChCfg (i : Nat) : Nat := 0x70100 + 0x20 * i
abbrev dmaChCfgb (i : Nat) : Nat := 0x70300 + 0x20 * i
abbrev dmaChCtrl (i : Nat) : Nat := 0x70104 + 0x20 * i
abbrev dmaChState (i : Nat) : Nat := 0x70108 + 0x20 * i
abbrev dmaChStat (i : Nat) : Nat := 0x7010c + 0x20 * i
abbrev dmaChPeek (i : Nat) : Nat := 0x70110 + 0x20 * i
abbrev dmaChHeadLo (i : Nat) : Nat := 0x70114 + 0x20 * i
abbrev dmaChHeadHi (i : Nat) : Nat := 0x70118 + 0x20 * i
abbrev dmaChCurLo (i : Nat) : Nat := 0x7011c + 0x20 * i
abbrev dmaCurHi (i : Nat) : Nat := 0x70500 + 0x4 * i
/-! `TTB` (R172). -/
abbrev ttbCfg (n : Nat) : Nat := 0x80000 + 0x1000 * n
abbrev ttbStat (n : Nat) : Nat := 0x80004 + 0x1000 * n
abbrev ttbStatPeek (n : Nat) : Nat := 0x80008 + 0x1000 * n
abbrev ttbIrqEn (n : Nat) : Nat := 0x8000c + 0x1000 * n
abbrev ttbState (n : Nat) : Nat := 0x80010 + 0x1000 * n
abbrev ttbSpare (n : Nat) : Nat := 0x80014 + 0x1000 * n
abbrev ttbLastDone (n : Nat) : Nat := 0x80018 + 0x1000 * n
abbrev ttbMaxDone (n : Nat) : Nat := 0x8001c + 0x1000 * n
abbrev ttbDropIn (n : Nat) : Nat := 0x80020 + 0x1000 * n
abbrev ttbDropLate (n : Nat) : Nat := 0x80024 + 0x1000 * n
abbrev ttbDropPred (n : Nat) : Nat := 0x80028 + 0x1000 * n
abbrev ttbLastDrop (n : Nat) : Nat := 0x8002c + 0x1000 * n
abbrev ttbBuildErr (n : Nat) : Nat := 0x80030 + 0x1000 * n
abbrev ttbBgUsed (n : Nat) : Nat := 0x80034 + 0x1000 * n
/-! `LE` (R198). -/
abbrev leCfg (n : Nat) : Nat := 0x90000 + 0x1000 * n
abbrev leStat (n : Nat) : Nat := 0x90004 + 0x1000 * n
abbrev leStatPeek (n : Nat) : Nat := 0x90008 + 0x1000 * n
abbrev leIrqEn (n : Nat) : Nat := 0x9000c + 0x1000 * n
abbrev leState (n : Nat) : Nat := 0x90010 + 0x1000 * n
abbrev leBusyCyc (n : Nat) : Nat := 0x90014 + 0x1000 * n
abbrev lePreemptCnt (n : Nat) : Nat := 0x90018 + 0x1000 * n
abbrev leWq (n : Nat) : Nat := 0x9001c + 0x1000 * n
abbrev leKmem (n : Nat) : Nat := 0x90020 + 0x1000 * n
abbrev leLastKernel (n : Nat) : Nat := 0x90024 + 0x1000 * n
/-! `AXS` (R61). -/
abbrev axsRec (i : Nat) : Nat := 0xa0000 + 0x4 * i
/-! `PWM` (R357). -/
abbrev pwmStat : Nat := 0xb0000
abbrev pwmStatPeek : Nat := 0xb0004
abbrev pwmIrqEn : Nat := 0xb0008
abbrev pwmArm : Nat := 0xb000c
abbrev pwmTripCfg : Nat := 0xb0010
abbrev pwmTripClr : Nat := 0xb0014
abbrev pwmTripLevel : Nat := 0xb0018
abbrev pwmChCfg (i : Nat) : Nat := 0xb0400 + 0x20 * i
abbrev pwmChPer (i : Nat) : Nat := 0xb0404 + 0x20 * i
abbrev pwmChCmp (i : Nat) : Nat := 0xb0408 + 0x20 * i
abbrev pwmChDtr (i : Nat) : Nat := 0xb040c + 0x20 * i
abbrev pwmChDtf (i : Nat) : Nat := 0xb0410 + 0x20 * i
abbrev pwmChActCmp (i : Nat) : Nat := 0xb0414 + 0x20 * i
abbrev pwmChXfer (i : Nat) : Nat := 0xb0418 + 0x20 * i
abbrev pwmChState (i : Nat) : Nat := 0xb041c + 0x20 * i
/-! `FBK` (R252). -/
abbrev fbkStat : Nat := 0xc0000
abbrev fbkStatPeek : Nat := 0xc0004
abbrev fbkIrqEn : Nat := 0xc0008
abbrev fbkChCfg (i : Nat) : Nat := 0xc0100 + 0x40 * i
abbrev fbkChCnt (i : Nat) : Nat := 0xc0104 + 0x40 * i
abbrev fbkChPosHi (i : Nat) : Nat := 0xc0108 + 0x40 * i
abbrev fbkChIdxCnt (i : Nat) : Nat := 0xc010c + 0x40 * i
abbrev fbkChIdxN (i : Nat) : Nat := 0xc0110 + 0x40 * i
abbrev fbkChDirHyst (i : Nat) : Nat := 0xc0114 + 0x40 * i
abbrev fbkChCstat (i : Nat) : Nat := 0xc0118 + 0x40 * i
abbrev fbkChLineDly (i : Nat) : Nat := 0xc011c + 0x40 * i
abbrev fbkChLineMax (i : Nat) : Nat := 0xc0120 + 0x40 * i
abbrev fbkChErrCnt (i : Nat) : Nat := 0xc0124 + 0x40 * i
abbrev fbkMtCfg (i : Nat) : Nat := 0xc0500 + 0x10 * i
abbrev fbkMtCount (i : Nat) : Nat := 0xc0504 + 0x10 * i
abbrev fbkMtMstat (i : Nat) : Nat := 0xc0508 + 0x10 * i
abbrev fbkMtCtrl (i : Nat) : Nat := 0xc050c + 0x10 * i
/-! `STP` (R358). -/
abbrev stpStat : Nat := 0xd0000
abbrev stpStatPeek : Nat := 0xd0004
abbrev stpIrqEn : Nat := 0xd0008
abbrev stpChCfg (i : Nat) : Nat := 0xd0100 + 0x10 * i
abbrev stpChCount (i : Nat) : Nat := 0xd0104 + 0x10 * i
abbrev stpChLag (i : Nat) : Nat := 0xd0108 + 0x10 * i
abbrev stpChLevel (i : Nat) : Nat := 0xd010c + 0x10 * i
/-! `LAT` (R332). -/
abbrev latCfg : Nat := 0xe0000
abbrev latStat : Nat := 0xe0004
abbrev latStatPeek : Nat := 0xe0008
abbrev latIrqEn : Nat := 0xe000c
abbrev latLevel : Nat := 0xe0010
abbrev latChCfg (i : Nat) : Nat := 0xe0100 + 0x10 * i
abbrev latChFill (i : Nat) : Nat := 0xe0104 + 0x10 * i
abbrev latChLost (i : Nat) : Nat := 0xe0108 + 0x10 * i
abbrev latChEdges (i : Nat) : Nat := 0xe010c + 0x10 * i
/-! `EMU` (R254). -/
abbrev emuStat : Nat := 0xf0000
abbrev emuStatPeek : Nat := 0xf0004
abbrev emuIrqEn : Nat := 0xf0008
abbrev emuArm : Nat := 0xf000c
abbrev emuChCfg (i : Nat) : Nat := 0xf0100 + 0x20 * i
abbrev emuChNum (i : Nat) : Nat := 0xf0104 + 0x20 * i
abbrev emuChDen (i : Nat) : Nat := 0xf0108 + 0x20 * i
abbrev emuChZper (i : Nat) : Nat := 0xf010c + 0x20 * i
abbrev emuChZofs (i : Nat) : Nat := 0xf0110 + 0x20 * i
abbrev emuChCount (i : Nat) : Nat := 0xf0114 + 0x20 * i
abbrev emuChLag (i : Nat) : Nat := 0xf0118 + 0x20 * i
/-! `VLK` (R385). -/
abbrev vlkCfg (n : Nat) : Nat := 0x100000 + 0x1000 * n
abbrev vlkCtrl (n : Nat) : Nat := 0x100004 + 0x1000 * n
abbrev vlkState (n : Nat) : Nat := 0x100008 + 0x1000 * n
abbrev vlkStat (n : Nat) : Nat := 0x10000c + 0x1000 * n
abbrev vlkStatPeek (n : Nat) : Nat := 0x100010 + 0x1000 * n
abbrev vlkIrqEn (n : Nat) : Nat := 0x100014 + 0x1000 * n
abbrev vlkBudget (n : Nat) : Nat := 0x100018 + 0x1000 * n
abbrev vlkApply (n : Nat) : Nat := 0x10001c + 0x1000 * n
abbrev vlkRetLast (n : Nat) : Nat := 0x100020 + 0x1000 * n
abbrev vlkRetMax (n : Nat) : Nat := 0x100024 + 0x1000 * n
abbrev vlkLateCnt (n : Nat) : Nat := 0x100028 + 0x1000 * n
abbrev vlkSegErr (n : Nat) : Nat := 0x10002c + 0x1000 * n
abbrev vlkLoopStn (n : Nat) : Nat := 0x100030 + 0x1000 * n
abbrev vlkLostMap (n : Nat) : Nat := 0x100034 + 0x1000 * n
abbrev vlkCable (n : Nat) : Nat := 0x100038 + 0x1000 * n
abbrev vlkStnId (n : Nat) (i : Nat) : Nat := 0x100100 + 0x1000 * n + 0x8 * i
abbrev vlkStnInfo (n : Nat) (i : Nat) : Nat := 0x100104 + 0x1000 * n + 0x8 * i
/-! `PAIR` (R416). -/
abbrev pairCfg : Nat := 0x110000
abbrev pairCtrl : Nat := 0x110004
abbrev pairState : Nat := 0x110008
abbrev pairStat : Nat := 0x11000c
abbrev pairStatPeek : Nat := 0x110010
abbrev pairIrqEn : Nat := 0x110014
abbrev pairLink : Nat := 0x110018
abbrev pairTimeOfs : Nat := 0x11001c
abbrev pairDiffCnt : Nat := 0x110020
abbrev pairLastDiff : Nat := 0x110024
abbrev pairAdoptCnt : Nat := 0x110028
abbrev pairResync : Nat := 0x11002c
abbrev pairPartner : Nat := 0x110030
abbrev pairLside (i : Nat) : Nat := 0x110040 + 0x4 * i
/-! `CHN` (R333). -/
abbrev chnCfg : Nat := 0x120000
abbrev chnStat : Nat := 0x120004
abbrev chnStatPeek : Nat := 0x120008
abbrev chnIrqEn : Nat := 0x12000c
abbrev chnLink : Nat := 0x120010
abbrev chnShCfg (i : Nat) : Nat := 0x120100 + 0x20 * i
abbrev chnShState (i : Nat) : Nat := 0x120104 + 0x20 * i
abbrev chnShArrival (i : Nat) : Nat := 0x120108 + 0x20 * i
abbrev chnShMisses (i : Nat) : Nat := 0x12010c + 0x20 * i
/-! `SAFE` (R446). -/
abbrev safeId : Nat := 0x130000
abbrev safeState : Nat := 0x130004
abbrev safeStat : Nat := 0x130008
abbrev safeStatPeek : Nat := 0x13000c
abbrev safeIrqEn : Nat := 0x130010
abbrev safeCheck : Nat := 0x130014
abbrev safeOutputs : Nat := 0x130018
abbrev safeInputs : Nat := 0x13001c
abbrev safeHoldLo : Nat := 0x130020
abbrev safeHoldHi : Nat := 0x130024
abbrev safeViol : Nat := 0x130028
abbrev safeFbfault : Nat := 0x13002c
abbrev safeConn : Nat := 0x130030
abbrev safeConnErr : Nat := 0x130034
abbrev safeBist : Nat := 0x130038
abbrev safeWinSel : Nat := 0x13003c
abbrev safeAuth : Nat := 0x130040
abbrev safeCfgWin (i : Nat) : Nat := 0x130400 + 0x4 * i
/-! `FIO` (R457). -/
abbrev fioState : Nat := 0x140000
abbrev fioStat : Nat := 0x140004
abbrev fioStatPeek : Nat := 0x140008
abbrev fioIrqEn : Nat := 0x14000c
abbrev fioRearm : Nat := 0x140010
abbrev fioIn : Nat := 0x140014
abbrev fioOutCmd : Nat := 0x140018
abbrev fioOutRb : Nat := 0x14001c
abbrev fioInType : Nat := 0x140020
abbrev fioWakeRise : Nat := 0x140024
abbrev fioWakeFall : Nat := 0x140028
abbrev fioLplus : Nat := 0x14002c
abbrev fioLink : Nat := 0x140030
abbrev fioFilt (i : Nat) : Nat := 0x140040 + 0x4 * i
/-! `ACQ` (R516). -/
abbrev acqState : Nat := 0x150000
abbrev acqStat : Nat := 0x150004
abbrev acqStatPeek : Nat := 0x150008
abbrev acqIrqEn : Nat := 0x15000c
abbrev acqWr : Nat := 0x150010
abbrev acqRd : Nat := 0x150014
abbrev acqDecEff : Nat := 0x150018
abbrev acqLost : Nat := 0x15001c
abbrev acqTrigCnt : Nat := 0x150020
abbrev acqSeq : Nat := 0x150024
abbrev acqCtrl : Nat := 0x150028
abbrev acqDrops : Nat := 0x15002c
/-! `MGT` (R537). -/
abbrev mgtId : Nat := 0x160000
abbrev mgtStat : Nat := 0x160004
abbrev mgtStatPeek : Nat := 0x160008
abbrev mgtIrqEn : Nat := 0x16000c
abbrev mgtMon : Nat := 0x160010
abbrev mgtLedger : Nat := 0x160014
abbrev mgtLedgerOld : Nat := 0x160018
abbrev mgtBank : Nat := 0x16001c
abbrev mgtSvn : Nat := 0x160020
abbrev mgtUpd : Nat := 0x160024
abbrev mgtRefresh : Nat := 0x160028
abbrev mgtWdt : Nat := 0x16002c
abbrev mgtSense (i : Nat) : Nat := 0x160040 + 0x4 * i
/-! `ADC` (R253). -/
abbrev adcStat : Nat := 0x170000
abbrev adcStatPeek : Nat := 0x170004
abbrev adcIrqEn : Nat := 0x170008
abbrev adcInCfg (i : Nat) : Nat := 0x170100 + 0x10 * i
abbrev adcInOfs (i : Nat) : Nat := 0x170104 + 0x10 * i
abbrev adcInSample (i : Nat) : Nat := 0x170108 + 0x10 * i
abbrev adcInRun (i : Nat) : Nat := 0x17010c + 0x10 * i
end Reg

/-- `SYS` (spec/02_register_interface.md, R63). -/
def sysBlock : BlockDef := ⟨0x1FC, 1, false, false, [
  ⟨0x0, 0x0, 1, .ro, 0x0, 0x0, 0x7128a1b7, 0⟩,
  ⟨0x4, 0x0, 1, .ro, 0x0, 0x0, 0x10121110, 0⟩,
  ⟨0x8, 0x0, 1, .ro, 0x0, 0x0, 0x3ffffff, 0⟩,
  ⟨0xc, 0x0, 1, .ro, 0x0, 0x0, 0x800fffff, 0⟩,
  ⟨0x10, 0x0, 1, .ro, 0x0, 0x0, 0x3ffffef, 0⟩,
  ⟨0x14, 0x0, 1, .ro, 0x0, 0x0, 0x800fffff, 0⟩,
  ⟨0x18, 0x0, 1, .ro, 0x0, 0x0, 0x0, 0⟩,
  ⟨0x1c, 0x0, 1, .rw, 0xffffffff, 0x0, 0x0, 0⟩,
  ⟨0x40, 0x0, 1, .rc, 0x0, 0xf, 0x0, 0⟩,
  ⟨0x44, 0x0, 1, .peek 0x040, 0x0, 0x0, 0x0, 0⟩,
  ⟨0x48, 0x0, 1, .rc, 0x0, 0xffffffff, 0x0, 0⟩,
  ⟨0x4c, 0x0, 1, .ro, 0x0, 0x0, 0x0, 0⟩,
  ⟨0x80, 0x0, 1, .rw, 0xfffffff, 0x0, 0x0, 0⟩,
  ⟨0x84, 0x0, 1, .ro, 0x0, 0x0, 0x0, 0⟩,
  ⟨0x88, 0x0, 1, .wo, 0x1f, 0x0, 0x0, 0⟩,
  ⟨0x8c, 0x0, 1, .wo, 0x1, 0x0, 0x0, 0⟩,
  ⟨0x100, 0x4, 28, .rw, 0x333f, 0x0, 0x1000, 1⟩]⟩

/-- `PWR` (spec/03_power_clocks_straps_startup.md, R93). -/
def pwrBlock : BlockDef := ⟨0x8FC, 1, false, true, [
  ⟨0x0, 0x0, 1, .ro, 0x0, 0x0, 0x5, 0⟩,
  ⟨0x4, 0x0, 1, .gw, 0x3, 0x0, 0x0, 0⟩,
  ⟨0x8, 0x0, 1, .gw, 0x1, 0x0, 0x0, 0⟩,
  ⟨0xc, 0x0, 1, .ro, 0x0, 0x0, 0x1, 0⟩,
  ⟨0x10, 0x0, 1, .rc, 0x0, 0xff, 0x0, 0⟩,
  ⟨0x14, 0x0, 1, .peek 0x010, 0x0, 0x0, 0x0, 0⟩,
  ⟨0x18, 0x0, 1, .rw, 0xff, 0x0, 0x0, 0⟩,
  ⟨0x1c, 0x0, 1, .ro, 0x0, 0x0, 0x7f, 0⟩,
  ⟨0x20, 0x0, 1, .ro, 0x0, 0x0, 0x3, 0⟩,
  ⟨0x24, 0x0, 1, .ro, 0x0, 0x0, 0x3, 0⟩,
  ⟨0x28, 0x0, 1, .ro, 0x0, 0x0, 0x0, 0⟩,
  ⟨0x2c, 0x0, 1, .rw, 0x3f, 0x0, 0x0, 0⟩,
  ⟨0x30, 0x0, 1, .ro, 0x0, 0x0, 0x0, 0⟩,
  ⟨0x34, 0x0, 1, .ro, 0x0, 0x0, 0xff, 0⟩]⟩

/-- `CMD` (spec/04_host_sessions.md, R126). -/
def cmdBlock : BlockDef := ⟨0x8FC, 4, true, true, [
  ⟨0x0, 0x0, 1, .rw, 0x1ff01ff, 0x0, 0x1000062, 0⟩,
  ⟨0x4, 0x0, 1, .gw, 0xffff03, 0x0, 0x0, 0⟩,
  ⟨0x8, 0x0, 1, .ro, 0x0, 0x0, 0x0, 0⟩,
  ⟨0xc, 0x0, 1, .rc, 0x0, 0xff, 0x0, 0⟩,
  ⟨0x10, 0x0, 1, .peek 0x00C, 0x0, 0x0, 0x0, 0⟩,
  ⟨0x14, 0x0, 1, .rw, 0xff, 0x0, 0x0, 0⟩,
  ⟨0x18, 0x0, 1, .rw, 0xffff01ff, 0x0, 0x1, 0⟩,
  ⟨0x1c, 0x0, 1, .rw, 0xffff, 0x0, 0x64, 0⟩,
  ⟨0x20, 0x0, 1, .pairLo, 0xffffffff, 0x0, 0x0, 0⟩,
  ⟨0x24, 0x0, 1, .pairHi, 0xffffffff, 0x0, 0x0, 0⟩,
  ⟨0x28, 0x0, 1, .pairLo, 0xffffffff, 0x0, 0x0, 0⟩,
  ⟨0x2c, 0x0, 1, .pairHi, 0xffffffff, 0x0, 0x0, 0⟩,
  ⟨0x30, 0x0, 1, .rw, 0xffffffff, 0x0, 0x0, 0⟩,
  ⟨0x34, 0x0, 1, .ro, 0x0, 0x0, 0x0, 0⟩,
  ⟨0x38, 0x0, 1, .ro, 0x0, 0x0, 0x0, 0⟩,
  ⟨0x3c, 0x0, 1, .rw, 0xffffffff, 0x0, 0x0, 0⟩,
  ⟨0x40, 0x0, 1, .ro, 0x0, 0x0, 0x0, 0⟩,
  ⟨0x44, 0x0, 1, .ro, 0x0, 0x0, 0x0, 0⟩,
  ⟨0x48, 0x0, 1, .ro, 0x0, 0x0, 0x0, 0⟩,
  ⟨0x4c, 0x0, 1, .rw, 0xffffffff, 0x0, 0x0, 0⟩,
  ⟨0x50, 0x0, 1, .ro, 0x0, 0x0, 0x0, 0⟩,
  ⟨0x54, 0x0, 1, .ro, 0x0, 0x0, 0x0, 0⟩,
  ⟨0x58, 0x0, 1, .ro, 0x0, 0x0, 0x0, 0⟩,
  ⟨0x5c, 0x0, 1, .ro, 0x0, 0x0, 0x0, 0⟩]⟩

/-- `PTR` (spec/04_host_sessions.md, R127). -/
def ptrBlock : BlockDef := ⟨0x0FC, 1, false, false, [
  ⟨0x0, 0x0, 1, .rw, 0x1f, 0x0, 0x10, 0⟩,
  ⟨0x4, 0x0, 1, .rc, 0x0, 0x7, 0x0, 0⟩,
  ⟨0x8, 0x0, 1, .peek 0x004, 0x0, 0x0, 0x0, 0⟩,
  ⟨0xc, 0x0, 1, .rw, 0x7, 0x0, 0x0, 0⟩,
  ⟨0x10, 0x0, 1, .ro, 0x0, 0x0, 0x0, 0⟩,
  ⟨0x14, 0x0, 1, .ro, 0x0, 0x0, 0x0, 0⟩,
  ⟨0x18, 0x0, 1, .ro, 0x0, 0x0, 0x0, 0⟩,
  ⟨0x1c, 0x0, 1, .ro, 0x0, 0x0, 0x0, 0⟩,
  ⟨0x20, 0x0, 1, .ro, 0x0, 0x0, 0x0, 0⟩,
  ⟨0x24, 0x0, 1, .rc, 0x0, 0xffffffff, 0x0, 0⟩,
  ⟨0x28, 0x0, 1, .rc, 0x0, 0xfff0fff, 0x0, 0⟩,
  ⟨0x2c, 0x0, 1, .rc, 0x0, 0xffff, 0x0, 0⟩,
  ⟨0x30, 0x0, 1, .ro, 0x0, 0x0, 0x0, 0⟩]⟩

/-- `TMU` (spec/18_network_time_can.md, R486). -/
def tmuBlock : BlockDef := ⟨0x8FC, 1, false, true, [
  ⟨0x0, 0x0, 1, .gw, 0x3, 0x0, 0x0, 0⟩,
  ⟨0x4, 0x0, 1, .ro, 0x0, 0x0, 0x0, 0⟩,
  ⟨0x8, 0x0, 1, .rc, 0x0, 0x3f, 0x0, 0⟩,
  ⟨0xc, 0x0, 1, .peek 0x008, 0x0, 0x0, 0x0, 0⟩,
  ⟨0x10, 0x0, 1, .rw, 0x3f, 0x0, 0x0, 0⟩,
  ⟨0x14, 0x0, 1, .ro, 0x0, 0x0, 0xfa, 0⟩,
  ⟨0x18, 0x0, 1, .rw, 0xffff, 0x0, 0x1f4, 0⟩,
  ⟨0x1c, 0x0, 1, .rw, 0xfffff0f, 0x0, 0x30d0000, 0⟩,
  ⟨0x20, 0x0, 1, .rw, 0xffffffff, 0x0, 0x64010100, 0⟩,
  ⟨0x24, 0x0, 1, .rw, 0xffffffff, 0x0, 0x6403e8, 0⟩,
  ⟨0x28, 0x0, 1, .ro, 0x0, 0x0, 0x0, 0⟩,
  ⟨0x2c, 0x0, 1, .rw, 0xffffffff, 0x0, 0x0, 0⟩,
  ⟨0x30, 0x0, 1, .ro, 0x0, 0x0, 0x0, 0⟩,
  ⟨0x34, 0x0, 1, .ro, 0x0, 0x0, 0x0, 0⟩,
  ⟨0x38, 0x0, 1, .ro, 0x0, 0x0, 0x0, 0⟩,
  ⟨0x3c, 0x0, 1, .ro, 0x0, 0x0, 0x0, 0⟩,
  ⟨0x40, 0x0, 1, .ro, 0x0, 0x0, 0x0, 0⟩,
  ⟨0x44, 0x0, 1, .ro, 0x0, 0x0, 0x0, 0⟩,
  ⟨0x48, 0x0, 1, .ro, 0x0, 0x0, 0x0, 0⟩,
  ⟨0x4c, 0x0, 1, .ro, 0x0, 0x0, 0x0, 0⟩,
  ⟨0x50, 0x0, 1, .rw, 0xffffffff, 0x0, 0x0, 0⟩,
  ⟨0x54, 0x0, 1, .rw, 0x8000ffff, 0x0, 0x0, 0⟩,
  ⟨0x58, 0x0, 1, .rw, 0xffffffff, 0x0, 0x0, 0⟩,
  ⟨0x5c, 0x0, 1, .rw, 0xffffffff, 0x0, 0x0, 0⟩,
  ⟨0x60, 0x0, 1, .rw, 0xffff, 0x0, 0x0, 0⟩,
  ⟨0x64, 0x0, 1, .ro, 0x0, 0x0, 0x0, 0⟩,
  ⟨0x68, 0x0, 1, .ro, 0x0, 0x0, 0x0, 0⟩,
  ⟨0x6c, 0x0, 1, .ro, 0x0, 0x0, 0x0, 0⟩,
  ⟨0x80, 0x4, 9, .rw, 0xffff, 0x0, 0x0, 0⟩]⟩

/-- `ETH` (spec/18_network_time_can.md, R487). -/
def ethBlock : BlockDef := ⟨0x0FC, 2, true, false, [
  ⟨0x0, 0x0, 1, .rw, 0x1f, 0x0, 0x10, 0⟩,
  ⟨0x4, 0x0, 1, .rc, 0x0, 0x1f, 0x0, 0⟩,
  ⟨0x8, 0x0, 1, .peek 0x004, 0x0, 0x0, 0x0, 0⟩,
  ⟨0xc, 0x0, 1, .rw, 0x1f, 0x0, 0x0, 0⟩,
  ⟨0x10, 0x0, 1, .ro, 0x0, 0x0, 0x0, 0⟩,
  ⟨0x14, 0x0, 1, .rw, 0xffffffff, 0x0, 0x0, 0⟩,
  ⟨0x18, 0x0, 1, .rw, 0xffff, 0x0, 0x0, 0⟩,
  ⟨0x1c, 0x0, 1, .rw, 0xffffffff, 0x0, 0x0, 0⟩,
  ⟨0x20, 0x0, 1, .rw, 0xffff, 0x0, 0x1f4, 0⟩,
  ⟨0x24, 0x0, 1, .rc, 0x0, 0xffffffff, 0x0, 0⟩,
  ⟨0x28, 0x0, 1, .rc, 0x0, 0xffffffff, 0x0, 0⟩,
  ⟨0x2c, 0x0, 1, .rc, 0x0, 0xffffffff, 0x0, 0⟩,
  ⟨0x30, 0x0, 1, .rc, 0x0, 0xffffffff, 0x0, 0⟩,
  ⟨0x34, 0x0, 1, .rc, 0x0, 0xffffffff, 0x0, 0⟩,
  ⟨0x38, 0x0, 1, .ro, 0x0, 0x0, 0x0, 0⟩,
  ⟨0x3c, 0x0, 1, .ro, 0x0, 0x0, 0x0, 0⟩]⟩

/-- `CAN` (spec/18_network_time_can.md, R488). -/
def canBlock : BlockDef := ⟨0xFFC, 4, true, false, [
  ⟨0x0, 0x0, 1, .rw, 0xff3f, 0x0, 0x8, 0⟩,
  ⟨0x4, 0x0, 1, .wo, 0x3, 0x0, 0x0, 0⟩,
  ⟨0x8, 0x0, 1, .ro, 0x0, 0x0, 0x0, 0⟩,
  ⟨0xc, 0x0, 1, .rc, 0x0, 0x7f, 0x0, 0⟩,
  ⟨0x10, 0x0, 1, .peek 0x00C, 0x0, 0x0, 0x0, 0⟩,
  ⟨0x14, 0x0, 1, .rw, 0x7f, 0x0, 0x0, 0⟩,
  ⟨0x18, 0x0, 1, .rw, 0xff, 0x0, 0x0, 0⟩,
  ⟨0x1c, 0x0, 1, .rw, 0x3fffffff, 0x0, 0x8103f02, 0⟩,
  ⟨0x20, 0x0, 1, .rw, 0x7ffffff, 0x0, 0xa143a1, 0⟩,
  ⟨0x24, 0x0, 1, .ro, 0x0, 0x0, 0x0, 0⟩,
  ⟨0x28, 0x0, 1, .ro, 0x0, 0x0, 0x0, 0⟩,
  ⟨0x2c, 0x0, 1, .wo, 0xffffffff, 0x0, 0x0, 0⟩,
  ⟨0x30, 0x0, 1, .rc, 0x0, 0xffff, 0x0, 0⟩,
  ⟨0x34, 0x0, 1, .rw, 0xff, 0x0, 0x0, 0⟩,
  ⟨0x38, 0x0, 1, .wo, 0xff, 0x0, 0x0, 0⟩,
  ⟨0x3c, 0x0, 1, .ro, 0x0, 0x0, 0x0, 0⟩,
  ⟨0x40, 0x8, 16, .rw, 0xffffffff, 0x0, 0x0, 0⟩,
  ⟨0x44, 0x8, 16, .rw, 0x1fffffff, 0x0, 0x0, 0⟩,
  ⟨0xc0, 0x8, 4, .rw, 0xffffffff, 0x0, 0x0, 0⟩,
  ⟨0xc4, 0x8, 4, .rw, 0xffffffff, 0x0, 0x0, 0⟩,
  ⟨0x200, 0x4, 640, .ro, 0x0, 0x0, 0x0, 0⟩,
  ⟨0xc00, 0x4, 160, .rw, 0xffffffff, 0x0, 0x0, 0⟩]⟩

/-- `DMA` (spec/19_dma_acquisition.md, R515). -/
def dmaBlock : BlockDef := ⟨0x7FC, 1, false, false, [
  ⟨0x0, 0x0, 1, .rc, 0x0, 0xffffffff, 0x0, 0⟩,
  ⟨0x4, 0x0, 1, .peek 0x000, 0x0, 0x0, 0x0, 0⟩,
  ⟨0x8, 0x0, 1, .rw, 0xffffffff, 0x0, 0x0, 0⟩,
  ⟨0xc, 0x0, 1, .ro, 0x0, 0x0, 0x0, 0⟩,
  ⟨0x10, 0x0, 1, .ro, 0x0, 0x0, 0x0, 0⟩,
  ⟨0x14, 0x0, 1, .rc, 0x0, 0xffffffff, 0x0, 0⟩,
  ⟨0x100, 0x20, 16, .rw, 0xffff0007, 0x0, 0x10000002, 0⟩,
  ⟨0x300, 0x20, 16, .rw, 0xffff0007, 0x0, 0x2, 0⟩,
  ⟨0x104, 0x20, 32, .wo, 0x7, 0x0, 0x0, 0⟩,
  ⟨0x108, 0x20, 32, .ro, 0x0, 0x0, 0x0, 0⟩,
  ⟨0x10c, 0x20, 32, .rc, 0x0, 0x3f, 0x0, 0⟩,
  ⟨0x110, 0x20, 32, .peekBack 4, 0x0, 0x0, 0x0, 0⟩,
  ⟨0x114, 0x20, 32, .pairLo, 0xffffffff, 0x0, 0x0, 0⟩,
  ⟨0x118, 0x20, 32, .pairHi, 0xffffffff, 0x0, 0x0, 0⟩,
  ⟨0x11c, 0x20, 32, .ro, 0x0, 0x0, 0x0, 0⟩,
  ⟨0x500, 0x4, 32, .ro, 0x0, 0x0, 0x0, 0⟩]⟩

/-- `TTB` (spec/06_timetable.md, R172). -/
def ttbBlock : BlockDef := ⟨0x0FC, 16, true, false, [
  ⟨0x0, 0x0, 1, .rw, 0xff, 0x0, 0x5, 0⟩,
  ⟨0x4, 0x0, 1, .rc, 0x0, 0x1f, 0x0, 0⟩,
  ⟨0x8, 0x0, 1, .peek 0x004, 0x0, 0x0, 0x0, 0⟩,
  ⟨0xc, 0x0, 1, .rw, 0x1f, 0x0, 0x0, 0⟩,
  ⟨0x10, 0x0, 1, .ro, 0x0, 0x0, 0x4, 0⟩,
  ⟨0x14, 0x0, 1, .ro, 0x0, 0x0, 0x0, 0⟩,
  ⟨0x18, 0x0, 1, .ro, 0x0, 0x0, 0x0, 0⟩,
  ⟨0x1c, 0x0, 1, .rc, 0x0, 0xfffff, 0x0, 0⟩,
  ⟨0x20, 0x0, 1, .rc, 0x0, 0xffffffff, 0x0, 0⟩,
  ⟨0x24, 0x0, 1, .rc, 0x0, 0xffffffff, 0x0, 0⟩,
  ⟨0x28, 0x0, 1, .rc, 0x0, 0xffffffff, 0x0, 0⟩,
  ⟨0x2c, 0x0, 1, .ro, 0x0, 0x0, 0x0, 0⟩,
  ⟨0x30, 0x0, 1, .ro, 0x0, 0x0, 0x1ff, 0⟩,
  ⟨0x34, 0x0, 1, .ro, 0x0, 0x0, 0x0, 0⟩]⟩

/-- `LE` (spec/07_loop_engines.md, R198). -/
def leBlock : BlockDef := ⟨0x03C, 16, true, false, [
  ⟨0x0, 0x0, 1, .rw, 0x1, 0x0, 0x1, 0⟩,
  ⟨0x4, 0x0, 1, .rc, 0x0, 0x1f, 0x0, 0⟩,
  ⟨0x8, 0x0, 1, .peek 0x004, 0x0, 0x0, 0x0, 0⟩,
  ⟨0xc, 0x0, 1, .rw, 0x1f, 0x0, 0x0, 0⟩,
  ⟨0x10, 0x0, 1, .ro, 0x0, 0x0, 0x1ff0, 0⟩,
  ⟨0x14, 0x0, 1, .ro, 0x0, 0x0, 0x0, 0⟩,
  ⟨0x18, 0x0, 1, .rc, 0x0, 0xffff, 0x0, 0⟩,
  ⟨0x1c, 0x0, 1, .ro, 0x0, 0x0, 0x0, 0⟩,
  ⟨0x20, 0x0, 1, .ro, 0x0, 0x0, 0x7f0, 0⟩,
  ⟨0x24, 0x0, 1, .ro, 0x0, 0x0, 0x1ff0000, 0⟩]⟩

/-- `AXS` (spec/02_register_interface.md, R61). -/
def axsBlock : BlockDef := ⟨0x1FFC, 1, false, false, [
  ⟨0x0, 0x4, 2048, .ro, 0x0, 0x0, 0x0, 0⟩]⟩

/-- `PWM` (spec/13_pwm_steppers.md, R357). -/
def pwmBlock : BlockDef := ⟨0x7FC, 1, false, false, [
  ⟨0x0, 0x0, 1, .rc, 0x0, 0xf7, 0x0, 0⟩,
  ⟨0x4, 0x0, 1, .peek 0x000, 0x0, 0x0, 0x0, 0⟩,
  ⟨0x8, 0x0, 1, .rw, 0xff, 0x0, 0x0, 0⟩,
  ⟨0xc, 0x0, 1, .wo, 0xffffffff, 0x0, 0x0, 0⟩,
  ⟨0x10, 0x0, 1, .rw, 0xff, 0x0, 0x0, 0⟩,
  ⟨0x14, 0x0, 1, .wo, 0xf, 0x0, 0x0, 0⟩,
  ⟨0x18, 0x0, 1, .ro, 0x0, 0x0, 0x0, 0⟩,
  ⟨0x400, 0x20, 32, .rw, 0xffff0f7f, 0x0, 0x4a, 0⟩,
  ⟨0x404, 0x20, 32, .rw, 0xfffff, 0x0, 0xfa0, 0⟩,
  ⟨0x408, 0x20, 32, .rw, 0x1ffffff, 0x0, 0x0, 0⟩,
  ⟨0x40c, 0x20, 32, .rw, 0xffff, 0x0, 0x500, 0⟩,
  ⟨0x410, 0x20, 32, .rw, 0xffff, 0x0, 0x500, 0⟩,
  ⟨0x414, 0x20, 32, .ro, 0x0, 0x0, 0x0, 0⟩,
  ⟨0x418, 0x20, 32, .ro, 0x0, 0x0, 0x0, 0⟩,
  ⟨0x41c, 0x20, 32, .ro, 0x0, 0x0, 0x0, 0⟩]⟩

/-- `FBK` (spec/09_feedback.md, R252). -/
def fbkBlock : BlockDef := ⟨0x7FC, 1, false, false, [
  ⟨0x0, 0x0, 1, .rc, 0x0, 0xffffffff, 0x0, 0⟩,
  ⟨0x4, 0x0, 1, .peek 0x000, 0x0, 0x0, 0x0, 0⟩,
  ⟨0x8, 0x0, 1, .rw, 0xffffffff, 0x0, 0x0, 0⟩,
  ⟨0x100, 0x40, 16, .rw, 0xffffff, 0x0, 0x5a68c0, 0⟩,
  ⟨0x104, 0x40, 16, .ro, 0x0, 0x0, 0x0, 0⟩,
  ⟨0x108, 0x40, 16, .ro, 0x0, 0x0, 0x0, 0⟩,
  ⟨0x10c, 0x40, 16, .ro, 0x0, 0x0, 0x0, 0⟩,
  ⟨0x110, 0x40, 16, .ro, 0x0, 0x0, 0x0, 0⟩,
  ⟨0x114, 0x40, 16, .rw, 0xffff, 0x0, 0x4, 0⟩,
  ⟨0x118, 0x40, 16, .ro, 0x0, 0x0, 0x0, 0⟩,
  ⟨0x11c, 0x40, 16, .ro, 0x0, 0x0, 0x0, 0⟩,
  ⟨0x120, 0x40, 16, .rw, 0x3ff, 0x0, 0x64, 0⟩,
  ⟨0x124, 0x40, 16, .ro, 0x0, 0x0, 0x0, 0⟩,
  ⟨0x500, 0x10, 8, .rw, 0x1f, 0x0, 0x4, 0⟩,
  ⟨0x504, 0x10, 8, .ro, 0x0, 0x0, 0x0, 0⟩,
  ⟨0x508, 0x10, 8, .ro, 0x0, 0x0, 0x0, 0⟩,
  ⟨0x50c, 0x10, 8, .wo, 0x3, 0x0, 0x0, 0⟩]⟩

/-- `STP` (spec/13_pwm_steppers.md, R358). -/
def stpBlock : BlockDef := ⟨0x1FC, 1, false, false, [
  ⟨0x0, 0x0, 1, .rc, 0x0, 0xffffffff, 0x0, 0⟩,
  ⟨0x4, 0x0, 1, .peek 0x000, 0x0, 0x0, 0x0, 0⟩,
  ⟨0x8, 0x0, 1, .rw, 0xffffffff, 0x0, 0x0, 0⟩,
  ⟨0x100, 0x10, 16, .rw, 0xffff07, 0x0, 0x191900, 0⟩,
  ⟨0x104, 0x10, 16, .ro, 0x0, 0x0, 0x0, 0⟩,
  ⟨0x108, 0x10, 16, .ro, 0x0, 0x0, 0x0, 0⟩,
  ⟨0x10c, 0x10, 16, .ro, 0x0, 0x0, 0x0, 0⟩]⟩

/-- `LAT` (spec/12_gearing_cams_latching.md, R332). -/
def latBlock : BlockDef := ⟨0x3FC, 1, false, false, [
  ⟨0x0, 0x0, 1, .rw, 0xff, 0x0, 0x3, 0⟩,
  ⟨0x4, 0x0, 1, .rc, 0x0, 0xffffffff, 0x0, 0⟩,
  ⟨0x8, 0x0, 1, .peek 0x004, 0x0, 0x0, 0x0, 0⟩,
  ⟨0xc, 0x0, 1, .rw, 0xffffffff, 0x0, 0x0, 0⟩,
  ⟨0x10, 0x0, 1, .ro, 0x0, 0x0, 0x0, 0⟩,
  ⟨0x100, 0x10, 32, .rw, 0x1ff, 0x0, 0x0, 0⟩,
  ⟨0x104, 0x10, 32, .ro, 0x0, 0x0, 0x0, 0⟩,
  ⟨0x108, 0x10, 32, .rc, 0x0, 0xffffffff, 0x0, 0⟩,
  ⟨0x10c, 0x10, 32, .ro, 0x0, 0x0, 0x0, 0⟩]⟩

/-- `EMU` (spec/09_feedback.md, R254). -/
def emuBlock : BlockDef := ⟨0x1FC, 1, false, false, [
  ⟨0x0, 0x0, 1, .rc, 0x0, 0xff, 0x0, 0⟩,
  ⟨0x4, 0x0, 1, .peek 0x000, 0x0, 0x0, 0x0, 0⟩,
  ⟨0x8, 0x0, 1, .rw, 0xff, 0x0, 0x0, 0⟩,
  ⟨0xc, 0x0, 1, .wo, 0xff, 0x0, 0x0, 0⟩,
  ⟨0x100, 0x20, 8, .rw, 0xff07ff, 0x0, 0x0, 0⟩,
  ⟨0x104, 0x20, 8, .rw, 0xffffffff, 0x0, 0x0, 0⟩,
  ⟨0x108, 0x20, 8, .rw, 0xffffffff, 0x0, 0x1, 0⟩,
  ⟨0x10c, 0x20, 8, .rw, 0xffffffff, 0x0, 0x0, 0⟩,
  ⟨0x110, 0x20, 8, .rw, 0xffffffff, 0x0, 0x0, 0⟩,
  ⟨0x114, 0x20, 8, .ro, 0x0, 0x0, 0x0, 0⟩,
  ⟨0x118, 0x20, 8, .ro, 0x0, 0x0, 0x0, 0⟩]⟩

/-- `VLK` (spec/14_viham_link.md, R385). -/
def vlkBlock : BlockDef := ⟨0x9FC, 8, true, true, [
  ⟨0x0, 0x0, 1, .rw, 0xffffff, 0x0, 0x3c0201, 0⟩,
  ⟨0x4, 0x0, 1, .gw, 0x3, 0x0, 0x0, 0⟩,
  ⟨0x8, 0x0, 1, .ro, 0x0, 0x0, 0x0, 0⟩,
  ⟨0xc, 0x0, 1, .rc, 0x0, 0x7ff, 0x0, 0⟩,
  ⟨0x10, 0x0, 1, .peek 0x00C, 0x0, 0x0, 0x0, 0⟩,
  ⟨0x14, 0x0, 1, .rw, 0x7ff, 0x0, 0x0, 0⟩,
  ⟨0x18, 0x0, 1, .ro, 0x0, 0x0, 0x0, 0⟩,
  ⟨0x1c, 0x0, 1, .rw, 0xffff, 0x0, 0x0, 0⟩,
  ⟨0x20, 0x0, 1, .ro, 0x0, 0x0, 0xffff, 0⟩,
  ⟨0x24, 0x0, 1, .rc, 0x0, 0xffff, 0x0, 0⟩,
  ⟨0x28, 0x0, 1, .rc, 0x0, 0xffffffff, 0x0, 0⟩,
  ⟨0x2c, 0x0, 1, .rc, 0x0, 0xffffffff, 0x0, 0⟩,
  ⟨0x30, 0x0, 1, .ro, 0x0, 0x0, 0x0, 0⟩,
  ⟨0x34, 0x0, 1, .ro, 0x0, 0x0, 0x0, 0⟩,
  ⟨0x38, 0x0, 1, .ro, 0x0, 0x0, 0x0, 0⟩,
  ⟨0x100, 0x8, 32, .ro, 0x0, 0x0, 0x0, 0⟩,
  ⟨0x104, 0x8, 32, .ro, 0x0, 0x0, 0x0, 0⟩]⟩

/-- `PAIR` (spec/15_redundant_pair.md, R416). -/
def pairBlock : BlockDef := ⟨0x8FC, 1, false, true, [
  ⟨0x0, 0x0, 1, .rw, 0x1fffff0c, 0x0, 0x100a1004, 0⟩,
  ⟨0x4, 0x0, 1, .gw, 0x3, 0x0, 0x0, 0⟩,
  ⟨0x8, 0x0, 1, .ro, 0x0, 0x0, 0x0, 0⟩,
  ⟨0xc, 0x0, 1, .rc, 0x0, 0x7ff, 0x0, 0⟩,
  ⟨0x10, 0x0, 1, .peek 0x00C, 0x0, 0x0, 0x0, 0⟩,
  ⟨0x14, 0x0, 1, .rw, 0x7ff, 0x0, 0x0, 0⟩,
  ⟨0x18, 0x0, 1, .ro, 0x0, 0x0, 0x0, 0⟩,
  ⟨0x1c, 0x0, 1, .ro, 0x0, 0x0, 0x0, 0⟩,
  ⟨0x20, 0x0, 1, .rc, 0x0, 0xffffffff, 0x0, 0⟩,
  ⟨0x24, 0x0, 1, .ro, 0x0, 0x0, 0x0, 0⟩,
  ⟨0x28, 0x0, 1, .rc, 0x0, 0xffffffff, 0x0, 0⟩,
  ⟨0x2c, 0x0, 1, .ro, 0x0, 0x0, 0x0, 0⟩,
  ⟨0x30, 0x0, 1, .ro, 0x0, 0x0, 0x0, 0⟩,
  ⟨0x40, 0x4, 4, .rw, 0xffffffff, 0x0, 0x0, 0⟩]⟩

/-- `CHN` (spec/12_gearing_cams_latching.md, R333). -/
def chnBlock : BlockDef := ⟨0x1FC, 1, false, false, [
  ⟨0x0, 0x0, 1, .ro, 0x0, 0x0, 0x0, 0⟩,
  ⟨0x4, 0x0, 1, .rc, 0x0, 0x7ff, 0x0, 0⟩,
  ⟨0x8, 0x0, 1, .peek 0x004, 0x0, 0x0, 0x0, 0⟩,
  ⟨0xc, 0x0, 1, .rw, 0x7ff, 0x0, 0x0, 0⟩,
  ⟨0x10, 0x0, 1, .ro, 0x0, 0x0, 0x0, 0⟩,
  ⟨0x100, 0x20, 4, .ro, 0x0, 0x0, 0x0, 0⟩,
  ⟨0x104, 0x20, 4, .ro, 0x0, 0x0, 0x0, 0⟩,
  ⟨0x108, 0x20, 4, .ro, 0x0, 0x0, 0x0, 0⟩,
  ⟨0x10c, 0x20, 4, .rc, 0x0, 0xffff, 0x0, 0⟩]⟩

/-- `SAFE` (spec/16_safety.md, R446). -/
def safeBlock : BlockDef := ⟨0x7FC, 1, false, false, [
  ⟨0x0, 0x0, 1, .ro, 0x0, 0x0, 0x101, 0⟩,
  ⟨0x4, 0x0, 1, .ro, 0x0, 0x0, 0x0, 0⟩,
  ⟨0x8, 0x0, 1, .rc, 0x0, 0x1ff, 0x0, 0⟩,
  ⟨0xc, 0x0, 1, .peek 0x008, 0x0, 0x0, 0x0, 0⟩,
  ⟨0x10, 0x0, 1, .rw, 0x1ff, 0x0, 0x0, 0⟩,
  ⟨0x14, 0x0, 1, .ro, 0x0, 0x0, 0x0, 0⟩,
  ⟨0x18, 0x0, 1, .ro, 0x0, 0x0, 0x0, 0⟩,
  ⟨0x1c, 0x0, 1, .ro, 0x0, 0x0, 0x0, 0⟩,
  ⟨0x20, 0x0, 1, .ro, 0x0, 0x0, 0x0, 0⟩,
  ⟨0x24, 0x0, 1, .ro, 0x0, 0x0, 0x0, 0⟩,
  ⟨0x28, 0x0, 1, .ro, 0x0, 0x0, 0x0, 0⟩,
  ⟨0x2c, 0x0, 1, .ro, 0x0, 0x0, 0x0, 0⟩,
  ⟨0x30, 0x0, 1, .ro, 0x0, 0x0, 0x0, 0⟩,
  ⟨0x34, 0x0, 1, .rc, 0x0, 0xffffff, 0x0, 0⟩,
  ⟨0x38, 0x0, 1, .ro, 0x0, 0x0, 0x0, 0⟩,
  ⟨0x3c, 0x0, 1, .rw, 0x1, 0x0, 0x0, 0⟩,
  ⟨0x40, 0x0, 1, .ro, 0x0, 0x0, 0x0, 0⟩,
  ⟨0x400, 0x4, 256, .ro, 0x0, 0x0, 0x0, 0⟩]⟩

/-- `FIO` (spec/17_field_io.md, R457). -/
def fioBlock : BlockDef := ⟨0x8FC, 1, false, true, [
  ⟨0x0, 0x0, 1, .ro, 0x0, 0x0, 0x4, 0⟩,
  ⟨0x4, 0x0, 1, .rc, 0x0, 0x3f, 0x0, 0⟩,
  ⟨0x8, 0x0, 1, .peek 0x004, 0x0, 0x0, 0x0, 0⟩,
  ⟨0xc, 0x0, 1, .rw, 0x3f, 0x0, 0x0, 0⟩,
  ⟨0x10, 0x0, 1, .gw, 0x1, 0x0, 0x0, 0⟩,
  ⟨0x14, 0x0, 1, .ro, 0x0, 0x0, 0x0, 0⟩,
  ⟨0x18, 0x0, 1, .rw, 0xffff, 0x0, 0x0, 0⟩,
  ⟨0x1c, 0x0, 1, .ro, 0x0, 0x0, 0x0, 0⟩,
  ⟨0x20, 0x0, 1, .rw, 0xf, 0x0, 0xf, 0⟩,
  ⟨0x24, 0x0, 1, .rw, 0xffffffff, 0x0, 0x0, 0⟩,
  ⟨0x28, 0x0, 1, .rw, 0xffffffff, 0x0, 0x0, 0⟩,
  ⟨0x2c, 0x0, 1, .ro, 0x0, 0x0, 0x0, 0⟩,
  ⟨0x30, 0x0, 1, .ro, 0x0, 0x0, 0x0, 0⟩,
  ⟨0x40, 0x4, 32, .rw, 0xff, 0x0, 0x1e, 0⟩]⟩

/-- `ACQ` (spec/19_dma_acquisition.md, R516). -/
def acqBlock : BlockDef := ⟨0x0FC, 1, false, false, [
  ⟨0x0, 0x0, 1, .ro, 0x0, 0x0, 0x0, 0⟩,
  ⟨0x4, 0x0, 1, .rc, 0x0, 0x3f, 0x0, 0⟩,
  ⟨0x8, 0x0, 1, .peek 0x004, 0x0, 0x0, 0x0, 0⟩,
  ⟨0xc, 0x0, 1, .rw, 0x3f, 0x0, 0x0, 0⟩,
  ⟨0x10, 0x0, 1, .ro, 0x0, 0x0, 0x0, 0⟩,
  ⟨0x14, 0x0, 1, .rw, 0xffffffff, 0x0, 0x0, 0⟩,
  ⟨0x18, 0x0, 1, .ro, 0x0, 0x0, 0x0, 0⟩,
  ⟨0x1c, 0x0, 1, .rc, 0x0, 0xffffffff, 0x0, 0⟩,
  ⟨0x20, 0x0, 1, .rc, 0x0, 0xffffffff, 0x0, 0⟩,
  ⟨0x24, 0x0, 1, .ro, 0x0, 0x0, 0x0, 0⟩,
  ⟨0x28, 0x0, 1, .wo, 0x1, 0x0, 0x0, 0⟩,
  ⟨0x2c, 0x0, 1, .rc, 0x0, 0xffffffff, 0x0, 0⟩]⟩

/-- `MGT` (spec/20_innkeeper.md, R537). -/
def mgtBlock : BlockDef := ⟨0x0FC, 1, false, false, [
  ⟨0x0, 0x0, 1, .ro, 0x0, 0x0, 0x0, 0⟩,
  ⟨0x4, 0x0, 1, .rc, 0x0, 0x7f, 0x0, 0⟩,
  ⟨0x8, 0x0, 1, .peek 0x004, 0x0, 0x0, 0x0, 0⟩,
  ⟨0xc, 0x0, 1, .rw, 0x7f, 0x0, 0x0, 0⟩,
  ⟨0x10, 0x0, 1, .ro, 0x0, 0x0, 0x0, 0⟩,
  ⟨0x14, 0x0, 1, .ro, 0x0, 0x0, 0x0, 0⟩,
  ⟨0x18, 0x0, 1, .ro, 0x0, 0x0, 0x0, 0⟩,
  ⟨0x1c, 0x0, 1, .ro, 0x0, 0x0, 0x0, 0⟩,
  ⟨0x20, 0x0, 1, .ro, 0x0, 0x0, 0x0, 0⟩,
  ⟨0x24, 0x0, 1, .ro, 0x0, 0x0, 0x0, 0⟩,
  ⟨0x28, 0x0, 1, .ro, 0x0, 0x0, 0x0, 0⟩,
  ⟨0x2c, 0x0, 1, .ro, 0x0, 0x0, 0x0, 0⟩,
  ⟨0x40, 0x4, 12, .ro, 0x0, 0x0, 0x0, 0⟩]⟩

/-- `ADC` (spec/09_feedback.md, R253). -/
def adcBlock : BlockDef := ⟨0x3FC, 1, false, false, [
  ⟨0x0, 0x0, 1, .rc, 0x0, 0xffffffff, 0x0, 0⟩,
  ⟨0x4, 0x0, 1, .peek 0x000, 0x0, 0x0, 0x0, 0⟩,
  ⟨0x8, 0x0, 1, .rw, 0xffffffff, 0x0, 0x0, 0⟩,
  ⟨0x100, 0x10, 32, .rw, 0x1f, 0x0, 0x0, 0⟩,
  ⟨0x104, 0x10, 32, .rw, 0xffff, 0x0, 0x0, 0⟩,
  ⟨0x108, 0x10, 32, .ro, 0x0, 0x0, 0x0, 0⟩,
  ⟨0x10c, 0x10, 32, .ro, 0x0, 0x0, 0x0, 0⟩]⟩

/-- The windows 0x00 to 0x17 of R37, in order. -/
def blockOf : Nat → Option BlockDef
  | 0 => some sysBlock
  | 1 => some pwrBlock
  | 2 => some cmdBlock
  | 3 => some ptrBlock
  | 4 => some tmuBlock
  | 5 => some ethBlock
  | 6 => some canBlock
  | 7 => some dmaBlock
  | 8 => some ttbBlock
  | 9 => some leBlock
  | 10 => some axsBlock
  | 11 => some pwmBlock
  | 12 => some fbkBlock
  | 13 => some stpBlock
  | 14 => some latBlock
  | 15 => some emuBlock
  | 16 => some vlkBlock
  | 17 => some pairBlock
  | 18 => some chnBlock
  | 19 => some safeBlock
  | 20 => some fioBlock
  | 21 => some acqBlock
  | 22 => some mgtBlock
  | 23 => some adcBlock
  | _ => none

/-- The register run that holds offset `d` of a block. -/
def findReg (d : Nat) : List RegDef → Option RegDef
  | [] => none
  | r :: rest =>
    if r.off ≤ d ∧ (if r.stride = 0 then d = r.off else (d - r.off) % r.stride = 0 ∧ (d - r.off) / r.stride < r.count)
    then some r else findReg d rest

/-- Where an access lands: its window, instance, decoded offset and the register there. -/
structure Place where
  win : Nat
  inst : Nat
  off : Nat
  compl : Bool           -- in the complement region (R44)
  reg : Option RegDef
  deriving DecidableEq, Repr

/-- The address under which `State.regs` holds a place. -/
def Place.addr (p : Place) : Nat := p.win * 0x10000 + p.inst * 0x1000 + p.off

/-- Decode an aligned BAR0 address of a register window (R40 to R44); `none` outside the windows. -/
def decodeAddr (a : Nat) : Option Place :=
  let win := a / 0x10000
  match blockOf win with
  | none => none
  | some b =>
    let lo := a % 0x10000
    if win = 0x0A then
      some ⟨win, 0, lo % 0x2000, false, findReg (lo % 0x2000) b.regs⟩
    else
      let sel := lo / 0x1000
      let inst := if win = 0x10 then sel % 8 else if b.multi then sel else 0
      let d := Nat.land (lo % 0x1000) b.mask
      if b.guarded && decide (0x800 ≤ d) then some ⟨win, inst, d - 0x800, true, none⟩
      else some ⟨win, inst, d, false, findReg d b.regs⟩

/-- The reset value of a register, by the address `State.regs` holds it under. -/
def regReset (a : Nat) : Word :=
  match decodeAddr a with
  | some ⟨_, _, d, _, some r⟩ =>
    BitVec.ofNat 32 (r.reset + r.inc * (if r.stride = 0 then 0 else (d - r.off) / r.stride))
  | _ => 0

/-- The register of an address as it stands. -/
def State.reg (s : State) (a : Nat) : Word := Map.get regReset s.regs a

/-- Write a register as the device does. -/
def State.setReg (s : State) (a : Nat) (v : Word) : State :=
  { s with regs := Map.set regReset s.regs a v }

/-- Set bits of a register (an event in a status register). -/
def State.raise (s : State) (a : Nat) (m : Word) : State := s.setReg a (s.reg a ||| m)

/-- Clear bits of a register. -/
def State.lower (s : State) (a : Nat) (m : Word) : State := s.setReg a (s.reg a &&& ~~~ m)

/-- Set bits [hi:lo] of a register. -/
def State.setField (s : State) (a hi lo v : Nat) : State := s.setReg a (setBits (s.reg a) hi lo v)

/-- Bits [hi:lo] of a register. -/
def State.field (s : State) (a hi lo : Nat) : Nat := bits (s.reg a) hi lo

/-- Put a register back to its reset value. -/
def State.resetReg (s : State) (a : Nat) : State := { s with regs := Map.erase s.regs a }

/-- Add to a counter of bits [hi:lo] that stops at its largest value. -/
def State.countUp (s : State) (a hi lo n : Nat) : State :=
  s.setField a hi lo (min (2 ^ (hi + 1 - lo) - 1) (s.field a hi lo + n))

/-- Write an unsigned 64-bit quantity to a pair of registers. -/
def State.setReg64 (s : State) (lo hi : Nat) (v : Nat) : State :=
  (s.setReg lo (w32 v)).setReg hi (w32 (v / 2 ^ 32))

/-- Read a pair of registers. -/
def State.reg64 (s : State) (lo hi : Nat) : Nat := (s.reg lo).toNat + (s.reg hi).toNat * 2 ^ 32

/-- What goes out, the newest first. -/
def State.emit (s : State) (o : Output) : State := { s with out := o :: s.out }

end Sys2Proof.Machine
end

