-- ==== Sys2Proof/Machine/Flags.lean ====
section
/-!
DEFINITION. Status bits, interrupt lines, MSI-X messages and interrupt balls (R51, R64 to R66).
-/
namespace Sys2Proof.Machine

/-- The next free value of a draw, and the state after it. -/
def State.draw (s : State) : Nat × State := (s.draws, { s with draws := s.draws + 1 })

/-- A status register and its enable register are set together. -/
def State.pending? (s : State) (stat en : Nat) : Bool := (s.reg stat &&& s.reg en) != 0

/-- The level of interrupt source `n` (R64). -/
def State.line (s : State) (n : Nat) : Bool :=
  match n with
  | 0 => s.reg Reg.sysStat != 0
  | 1 => s.pending? Reg.pwrStat Reg.pwrIrqEn
  | 2 => s.pending? (Reg.cmdStat 0) (Reg.cmdIrqEn 0)
  | 3 => s.pending? (Reg.cmdStat 1) (Reg.cmdIrqEn 1)
  | 4 => s.pending? (Reg.cmdStat 2) (Reg.cmdIrqEn 2)
  | 5 => s.pending? (Reg.cmdStat 3) (Reg.cmdIrqEn 3)
  | 6 => s.pending? Reg.ptrStat Reg.ptrIrqEn
  | 7 => s.pending? Reg.tmuStat Reg.tmuIrqEn
  | 8 => s.pending? (Reg.ethStat 0) (Reg.ethIrqEn 0)
  | 9 => s.pending? (Reg.ethStat 1) (Reg.ethIrqEn 1)
  | 10 => (List.range 4).any (fun i => s.pending? (Reg.canStat i) (Reg.canIrqEn i))
  | 11 => s.pending? Reg.dmaStat Reg.dmaIrqEn
  | 12 => (List.range 16).any (fun i => s.pending? (Reg.ttbStat i) (Reg.ttbIrqEn i))
  | 13 => (List.range 16).any (fun i => s.pending? (Reg.leStat i) (Reg.leIrqEn i))
  | 14 => Config.axisLine ((List.range 128).map (fun i => s.reg (Reg.axsRec (16 * i + 1))))
  | 15 => s.pending? Reg.pwmStat Reg.pwmIrqEn
  | 16 => s.pending? Reg.fbkStat Reg.fbkIrqEn
  | 17 => s.pending? Reg.stpStat Reg.stpIrqEn
  | 18 => s.pending? Reg.latStat Reg.latIrqEn
  | 19 => s.pending? Reg.emuStat Reg.emuIrqEn
  | 20 => (List.range 8).any (fun i => s.pending? (Reg.vlkStat i) (Reg.vlkIrqEn i))
  | 21 => s.pending? Reg.pairStat Reg.pairIrqEn
  | 22 => s.pending? Reg.chnStat Reg.chnIrqEn
  | 23 => s.pending? Reg.safeStat Reg.safeIrqEn
  | 24 => s.pending? Reg.fioStat Reg.fioIrqEn
  | 25 => s.pending? Reg.acqStat Reg.acqIrqEn
  | 26 => s.pending? Reg.mgtStat Reg.mgtIrqEn
  | 27 => s.pending? Reg.adcStat Reg.adcIrqEn
  | _ => false

/-- `SYS.IRQ_STAT`: the levels of all lines, enabled or not (R64). -/
def State.irqStat (s : State) : Word :=
  w32 ((List.range 28).foldl (fun v n => v + b2n (s.line n) * 2 ^ n) 0)

/-- Quad-SPI is the host link (`STRAP_HOST`, R79). -/
def State.qspi (s : State) : Bool := s.power.straps.getLsbD 2

/-- What an unlisted byte of the MSI-X table reads as: 0, but for the mask bit of each vector
control word, set after reset. PRESUMED (log 7): the PCI Express Base Specification's reset value. -/
def msixDefault (o : Nat) : Byte := if o % 16 = 12 then 1 else 0

/-- The 32-bit word of the MSI-X table at byte `o`. -/
def State.msixWord (s : State) (o : Nat) : Word :=
  BitVec.ofNat 32 (leNat (Map.getRun msixDefault s.bus.msixTable o 4))

/-- Vector `v` is masked (R65). -/
def State.masked (s : State) (v : Nat) : Bool := bit (s.msixWord (16 * v + 12)) 0

/-- The message of vector `v`. -/
def State.message (s : State) (v : Nat) : Output :=
  .msix v (cat64 (s.msixWord (16 * v + 4)) (s.msixWord (16 * v))) (s.msixWord (16 * v + 8))

/-- Source `n` is asserted, enabled, routed to MSI-X and armed (R65). -/
def State.due (s : State) (n : Nat) : Bool :=
  s.bus.msixArm.getLsbD n && bit (s.reg Reg.sysIrqEn) n && bit (s.reg (Reg.sysIrqRoute n)) 12
    && !s.qspi && s.line n

/-- Set or clear the arm of source `n`. -/
def State.arm (s : State) (n : Nat) (on : Bool) : State :=
  { s with bus := { s.bus with msixArm :=
      if on then s.bus.msixArm ||| BitVec.ofNat 28 (2 ^ n)
      else s.bus.msixArm &&& ~~~ BitVec.ofNat 28 (2 ^ n) } }

/-- Send the message of vector `v`, or set its pending bit while it is masked (R65). -/
def State.signal (s : State) (v : Nat) : State :=
  if s.masked v then
    { s with bus := { s.bus with msixPba := s.bus.msixPba ||| BitVec.ofNat 64 (2 ^ v) } }
  else s.emit (s.message v)

/-- Source `n` sends its message when it is due. -/
def fireSource (s : State) (n : Nat) : State :=
  if s.due n then (s.arm n false).signal (s.field (Reg.sysIrqRoute n) 5 0) else s

/-- A pending vector that is no longer masked sends its message. -/
def firePending (s : State) (v : Nat) : State :=
  if s.bus.msixPba.getLsbD v && !s.masked v then
    { s with bus := { s.bus with msixPba := s.bus.msixPba &&& ~~~ BitVec.ofNat 64 (2 ^ v) } }.emit
      (s.message v)
  else s

/-- After every access and event: pending vectors that were unmasked, then every source that is due, each
in rising order. DESIGN CHOICE (log 46): R65 leaves the order of messages due at the same instant open. -/
def settle (s : State) : State :=
  let s := if s.bus.msixPba = 0 then s else (List.range 64).foldl firePending s
  (List.range 28).foldl fireSource s

/-- Level of ball `HIRQ_0m`: driven low (`true`) while an enabled source is routed to it (R66). -/
def State.hirq (s : State) (m : Nat) : Bool :=
  (List.range 28).any (fun n =>
    bit (s.reg Reg.sysIrqEn) n && bit (s.reg (Reg.sysIrqRoute n)) 13
      && decide (s.field (Reg.sysIrqRoute n) 9 8 = m) && s.line n)

/-- The answer of a meaning: the settled state. -/
def done (s : State) : Host.Outcome State Fault Refusal := .next (settle s)

/-- Set bits of a status register. -/
def State.event (s : State) (stat bitNo : Nat) : State := s.raise stat (bitw bitNo)

/-! ### Units present and powered (R5, R6, R25, R26) -/

/-- Axis slots of the variant (R2). -/
def Part.slots (p : Part) : Nat :=
  match p.variant with | .bx7128 => 128 | .bx7064 => 64 | .bx7032 => 32

/-- Loop engines of the variant (R2). -/
def Part.engines (p : Part) : Nat :=
  match p.variant with | .bx7128 => 16 | .bx7064 => 8 | .bx7032 => 4

/-- Ring ports of the variant (R2). -/
def Part.rings (p : Part) : Nat :=
  match p.variant with | .bx7128 => 8 | .bx7064 => 4 | .bx7032 => 2

/-- Chain ports are fitted (R2, R4). -/
def Part.chains (p : Part) : Bool := p.optP && decide (p.variant ≠ .bx7032)

/-- `SYS.CAP_FUSED` of a part (R6). -/
def Part.capFused (p : Part) : Word :=
  w32 (b2n p.optS + 2 * b2n p.optA + 4 * b2n p.optP + 8 * b2n p.chains + 0x3FFF0
    + (2 ^ p.rings - 1) * 2 ^ 18)

/-- `SYS.CAP_FUSED_X` of a part. -/
def Part.capFusedX (p : Part) : Word := w32 (2 ^ p.engines - 1 + 0xF0000 + p.slots * 2 ^ 24)

/-- The PCIe vendor and device identifiers, the revision and the class code of the endpoint (R94). -/
def pciVendor : BitVec 16 := 0x2B71
def pciClass : BitVec 24 := 0x118000
def Part.pciDevice (p : Part) : BitVec 16 :=
  match p.variant with | .bx7128 => 0x7128 | .bx7064 => 0x7064 | .bx7032 => 0x7032
def pciRevision : BitVec 8 := 0xA1

/-- `SYS.ID` of a part: variant, revision A1, family code (R8, R63). -/
def Part.id (p : Part) : Word :=
  w32 (p.pciDevice.toNat * 0x10000 + pciRevision.toNat * 256 + 0xB7)

/-- The units as provided, before the stages of self-test: `FIO` by its strap, the island by its own test (R6, R85). -/
def State.provided (s : State) : Word :=
  setBit (setBit s.part.capFused 4 (s.power.straps.getLsbD 12)) 0 (s.part.optS && !s.island.testBad)

/-- Bit `n` of `SYS.CAP_LIVE`. -/
def State.cap (s : State) (n : Nat) : Bool := bit (s.reg Reg.sysCapLive) n
/-- Bit `n` of `SYS.CAP_LIVE_X`. -/
def State.capX (s : State) (n : Nat) : Bool := bit (s.reg Reg.sysCapLiveX) n

/-- The device is in READY or RUN, with its fabric powered. -/
def State.up (s : State) : Bool := s.power.mode == .ready || s.power.mode == .run

/-- The fabric is tested and cleared, and the firmware is awaited, loaded or verified (R83, R84). -/
def State.loads (s : State) : Bool :=
  s.power.phase == .hostLoad || (s.power.phase == .secondStage && s.power.imageGiven)

/-- The ring ports are powered and trained: READY, RUN, and from step 4 of the second stage on (R83). -/
def State.ringsOn (s : State) : Bool := s.up || s.power.phase == .ringTrain || s.loads

/-- The shared SRAM is powered and cleared: READY, RUN, and the load of a host image (R77, R84). -/
def State.sramOn (s : State) : Bool := s.up || s.loads

/-- The Timetables execute. -/
def State.running (s : State) : Bool := s.power.mode == .run

/-- The host link serves register accesses: no reset is held and the device is not DORMANT (R87). -/
def State.serves (s : State) : Bool := s.power.mode != .dormant && s.power.phase != .held

/-- Ring port `n` is present. -/
def State.ringThere (s : State) (n : Nat) : Bool := decide (n < s.part.rings) && s.cap (18 + n)
/-- Loop engine `n` is present. -/
def State.engineThere (s : State) (n : Nat) : Bool := decide (n < s.part.engines) && s.capX n

/-- Instance `i` of the block in window `win` answers: it is present and its domain is on (R5, R26,
R87: until the first stage ends only `SYS` and `PWR` answer). -/
def State.answers (s : State) (win i : Nat) : Bool :=
  s.serves &&
  match win with
  | 0x00 => true
  | 0x01 => true
  | w =>
    s.power.phase != .firstStage &&
    match w with
    | 0x02 => s.up && decide (i < 4)
    | 0x03 => s.up
    | 0x04 => true
    | 0x05 => s.up && decide (i < 2) && s.cap (12 + i)
    | 0x06 => s.up && decide (i < 4) && s.cap (14 + i)
    | 0x07 => s.up && s.cap 11
    | 0x08 => s.up && s.engineThere i
    | 0x09 => s.up && s.engineThere i
    | 0x0A => s.up
    | 0x0B => s.up && s.cap 5
    | 0x0C => s.cap 6
    | 0x0D => s.up && s.cap 7
    | 0x0E => s.up && s.cap 8
    | 0x0F => s.up && s.cap 9
    | 0x10 => s.up && s.ringThere i
    | 0x11 => s.up && s.cap 2
    | 0x12 => s.up && s.cap 3
    | 0x13 => s.cap 0
    | 0x14 => s.cap 4
    | 0x15 => s.up && s.cap 1
    | 0x16 => true
    | 0x17 => s.up && s.cap 10
    | _ => false

end Sys2Proof.Machine
end

