-- ==== Sys2Proof/Machine/Access.lean ====
section
/-!
DEFINITION. Reading and writing one entry of each unit's map; an unlisted entry reads as the unit's
reset record.
-/
namespace Sys2Proof.Machine

/-- Entry `n` of `sessions`. -/
def State.ses (s : State) (n : Nat) : Session := Map.get (fun _ => {}) s.sessions n
/-- Write entry `n` of `sessions`. -/
def State.setSes (s : State) (n : Nat) (x : Session) : State :=
  { s with sessions := Map.set (fun _ => {}) s.sessions n x }
/-- Update entry `n` of `sessions`. -/
def State.onSes (s : State) (n : Nat) (g : Session → Session) : State := s.setSes n (g (s.ses n))

/-- Entry `n` of `journal`. -/
def State.jrn (s : State) (n : Nat) : Journal := Map.get (fun _ => {}) s.journal n
/-- Write entry `n` of `journal`. -/
def State.setJrn (s : State) (n : Nat) (x : Journal) : State :=
  { s with journal := Map.set (fun _ => {}) s.journal n x }
/-- Update entry `n` of `journal`. -/
def State.onJrn (s : State) (n : Nat) (g : Journal → Journal) : State := s.setJrn n (g (s.jrn n))

/-- Entry `n` of `axes`. -/
def State.axis (s : State) (n : Nat) : Axis := Map.get (fun _ => {}) s.axes n
/-- Write entry `n` of `axes`. -/
def State.setAxis (s : State) (n : Nat) (x : Axis) : State :=
  { s with axes := Map.set (fun _ => {}) s.axes n x }
/-- Update entry `n` of `axes`. -/
def State.onAxis (s : State) (n : Nat) (g : Axis → Axis) : State := s.setAxis n (g (s.axis n))

/-- Entry `n` of `groups`. -/
def State.group (s : State) (n : Nat) : Group := Map.get (fun _ => {}) s.groups n
/-- Write entry `n` of `groups`. -/
def State.setGroup (s : State) (n : Nat) (x : Group) : State :=
  { s with groups := Map.set (fun _ => {}) s.groups n x }
/-- Update entry `n` of `groups`. -/
def State.onGroup (s : State) (n : Nat) (g : Group → Group) : State := s.setGroup n (g (s.group n))

/-- Entry `n` of `active`. -/
def State.act (s : State) (n : Nat) : StopRec := Map.get (fun _ => {}) s.active n
/-- Write entry `n` of `active`. -/
def State.setAct (s : State) (n : Nat) (x : StopRec) : State :=
  { s with active := Map.set (fun _ => {}) s.active n x }
/-- Update entry `n` of `active`. -/
def State.onAct (s : State) (n : Nat) (g : StopRec → StopRec) : State := s.setAct n (g (s.act n))

/-- Entry `n` of `shadow`. -/
def State.shad (s : State) (n : Nat) : StopRec := Map.get (fun _ => {}) s.shadow n
/-- Write entry `n` of `shadow`. -/
def State.setShad (s : State) (n : Nat) (x : StopRec) : State :=
  { s with shadow := Map.set (fun _ => {}) s.shadow n x }
/-- Update entry `n` of `shadow`. -/
def State.onShad (s : State) (n : Nat) (g : StopRec → StopRec) : State := s.setShad n (g (s.shad n))

/-- Entry `n` of `engines`. -/
def State.eng (s : State) (n : Nat) : Engine := Map.get (fun _ => {}) s.engines n
/-- Write entry `n` of `engines`. -/
def State.setEng (s : State) (n : Nat) (x : Engine) : State :=
  { s with engines := Map.set (fun _ => {}) s.engines n x }
/-- Update entry `n` of `engines`. -/
def State.onEng (s : State) (n : Nat) (g : Engine → Engine) : State := s.setEng n (g (s.eng n))

/-- Entry `n` of `blocks`. -/
def State.blk (s : State) (n : Nat) : Block := Map.get (fun _ => {}) s.blocks n
/-- Write entry `n` of `blocks`. -/
def State.setBlk (s : State) (n : Nat) (x : Block) : State :=
  { s with blocks := Map.set (fun _ => {}) s.blocks n x }
/-- Update entry `n` of `blocks`. -/
def State.onBlk (s : State) (n : Nat) (g : Block → Block) : State := s.setBlk n (g (s.blk n))

/-- Entry `n` of `shafts`. -/
def State.shaft (s : State) (n : Nat) : Shaft := Map.get (fun _ => {}) s.shafts n
/-- Write entry `n` of `shafts`. -/
def State.setShaft (s : State) (n : Nat) (x : Shaft) : State :=
  { s with shafts := Map.set (fun _ => {}) s.shafts n x }
/-- Update entry `n` of `shafts`. -/
def State.onShaft (s : State) (n : Nat) (g : Shaft → Shaft) : State := s.setShaft n (g (s.shaft n))

/-- Entry `n` of `latches`. -/
def State.latch (s : State) (n : Nat) : Latch := Map.get (fun _ => {}) s.latches n
/-- Write entry `n` of `latches`. -/
def State.setLatch (s : State) (n : Nat) (x : Latch) : State :=
  { s with latches := Map.set (fun _ => {}) s.latches n x }
/-- Update entry `n` of `latches`. -/
def State.onLatch (s : State) (n : Nat) (g : Latch → Latch) : State := s.setLatch n (g (s.latch n))

/-- Entry `n` of `fbk`. -/
def State.fb (s : State) (n : Nat) : FbkCh := Map.get (fun _ => {}) s.fbk n
/-- Write entry `n` of `fbk`. -/
def State.setFb (s : State) (n : Nat) (x : FbkCh) : State :=
  { s with fbk := Map.set (fun _ => {}) s.fbk n x }
/-- Update entry `n` of `fbk`. -/
def State.onFb (s : State) (n : Nat) (g : FbkCh → FbkCh) : State := s.setFb n (g (s.fb n))

/-- Entry `n` of `adc`. -/
def State.ain (s : State) (n : Nat) : AdcIn := Map.get (fun _ => {}) s.adc n
/-- Write entry `n` of `adc`. -/
def State.setAin (s : State) (n : Nat) (x : AdcIn) : State :=
  { s with adc := Map.set (fun _ => {}) s.adc n x }
/-- Update entry `n` of `adc`. -/
def State.onAin (s : State) (n : Nat) (g : AdcIn → AdcIn) : State := s.setAin n (g (s.ain n))

/-- Entry `n` of `emu`. -/
def State.em (s : State) (n : Nat) : Emu := Map.get (fun _ => {}) s.emu n
/-- Write entry `n` of `emu`. -/
def State.setEm (s : State) (n : Nat) (x : Emu) : State :=
  { s with emu := Map.set (fun _ => {}) s.emu n x }
/-- Update entry `n` of `emu`. -/
def State.onEm (s : State) (n : Nat) (g : Emu → Emu) : State := s.setEm n (g (s.em n))

/-- Entry `n` of `pwm`. -/
def State.pw (s : State) (n : Nat) : Pwm := Map.get (fun _ => {}) s.pwm n
/-- Write entry `n` of `pwm`. -/
def State.setPw (s : State) (n : Nat) (x : Pwm) : State :=
  { s with pwm := Map.set (fun _ => {}) s.pwm n x }
/-- Update entry `n` of `pwm`. -/
def State.onPw (s : State) (n : Nat) (g : Pwm → Pwm) : State := s.setPw n (g (s.pw n))

/-- Entry `n` of `steps`. -/
def State.stp (s : State) (n : Nat) : Step := Map.get (fun _ => {}) s.steps n
/-- Write entry `n` of `steps`. -/
def State.setStp (s : State) (n : Nat) (x : Step) : State :=
  { s with steps := Map.set (fun _ => {}) s.steps n x }
/-- Update entry `n` of `steps`. -/
def State.onStp (s : State) (n : Nat) (g : Step → Step) : State := s.setStp n (g (s.stp n))

/-- Entry `n` of `ports`. -/
def State.port (s : State) (n : Nat) : RingPort := Map.get (fun _ => {}) s.ports n
/-- Write entry `n` of `ports`. -/
def State.setPort (s : State) (n : Nat) (x : RingPort) : State :=
  { s with ports := Map.set (fun _ => {}) s.ports n x }
/-- Update entry `n` of `ports`. -/
def State.onPort (s : State) (n : Nat) (g : RingPort → RingPort) : State := s.setPort n (g (s.port n))

/-- Entry `n` of `heads`. -/
def State.head (s : State) (n : Nat) : Head := Map.get (fun _ => {}) s.heads n
/-- Write entry `n` of `heads`. -/
def State.setHead (s : State) (n : Nat) (x : Head) : State :=
  { s with heads := Map.set (fun _ => {}) s.heads n x }
/-- Update entry `n` of `heads`. -/
def State.onHead (s : State) (n : Nat) (g : Head → Head) : State := s.setHead n (g (s.head n))

/-- Entry `n` of `macs`. -/
def State.mac (s : State) (n : Nat) : Mac := Map.get (fun _ => {}) s.macs n
/-- Write entry `n` of `macs`. -/
def State.setMac (s : State) (n : Nat) (x : Mac) : State :=
  { s with macs := Map.set (fun _ => {}) s.macs n x }
/-- Update entry `n` of `macs`. -/
def State.onMac (s : State) (n : Nat) (g : Mac → Mac) : State := s.setMac n (g (s.mac n))

/-- Entry `n` of `cans`. -/
def State.can (s : State) (n : Nat) : CanCtl := Map.get (fun _ => {}) s.cans n
/-- Write entry `n` of `cans`. -/
def State.setCan (s : State) (n : Nat) (x : CanCtl) : State :=
  { s with cans := Map.set (fun _ => {}) s.cans n x }
/-- Update entry `n` of `cans`. -/
def State.onCan (s : State) (n : Nat) (g : CanCtl → CanCtl) : State := s.setCan n (g (s.can n))

/-- Entry `n` of `dma`. -/
def State.dch (s : State) (n : Nat) : DmaCh := Map.get (fun _ => {}) s.dma n
/-- Write entry `n` of `dma`. -/
def State.setDch (s : State) (n : Nat) (x : DmaCh) : State :=
  { s with dma := Map.set (fun _ => {}) s.dma n x }
/-- Update entry `n` of `dma`. -/
def State.onDch (s : State) (n : Nat) (g : DmaCh → DmaCh) : State := s.setDch n (g (s.dch n))

/-- The Innkeeper, the island, the die, the pair, time, power and the bus, updated. -/
def State.onInn (s : State) (g : Innkeeper → Innkeeper) : State := { s with inn := g s.inn }
def State.onIsland (s : State) (g : Island → Island) : State := { s with island := g s.island }
def State.onDie (s : State) (g : FieldDie → FieldDie) : State := { s with die := g s.die }
def State.onPair (s : State) (g : Pair → Pair) : State := { s with pair := g s.pair }
def State.onTmu (s : State) (g : Tmu → Tmu) : State := { s with tmu := g s.tmu }
def State.onPower (s : State) (g : Power → Power) : State := { s with power := g s.power }
def State.onBus (s : State) (g : HostBus → HostBus) : State := { s with bus := g s.bus }
def State.onAcq (s : State) (g : Acq → Acq) : State := { s with acq := g s.acq }
def State.onPorter (s : State) (g : Porter → Porter) : State := { s with porter := g s.porter }

/-- Time passes up to an uptime (DESIGN CHOICE, log 12: an event that the spec puts at the end of a
wait brings time there when less of it was listed; network time moves with the ticks and boundaries). -/
def State.waitTo (s : State) (u : Nat) : State := s.onInn fun i => { i with uptime := max i.uptime u }

/-- The wear account of part `p` on slot `n`. -/
def State.wearOf (s : State) (n p : Nat) : Wear := Map.get (fun _ => {}) s.inn.wear (4 * n + p)
/-- Write a wear account. -/
def State.setWear (s : State) (n p : Nat) (w : Wear) : State :=
  s.onInn fun i => { i with wear := Map.set (fun _ => {}) i.wear (4 * n + p) w }

/-- A byte of an engine's memory window (R39, R194). -/
def State.leByte (s : State) (le o : Nat) : Byte := Map.get (fun _ => 0) s.leMem (le * 0x40000 + o)
/-- Write bytes into an engine's memory window. -/
def State.setLe (s : State) (le o : Nat) (p : Bytes) : State :=
  { s with leMem := Map.setRun (fun _ => 0) s.leMem (le * 0x40000 + o) p }
/-- `n` bytes of an engine's memory window. -/
def State.leRun (s : State) (le o n : Nat) : Bytes := Map.getRun (fun _ => 0) s.leMem (le * 0x40000 + o) n
/-- A 32-bit word of an engine's memory window. -/
def State.leWord (s : State) (le o : Nat) : Word := BitVec.ofNat 32 (leNat (s.leRun le o 4))
/-- Write a 32-bit word of an engine's memory window. -/
def State.setLeWord (s : State) (le o : Nat) (v : Word) : State := s.setLe le o (wordBytes v)

end Sys2Proof.Machine
end

