-- ==== Sys2Proof/Machine/Params.lean ====
section
/-!
DEFINITION. The parameter catalogues (R143 to R146 and the catalogue of each range): widths, ranges,
defaults, and the parameters in force.
-/
namespace Sys2Proof.Machine

/-- A run of `count` parameters of one kind from index `first`: bytes, signedness, range, a value
allowed beside the range, default, and whether it is read-only. -/
structure ParamDef where
  first : Nat
  count : Nat
  bytes : Nat
  signed : Bool
  lo : Int
  hi : Int
  also : Option Int
  dflt : Int
  ro : Bool
  deriving DecidableEq, Repr

/-- Identity and mapping (R151). -/
def params00 : List ParamDef := [
  ⟨0x0000, 1, 4, false, 0, 6, none, 0, false⟩,
  ⟨0x0001, 1, 4, false, 0, 15, none, 0, false⟩,
  ⟨0x0002, 1, 4, false, 0, 3, none, 0, false⟩,
  ⟨0x0003, 1, 4, false, 0, 0xFFFFFFFF, none, 0, false⟩,
  ⟨0x0004, 1, 4, false, 0, 3, none, 0, false⟩,
  ⟨0x0005, 1, 4, false, 0, 7, none, 0, false⟩,
  ⟨0x0006, 1, 4, false, 0, 31, none, 0, false⟩,
  ⟨0x0007, 1, 4, false, 0, 3, none, 0, false⟩,
  ⟨0x0008, 1, 4, false, 0, 31, none, 0, false⟩,
  ⟨0x0009, 1, 4, false, 0, 15, none, 0, false⟩,
  ⟨0x000A, 1, 4, false, 0, 3, none, 0, false⟩,
  ⟨0x000B, 1, 4, false, 0, 15, none, 0, false⟩,
  ⟨0x000C, 1, 4, false, 0, 30, none, 0, false⟩,
  ⟨0x000D, 1, 4, false, 0, 0xffffffff, none, 0, false⟩,
  ⟨0x000E, 1, 4, false, 0, 1, none, 0, false⟩]

/-- Feedback (R250). -/
def params01 : List ParamDef := [
  ⟨0x0100, 1, 4, false, 0, 2, none, 0, false⟩,
  ⟨0x0101, 1, 4, false, 0, 1, none, 0, false⟩,
  ⟨0x0102, 1, 4, false, 8, 62, none, 26, false⟩,
  ⟨0x0103, 1, 4, false, 1, 0x80000000, none, 4096, false⟩,
  ⟨0x0104, 1, 4, false, 8, 12, none, 10, false⟩,
  ⟨0x0105, 1, 4, false, 1, 64, none, 1, false⟩,
  ⟨0x0106, 1, 4, false, 0, 2, none, 0, false⟩,
  ⟨0x0107, 1, 4, false, 1, 255, none, 2, false⟩,
  ⟨0x0108, 1, 4, false, 0, 0x7fffffff, none, 0x4000000, false⟩,
  ⟨0x0109, 1, 4, false, 1, 0x80000000, none, 0x60000000, false⟩,
  ⟨0x010A, 2, 4, true, (-2147483648), 0x7fffffff, none, 0, false⟩,
  ⟨0x010C, 1, 4, true, (-2147483648), 0x7fffffff, none, 0x40000000, false⟩,
  ⟨0x010D, 1, 4, true, (-2147483648), 0x7fffffff, none, 0x40000000, false⟩,
  ⟨0x010E, 1, 4, true, (-2147483648), 0x7fffffff, none, 0, false⟩,
  ⟨0x010F, 1, 4, false, 0, 1, none, 0, false⟩,
  ⟨0x0110, 1, 4, false, 0, 7, none, 0, false⟩,
  ⟨0x0111, 1, 4, false, 0, 0xffff, none, 4, false⟩,
  ⟨0x0112, 1, 4, false, 0, 255, none, 0, false⟩,
  ⟨0x0113, 1, 4, false, 0, 7, (some 255), 255, false⟩,
  ⟨0x0114, 1, 4, false, 0, 0xffffffff, none, 0, false⟩,
  ⟨0x0116, 1, 4, false, 0, 31, (some 255), 255, false⟩,
  ⟨0x0117, 1, 4, true, (-2147483648), 0x7fffffff, none, 0x40000000, false⟩,
  ⟨0x0118, 1, 4, false, 10, 0x4e20, none, 1000, false⟩,
  ⟨0x0120, 1, 4, true, 0, 0, none, 0, true⟩,
  ⟨0x0121, 5, 4, true, 0, 0, none, 0, true⟩]

/-- Current loop (R218). -/
def params02 : List ParamDef := [
  ⟨0x0200, 1, 8, false, 0, 0x1fffffffff, none, 0, false⟩,
  ⟨0x0201, 1, 8, false, 0, 0x1fffffffff, none, 0, false⟩,
  ⟨0x0202, 1, 4, false, 0, 0x7fffffff, none, 0x20000000, false⟩,
  ⟨0x0203, 1, 4, true, (-2147483648), 0x7fffffff, none, 0, false⟩,
  ⟨0x0204, 1, 4, false, 0, 0x7fffffff, none, 0x40000000, false⟩,
  ⟨0x0205, 1, 8, false, 0, 0x1fffffffff, none, 0, false⟩,
  ⟨0x0206, 1, 8, false, 0, 0x1fffffffff, none, 0, false⟩,
  ⟨0x0207, 1, 8, false, 0, 0x1fffffffff, none, 0, false⟩,
  ⟨0x0208, 1, 4, false, 0, 0x4000000, none, 0x1800000, false⟩,
  ⟨0x0209, 1, 4, false, 1, 0xffffffff, none, 0x80000000, false⟩,
  ⟨0x020A, 1, 4, false, 0, 0xffffffff, none, 0, false⟩]

/-- Velocity loop (R219). -/
def params03 : List ParamDef := [
  ⟨0x0300, 1, 8, false, 0, 0x1fffffffff, none, 0, false⟩,
  ⟨0x0301, 1, 4, true, (-2147483648), 0x7fffffff, none, 0x40000000, false⟩,
  ⟨0x0302, 4, 4, true, (-2147483648), 0x7fffffff, none, 0, false⟩,
  ⟨0x0306, 1, 4, true, (-2147483648), 0x7fffffff, none, 0x40000000, false⟩,
  ⟨0x0307, 4, 4, true, (-2147483648), 0x7fffffff, none, 0, false⟩,
  ⟨0x0310, 1, 4, false, 0, 3, none, 0, false⟩,
  ⟨0x0311, 1, 8, false, 0, 0x1fffffffff, none, 0, false⟩,
  ⟨0x0312, 1, 8, false, 0, 0x1fffffffff, none, 0, false⟩]

/-- Position loop (R220). -/
def params04 : List ParamDef := [
  ⟨0x0400, 1, 8, false, 0, 0x1fffffffff, none, 0, false⟩,
  ⟨0x0401, 1, 8, false, 0, 0x1fffffffff, none, 0x1f10000000, false⟩,
  ⟨0x0402, 1, 4, false, 0, 0x7fffffff, none, 0x7fffffff, false⟩,
  ⟨0x0440, 1, 4, false, 0, 2, none, 0, false⟩,
  ⟨0x0441, 1, 4, false, 0, 7, none, 0, false⟩,
  ⟨0x0442, 1, 4, true, (-2147483648), 0x7fffffff, none, 0, false⟩,
  ⟨0x0443, 1, 8, false, 0, 0x1fffffffff, none, 0, false⟩,
  ⟨0x0444, 1, 8, false, 0, 0x1fffffffff, none, 0, false⟩,
  ⟨0x0445, 1, 4, false, 0, 0x7fffffff, none, 0, false⟩]

/-- Gain schedule (R221). -/
def params05 : List ParamDef := [
  ⟨0x0500, 1, 4, false, 0, 7, none, 0, false⟩,
  ⟨0x0501, 1, 4, false, 0, 3, none, 0, false⟩,
  ⟨0x0502, 3, 4, false, 0, 0x7fffffff, none, 0, false⟩,
  ⟨0x0505, 1, 4, false, 0, 29, none, 16, false⟩,
  ⟨0x0506, 1, 4, false, 0, 1, none, 0, false⟩,
  ⟨0x0507, 1, 4, false, 0, 0x7fffffff, none, 0, false⟩,
  ⟨0x0508, 1, 4, false, 0, 29, none, 24, false⟩,
  ⟨0x0510, 40, 4, false, 0, 0xffffffff, none, 0, false⟩]

/-- Profile limits (R277). -/
def params06 : List ParamDef := [
  ⟨0x0600, 1, 4, false, 0, 0x7fffffff, none, 0, false⟩,
  ⟨0x0601, 1, 8, false, 0, 0x7fffffffffffffff, none, 0, false⟩,
  ⟨0x0602, 1, 8, false, 0, 0x7fffffffffffffff, none, 0, false⟩,
  ⟨0x0603, 1, 8, false, 0, 0x7fffffffffffffff, none, 0, false⟩,
  ⟨0x0608, 1, 4, false, 0, 0x7fffffff, none, 0, false⟩,
  ⟨0x0609, 1, 4, false, 1, 8, none, 8, false⟩,
  ⟨0x060A, 1, 8, false, 0, 0x7fffffffffffffff, none, 0, false⟩,
  ⟨0x0610, 4, 8, true, 0, 0, none, 0, true⟩,
  ⟨0x0614, 1, 4, false, 0, 0, none, 0, true⟩]

/-- Homing (R300). -/
def params07 : List ParamDef := [
  ⟨0x0700, 1, 4, false, 0, 1, none, 0, false⟩,
  ⟨0x0701, 1, 4, false, 0, 511, none, 255, false⟩,
  ⟨0x0702, 1, 4, false, 1, 0x7fffffff, none, 0x3e80, false⟩,
  ⟨0x0703, 1, 4, false, 1, 0x7fffffff, none, 1600, false⟩,
  ⟨0x0704, 1, 8, true, (-9223372036854775808), 0x7fffffffffffffff, none, 0, false⟩,
  ⟨0x0705, 1, 8, true, (-9223372036854775808), 0x7fffffffffffffff, none, 0, false⟩,
  ⟨0x0706, 1, 4, false, 0, 1, none, 0, false⟩,
  ⟨0x0707, 1, 4, false, 0, 0xffffffff, none, 0, false⟩,
  ⟨0x0708, 1, 4, false, 1, 255, none, 4, false⟩,
  ⟨0x0709, 1, 4, false, 0, 0xffffffff, none, 0x8000000, false⟩,
  ⟨0x070A, 1, 4, false, 1, 0xffff, none, 100, false⟩,
  ⟨0x0720, 1, 4, false, 0, 0, none, 0, true⟩]

/-- Gearing (R330). -/
def params08 : List ParamDef := [
  ⟨0x0800, 1, 4, false, 0, 1, none, 0, false⟩,
  ⟨0x0801, 1, 4, false, 0, 0xf4240, (some 0xffffffff), 0xffffffff, false⟩,
  ⟨0x0802, 1, 4, false, 0, 0x7fffffff, none, 0, false⟩,
  ⟨0x0803, 1, 8, false, 0, 0x7fffffffffffffff, none, 0, false⟩,
  ⟨0x0804, 1, 8, false, 0, 0x7fffffffffffffff, none, 0, false⟩,
  ⟨0x0805, 1, 8, true, (-9223372036854775808), 0x7fffffffffffffff, none, 0, false⟩,
  ⟨0x0806, 1, 8, true, (-9223372036854775808), 0x7fffffffffffffff, none, 0, false⟩,
  ⟨0x0810, 1, 4, false, 0, 127, none, 0, false⟩,
  ⟨0x0811, 1, 4, false, 0, 1, none, 0, false⟩,
  ⟨0x0812, 1, 8, false, 1, 0x4000000000000000, none, 0x1000000, false⟩,
  ⟨0x0813, 1, 8, true, (-9223372036854775808), 0x7fffffffffffffff, none, 0, false⟩,
  ⟨0x0814, 1, 8, true, (-9223372036854775808), 0x7fffffffffffffff, none, 0, false⟩,
  ⟨0x0815, 1, 8, false, 0, 0x4000000000000000, none, 0, false⟩,
  ⟨0x0816, 1, 4, true, (-2147483648), 0x7fffffff, none, 1, false⟩,
  ⟨0x0817, 1, 4, false, 1, 0xffffffff, none, 1, false⟩,
  ⟨0x0818, 1, 4, false, 0, 0x80000000, none, 0x40000000, false⟩,
  ⟨0x0819, 1, 4, false, 0, 0xffffffff, none, 0, false⟩,
  ⟨0x081A, 1, 4, false, 0, 0x7fffffff, none, 100, false⟩,
  ⟨0x081B, 1, 8, false, 0, 0x4000000000000000, none, 0x4000000000000000, false⟩,
  ⟨0x0820, 3, 8, true, 0, 0, none, 0, true⟩,
  ⟨0x0823, 2, 4, false, 0, 0, none, 0, true⟩,
  ⟨0x0825, 1, 4, false, 0, 7, (some 255), 255, false⟩]

/-- Limits and stopping (R301). -/
def params09 : List ParamDef := [
  ⟨0x0900, 1, 4, false, 0, 511, none, 255, false⟩,
  ⟨0x0901, 1, 4, false, 0, 511, none, 255, false⟩,
  ⟨0x0902, 1, 4, false, 0, 0x2710, none, 1000, false⟩,
  ⟨0x0903, 1, 4, false, 0, 1, none, 0, false⟩,
  ⟨0x0904, 2, 8, true, (-9223372036854775808), 0x7fffffffffffffff, none, 0, false⟩,
  ⟨0x0906, 1, 4, false, 0, 0x7fffffff, none, 0, false⟩,
  ⟨0x0907, 1, 8, false, 0, 0x7fffffffffffffff, none, 0, false⟩,
  ⟨0x0908, 1, 4, false, 0, 1, none, 0, false⟩,
  ⟨0x0909, 1, 4, false, 0, 1, none, 0, false⟩,
  ⟨0x090A, 1, 4, false, 0, 1, none, 0, false⟩]

/-- Stepper (R355). -/
def params0A : List ParamDef := [
  ⟨0x0A00, 1, 4, false, 1, 0x10000, none, 256, false⟩,
  ⟨0x0A01, 2, 4, false, 0, 0x7fffffff, none, 0, false⟩,
  ⟨0x0A03, 1, 4, false, 0, 0xffff, none, 5000, false⟩,
  ⟨0x0A04, 1, 4, false, 0, 1, none, 0, false⟩,
  ⟨0x0A05, 1, 4, false, 1, 0x7fffff, none, 50, false⟩,
  ⟨0x0A06, 1, 4, false, 0, 8, none, 0, false⟩,
  ⟨0x0A07, 1, 4, false, 0, 128, none, 32, false⟩,
  ⟨0x0A08, 1, 4, false, 0, 8, none, 4, false⟩,
  ⟨0x0A09, 1, 4, false, 1, 0xffff, none, 256, false⟩,
  ⟨0x0A10, 1, 4, false, 0, 0, none, 0, true⟩,
  ⟨0x0A11, 1, 8, true, 0, 0, none, 0, true⟩]

/-- Wear (R536). -/
def params0B : List ParamDef := [
  ⟨0x0B00, 1, 4, false, 0, 1, none, 0, false⟩,
  ⟨0x0B01, 1, 4, false, 1, 1440, none, 60, false⟩,
  ⟨0x0B10, 4, 8, false, 0, 0, none, 0, true⟩,
  ⟨0x0B14, 4, 4, false, 0, 0, none, 0, true⟩]

/-- Safety view (R445). -/
def params0C : List ParamDef := [
  ⟨0x0C00, 4, 4, false, 0, 0, none, 0, true⟩,
  ⟨0x0C04, 3, 4, true, 0, 0, none, 0, true⟩,
  ⟨0x0C07, 1, 4, false, 0, 0, none, 0, true⟩]

/-- The catalogue of a range (R146). -/
def paramRange : Nat → List ParamDef
  | 0 => params00
  | 1 => params01
  | 2 => params02
  | 3 => params03
  | 4 => params04
  | 5 => params05
  | 6 => params06
  | 7 => params07
  | 8 => params08
  | 9 => params09
  | 10 => params0A
  | 11 => params0B
  | 12 => params0C
  | _ => []

/-- The catalogue entry of an index; `none` is an index in no catalogue. -/
def paramDef (idx : Nat) : Option ParamDef :=
  (paramRange (idx / 256)).find? (fun d => decide (d.first ≤ idx ∧ idx < d.first + d.count))

/-- The default of a parameter of a slot: `LE_SEL` is the slot divided by 8 (R151). -/
def paramDefault (slot idx : Nat) : BitVec 64 :=
  if idx = 1 then BitVec.ofNat 64 (slot / 8)
  else match paramDef idx with
    | some d => BitVec.ofInt 64 d.dflt
    | none => 0

/-- What unlisted parameters read as. -/
def paramUnlisted (k : Nat) : BitVec 64 := paramDefault (k / 65536) (k % 65536)

/-- A parameter in force, as 64 bits. -/
def State.par (s : State) (slot idx : Nat) : BitVec 64 := Map.get paramUnlisted s.params (slot * 65536 + idx)

/-- Put a parameter in force. -/
def State.setPar (s : State) (slot idx : Nat) (v : BitVec 64) : State :=
  { s with params := Map.set paramUnlisted s.params (slot * 65536 + idx) v }

/-- An unsigned parameter. -/
def State.pn (s : State) (slot idx : Nat) : Nat := (s.par slot idx).toNat

/-- A signed parameter. -/
def State.pi (s : State) (slot idx : Nat) : Int := (s.par slot idx).toInt

/-- A value as the catalogue reads it. -/
def ParamDef.value (d : ParamDef) (v : BitVec 64) : Int := if d.signed then v.toInt else (v.toNat : Int)

/-- The switch sources of R279. -/
def switchOk (v : Nat) : Bool :=
  let src := v % 256
  decide (src ≤ 0x43) || decide (src = 0xFF)

/-- Port `p` is the east end of a closed ring, which names no ring (R360). -/
def State.closedE (s : State) (p : Nat) : Bool := decide (p < 8 ∧ s.field (Reg.vlkCfg p) 3 2 = 2)

/-- A value passes the range of its own entry (R143, R144 step 2); for a 32-bit entry the upper half
is its sign extension or zero, which the range implies. `LE_SEL` and `RING_PORT` end with the
variant, and `RING_PORT` names no east end of a closed ring (R360). -/
def State.valueOk (s : State) (idx : Nat) (d : ParamDef) (v : BitVec 64) : Bool :=
  let x := d.value v
  let hi : Int := if idx = 1 then (s.part.engines : Int) - 1
    else if idx = 5 then (s.part.rings : Int) - 1 else d.hi
  (decide (d.lo ≤ x) && decide (x ≤ hi) || decide (d.also = some x))
    && (decide (idx ≠ 5) || !s.closedE v.toNat)
    && (if idx = 0x701 ∨ idx = 0x900 ∨ idx = 0x901 then switchOk v.toNat else true)

end Sys2Proof.Machine
end

