-- ==== Sys2Proof/Machine/Innkeeper.lean ====
section
/-!
DEFINITION. The Innkeeper (chapter 20): monitors, watchdogs, event ledger, firmware banks, nameplates,
wear accounts and flash care.
-/
namespace Sys2Proof.Machine

/-! ### Event ledger (R521 to R523) -/

/-- Network time is not locked (`TMU.STATE.LOCKED` is 0). -/
def State.unlocked (s : State) : Bool := !bit (s.reg Reg.tmuState) 0

/-- Write an event record into the buffer in retained memory, which keeps the newest 64 (R521, R522). -/
def State.log (s : State) (code sev unit : Nat) (d0 d1 : Word) (restart : Bool := false) : State :=
  let e : Event :=
    { index := s.inn.next, code := code, severity := sev,
      flags := b2n s.unlocked + 2 * b2n restart,
      ns := s.tmu.ns % 10 ^ 9, sec := s.tmu.ns / 10 ^ 9, unit := unit, data0 := d0, data1 := d1 }
  s.onInn fun i =>
    { i with next := i.next + 1, buffer := (i.buffer ++ [e]).drop ((i.buffer.length + 1) - 64) }

/-- The 32 bytes of an event record (R521). -/
def Event.bytes (e : Event) : Bytes :=
  let b := wordBytes e.index ++ leBytes 2 e.code ++ leBytes 1 e.severity ++ leBytes 1 e.flags
    ++ leBytes 4 e.ns ++ leBytes 4 e.sec ++ leBytes 2 (e.sec / 2 ^ 32) ++ leBytes 2 e.unit
    ++ wordBytes e.data0 ++ wordBytes e.data1
  b ++ leBytes 4 (crc32 b)

/-- Records held, in order of `INDEX`. -/
def Innkeeper.records (i : Innkeeper) : List Event := i.ledger ++ i.buffer

/-- `MGT.LEDGER_OLD.INCOMPLETE`: records held only in retained memory for want of a usable flash, or
older ones lost (R522). -/
def Innkeeper.incomplete (i : Innkeeper) : Bool := !i.flashOk && !i.buffer.isEmpty

/-- Write buffered records to flash in order of `INDEX`; a full area loses its block of 2,048 oldest
records and a 0x0903 event is written (R522). -/
def ledgerFlash (s : State) : State :=
  if s.inn.flashOk && !s.inn.buffer.isEmpty then
    let all := s.inn.ledger ++ s.inn.buffer
    if 131072 < all.length then
      let s := s.onInn fun i => { i with ledger := all.drop 2048, buffer := [] }
      s.log 0x0903 0 0xFFFF 0 0
    else s.onInn fun i => { i with ledger := all, buffer := [] }
  else s

/-- LEDGER_FLASH_WRITE (R522). -/
def execLedgerFlashWrite (s : State) : Host.Outcome State Fault Refusal := done (if s.serves then ledgerFlash s else s)

/-! ### Monitors (R518, R519) -/

/-- A sensor's thresholds (R518): warn below and above, limit below and above, hysteresis. -/
structure Sensor where
  warnLo : Option Int
  warnHi : Int
  limLo : Int
  limHi : Int
  hyst : Int

/-- The sensor table of R518. -/
def sensor (i : Nat) : Sensor :=
  if i < 3 then ⟨some 864, 936, 855, 945, 5⟩
  else if i < 6 then ⟨some 1728, 1872, 1710, 1890, 10⟩
  else if i = 6 then ⟨some 1650, 1950, 1620, 1980, 10⟩
  else if i = 7 then ⟨some 2000, 2900, 1920, 3000, 20⟩
  else ⟨none, 1000, -400, 1100, 20⟩

/-- A sample lies beyond the warn (`false`) or limit (`true`) threshold. -/
def Sensor.beyond (c : Sensor) (lim : Bool) (v : Int) : Bool :=
  if lim then decide (v < c.limLo ∨ c.limHi < v)
  else (match c.warnLo with | some l => decide (v < l) | none => false) || decide (c.warnHi < v)

/-- A sample lies inside the threshold by at least the hysteresis. -/
def Sensor.within (c : Sensor) (lim : Bool) (v : Int) : Bool :=
  if lim then decide (c.limLo + c.hyst ≤ v ∧ v ≤ c.limHi - c.hyst)
  else (match c.warnLo with | some l => decide (l + c.hyst ≤ v) | none => true)
    && decide (v ≤ c.warnHi - c.hyst)

/-- Sensor `i` is judged now: run supplies only while their domain is on, L+ and the field die only
with `FIO` present (R518). -/
def State.judged (s : State) (i : Nat) : Bool :=
  if i = 2 ∨ i = 4 ∨ i = 5 then s.up else if i = 7 ∨ i = 11 then s.cap 4 else true

/-- Count one sample of sensor `i` against one of its thresholds. -/
def countSample (s : State) (i : Nat) (v : Int) (lim : Bool) : State :=
  let k := 4 * i + b2n lim
  let c := sensor i
  s.onInn fun n =>
    { n with
      excess := Map.set (fun _ => 0) n.excess k (if c.beyond lim v then min 3 (Map.get (fun _ => 0) n.excess k + 1) else 0)
      inside := Map.set (fun _ => 0) n.inside k (if c.within lim v then min 3 (Map.get (fun _ => 0) n.inside k + 1) else 0) }

/-- Take one sample of sensor `i`: `SENSE[i].VALUE` and its runs of samples. -/
def takeSample (s : State) (i : Nat) (v : Int) : State :=
  let s := s.setField (Reg.mgtSense i) 15 0 (toU 16 v)
  if s.judged i then countSample (countSample s i v false) i v true else s

/-- MONITOR_SAMPLE (R518): the Innkeeper samples each sensor, in STANDBY and above. -/
def execMonitorSample (values : List Int) (s : State) : Host.Outcome State Fault Refusal :=
  done (if s.serves then ((values.take 12).foldl (fun (p : State × Nat) v => (takeSample p.1 p.2 v, p.2 + 1)) (s, 0)).1 else s)

/-- Three samples beyond begin a crossing of one threshold, three inside by the hysteresis end it: an
event, a `STAT` bit, `SENSE` and `MON` (R519). -/
def crossing (s : State) (i : Nat) (lim : Bool) : State :=
  let k := 4 * i + b2n lim
  let on := bit (s.reg (Reg.mgtSense i)) (if lim then 17 else 16)
  let starts := !on && decide (3 ≤ Map.get (fun _ => 0) s.inn.excess k)
  let ends := on && decide (3 ≤ Map.get (fun _ => 0) s.inn.inside k)
  if starts || ends then
    let sample := w32 (toU 32 (wrapN 16 (s.field (Reg.mgtSense i) 15 0)))
    let s := s.setReg (Reg.mgtSense i) (setBit (s.reg (Reg.mgtSense i)) (if lim then 17 else 16) starts)
    let s := s.setReg Reg.mgtMon (setBit (s.reg Reg.mgtMon) (if lim then 16 + i else i) starts)
    let s := s.event Reg.mgtStat (if lim then 1 else 0)
    s.log (0x0200 + 2 * b2n lim + b2n ends) (if lim then 2 else 1) i sample 0
  else s

/-- MONITOR_CROSSING (R519): the crossings that sensor `i`'s samples begin or end. -/
def execMonitorCrossing (i : Nat) (s : State) : Host.Outcome State Fault Refusal :=
  done (if s.serves ∧ i < 12 ∧ s.judged i then crossing (crossing s i false) i true else s)

/-! ### Firmware banks (R517, R524, R525, R554) -/

/-- A byte of the external flash; an erased cell reads 0xFF. PRESUMED (log 9). -/
def State.flashRun (s : State) (o n : Nat) : Bytes := Map.getRun (fun _ => 0xFF) s.inn.flash o n

/-- Write bytes of the external flash. -/
def State.setFlash (s : State) (o : Nat) (p : Bytes) : State :=
  s.onInn fun i => { i with flash := Map.setRun (fun _ => 0xFF) i.flash o p }

/-- Where bank `b` lies (R517). -/
def bankBase (b : Nat) : Nat := 0x10000 + b * 0x800000

/-- The record of bank `b`. -/
def State.bankRec (s : State) (b : Nat) : BankRec := Map.get (fun _ => {}) s.inn.banks b

/-- Security version of the image in bank `b` (R524). -/
def State.bankSvn (s : State) (b : Nat) : Nat := leNat (s.flashRun (bankBase b + 5) 1)

/-- The whole image of bank `b`, by the `SIZE` of its header. -/
def State.bankImage (s : State) (b : Nat) : Bytes :=
  s.flashRun (bankBase b) (min 0x800000 (leNat (s.flashRun (bankBase b + 12) 4)))

/-- Bank `b` may be selected by its record and the floor alone (R554). -/
def State.bankNamed (s : State) (b : Nat) : Bool :=
  s.inn.flashOk && (s.bankRec b).valid && decide (s.inn.floor ≤ s.bankSvn b)

/-- Bank `b` passes record, signature and floor (R525). -/
def State.bankGood (s : State) (b : Nat) : Bool := s.bankNamed b && Config.signatureOk (s.bankImage b)

/-- The better of two usable banks: the higher `ACT`, bank 0 on a tie (R525). -/
def State.pickBank (s : State) (ok : Nat → Bool) : Option Nat :=
  match ok 0, ok 1 with
  | true, true => some (if (s.bankRec 0).act < (s.bankRec 1).act then 1 else 0)
  | true, false => some 0
  | false, true => some 1
  | false, false => none

/-- The 64 bytes of the boot header read at the first stage (R554); `none`: no boot header. -/
def State.bootHeader (s : State) : Option Bytes :=
  if s.field Reg.pwrBoot 1 0 ≠ 0 then none
  else match s.pickBank s.bankNamed with
    | none => none
    | some b =>
      let h := s.flashRun (bankBase b + 0x40) 64
      if Bytes.num h 0 4 = 0xB7B00701 ∧ Bytes.num h 60 4 = crc32 (h.take 60) then some h else none

/-! ### Nameplates (R527, R528) -/

/-- Where the nameplate of an account lies: a part of the slot's ring channel, or a local address. -/
def State.platePlace (s : State) (slot source np : Nat) : Nat :=
  if source = 0 then ((s.pn slot 5) * 32 + s.pn slot 6) * 4 + np % 4 else 0x10000 + np % 8

/-- The nameplate memory at a place; empty when none answers. -/
def State.plate (s : State) (place : Nat) : Bytes := Map.get (fun _ => []) s.inn.plates place

/-- The identity block reads as version 1 with a good check (R527). -/
def identityOk (p : Bytes) : Bool :=
  decide (192 ≤ p.length ∧ Bytes.num p 0 4 = 0xB7A51E01 ∧ Bytes.num p 4 1 = 1
    ∧ Bytes.num p 124 4 = crc32 (p.take 124))

/-- Wear block `k` of a nameplate. -/
def wearBlock (p : Bytes) (k : Nat) : Bytes := (p.drop (128 + 32 * k)).take 32

/-- A wear block passes its check. -/
def wearBlockOk (b : Bytes) : Bool := decide (b.length = 32 ∧ Bytes.num b 28 4 = crc32 (b.take 28))

/-- Which wear block is current: the valid one with the higher `SEQ` (R527). -/
def currentBlock (p : Bytes) : Option Nat :=
  match wearBlockOk (wearBlock p 0), wearBlockOk (wearBlock p 1) with
  | true, true =>
    some (if Bytes.num (wearBlock p 0) 0 4 < Bytes.num (wearBlock p 1) 0 4 then 1 else 0)
  | true, false => some 0
  | false, true => some 1
  | false, false => none

/-- Start an account from a nameplate: `USED` and `HOURS` of the current wear block (R529), or from 0
where the plate holds no valid one (DESIGN CHOICE, log 10). -/
def startAccount (s : State) (slot part source np incRev : Nat) : State :=
  let p := s.plate (s.platePlace slot source np)
  let b := match currentBlock p with | some k => wearBlock p k | none => zeros 32
  s.setWear slot part
    { state := 1, source := source, np := np, incRev := incRev, ident := p.take 128,
      used := Bytes.num b 4 8, hours := Bytes.num b 12 4, wseq := Bytes.word b 0,
      bindSec := w32 (s.tmu.ns / 10 ^ 9),
      posPrev := (BitVec.ofNat 64 (s.reg64 (Reg.axsRec (16 * slot + 2)) (Reg.axsRec (16 * slot + 3)))).toInt,
      lastWb := s.inn.uptime }

/-- `LIFE` and `WARN` of an account's part. -/
def Wear.life (w : Wear) : Nat := Bytes.num w.ident 68 8
def Wear.warnLevel (w : Wear) : Nat := Bytes.num w.ident 62 2 * w.life / 1000

/-- This device writes nameplates: it is single, or the Active of a pair (R382, R531). -/
def State.writesPlates (s : State) : Bool := decide (s.field Reg.pairCfg 1 0 = 0) || bit (s.reg Reg.pairState) 0

/-- Write at an offset of a nameplate: on the local bus at once (DESIGN CHOICE, log 35); through the head of the slot's
ring channel as a background request of the side channel, `NP_WRITE` (R168, R381, R528). -/
def writePlate (slot source np off : Nat) (b : Bytes) (s : State) : State :=
  if source = 0 then
    s.onPort (s.pn slot 5) fun x =>
      { x with plate := { x.plate with
        reqs := x.plate.reqs ++ [leBytes 1 (s.pn slot 6) ++ [0x11] ++ leBytes 1 (np % 4) ++ [0] ++ leBytes 2 off ++ b] } }
  else
    let place := s.platePlace slot source np
    let p := s.plate place
    s.onInn fun i =>
      { i with plates := Map.set (fun _ => []) i.plates place (p.take off ++ b ++ p.drop (off + b.length)) }

/-- Write an account's wear to the other wear block of its part, `SEQ` + 1 (R527, R531). -/
def writeBack (s : State) (slot part : Nat) : State :=
  let w := s.wearOf slot part
  let p := s.plate (s.platePlace slot w.source w.np)
  if w.state = 1 ∧ s.writesPlates ∧ identityOk p then
    let k := match currentBlock p with | some k => 1 - k | none => 0
    let body := wordBytes (w.wseq + 1) ++ leBytes 8 w.used ++ leBytes 4 w.hours ++ wordBytes w.bindSec
      ++ leBytes 2 (s.field Reg.sysStrap 11 8 + 16 * s.field Reg.sysStrap 4 3) ++ zeros 6
    let blk := body ++ leBytes 4 (crc32 body)
    let s := s.setWear slot part { w with wseq := w.wseq + 1, lastWb := s.inn.uptime, wbDue := false }
    (writePlate slot w.source w.np (128 + 32 * k) blk s).emit (.nameplate slot part blk)
  else s

/-- NAMEPLATE_WRITE_BACK (R531): every `WEAR_WB` minutes, at a disable and at a level crossing. -/
def execNameplateWriteBack (slot part : Nat) (s : State) : Host.Outcome State Fault Refusal :=
  let w := s.wearOf slot part
  done (if s.serves ∧ part < 4 then
      writeBack (if w.wbDue then s else s.waitTo (w.lastWb + s.pn slot 0x0B01 * 60000000000)) slot part
    else s)

/-- Ask for a write-back of every account of a slot (its disable, R531). -/
def State.wearDisable (s : State) (slot : Nat) : State :=
  (List.range 4).foldl (fun s p =>
    if (s.wearOf slot p).state = 1 then s.setWear slot p { s.wearOf slot p with wbDue := true } else s) s

/-- Copy the accounts to the flash wear ledger (R531). -/
def wearCopy (s : State) : State :=
  s.onInn fun i => { i with wearFlash := if i.flashOk then i.wear else i.wearFlash, wearCopy := i.uptime }

/-- WEAR_LEDGER_COPY (R531): once an hour. -/
def execWearLedgerCopy (s : State) : Host.Outcome State Fault Refusal :=
  done (if s.serves then wearCopy (s.waitTo (s.inn.wearCopy + 3600000000000)) else s)

/-- NP_IDENTITY_CHECK (R532): the nameplate as now read; another `SERIAL` marks the account changed, a
plate that cannot be read marks it unreadable. -/
def execNpIdentityCheck (slot part : Nat) (nameplate : Bytes) (s : State) :
    Host.Outcome State Fault Refusal :=
  let w := s.wearOf slot part
  let s0 := s
  let s := s.onInn fun i =>
    { i with plates := Map.set (fun _ => []) i.plates (s.platePlace slot w.source w.np) nameplate }
  done (
    if !s0.serves then s0
    else if w.state ≠ 1 then s
    else if !identityOk nameplate then
      let s := s.setWear slot part { w with state := 3 }
      (s.event Reg.mgtStat 4).log 0x0803 1 slot (w32 part) 0
    else if (nameplate.drop 40).take 16 ≠ (w.ident.drop 40).take 16 then
      let s := s.setWear slot part { w with state := 2 }
      (s.event Reg.mgtStat 4).log 0x0802 1 slot (w32 part) 0
    else s)

/-! ### Wear accounting (R530, R533) -/

/-- Add a fraction of micro-units to an account, the remainder carried exactly (R530). -/
def Wear.add (w : Wear) (num den : Nat) : Wear :=
  if den = 0 then w
  else
    let rd := if w.remDen = 0 then 1 else w.remDen
    let n := w.rem * den + num * rd
    let d := rd * den
    let g := Nat.gcd (n % d) d
    { w with used := w.used + n / d, rem := n % d / g, remDen := d / g }

/-- One wear update of an account over `ns` nanoseconds (R530). -/
def Wear.update (w : Wear) (ns : Nat) (enabled : Bool) (pos : Int) (iq : Int) : Wear :=
  let e := Bytes.num w.ident 61 1
  let iref := Bytes.num w.ident 64 4
  let wn := min (iq.natAbs ^ e) (256 * iref ^ e)
  let wd := iref ^ e
  let d := (wrap64 (pos - w.posPrev)).natAbs
  let w := { w with posPrev := pos }
  let w := if Bytes.num w.ident 60 1 = 1 then w.add (d * 10 ^ 6 * wn) (2 ^ 24 * w.incRev * wd)
    else if enabled then w.add (ns * 10 ^ 6 * wn) (3600000000000 * wd) else w
  if enabled then
    { w with hours := w.hours + (w.hourNs + ns) / 3600000000000, hourNs := (w.hourNs + ns) % 3600000000000 }
  else w

/-- The crossings of the warning level and of the life (R533). -/
def wearLevels (s : State) (slot part : Nat) : State :=
  let w := s.wearOf slot part
  let s := if !w.warned && decide (w.warnLevel ≤ w.used) then
      let s := s.setWear slot part { w with warned := true, wbDue := true }
      (s.event Reg.mgtStat 2).log 0x0800 1 slot (w32 part) 0
    else s
  let w := s.wearOf slot part
  if !w.ended && decide (w.life ≤ w.used) then
    let s := s.setWear slot part { w with ended := true, wbDue := true }
    (s.event Reg.mgtStat 3).log 0x0801 1 slot (w32 part) 0
  else s

/-- Update one account from the slot's `AXS` record (R530). -/
def wearAccount (ns : Nat) (s : State) (key : Nat) : State :=
  let slot := key / 4
  let part := key % 4
  let w := s.wearOf slot part
  if w.state = 1 then
    let st := s.field (Reg.axsRec (16 * slot + 1)) 2 0
    let pos := (BitVec.ofNat 64 (s.reg64 (Reg.axsRec (16 * slot + 2)) (Reg.axsRec (16 * slot + 3)))).toInt
    let iq := (s.reg (Reg.axsRec (16 * slot + 8))).toInt
    wearLevels (s.setWear slot part (w.update ns (decide (2 ≤ st ∧ st ≤ 4)) pos iq)) slot part
  else s

/-- WEAR_UPDATE (R530): at the sealing of every M-th period, every counting account. -/
def wearUpdate (s : State) : State :=
  let tb := (s.reg Reg.tmuPeriod).toNat * 40
  let m := if tb = 0 then 1 else (1000000 + tb - 1) / tb
  if s.tmu.period % m = 0 then (s.inn.wear.map Prod.fst).foldl (wearAccount (m * tb)) s else s

/-- The slot's `ENABLE` is refused for wear (R533). -/
def State.wornOut (s : State) (slot : Nat) : Bool :=
  decide (s.pn slot 0x0B00 = 1) &&
    (List.range 4).any (fun p =>
      let w := s.wearOf slot p
      decide (w.state = 1 ∧ w.life ≤ w.used))

/-! ### Watchdogs (R520) and flash care (R534) -/

/-- HEARTBEAT (R520): a live core gives a heartbeat. -/
def execHeartbeat (core : Nat) (s : State) : Host.Outcome State Fault Refusal :=
  done (if s.serves ∧ core < 4 ∧ s.capX (16 + core) then
    s.onInn fun i => { i with beat := Map.set (fun _ => 0) i.beat core i.uptime } else s)

/-- A core has given no heartbeat for 100 ms (R520). -/
def State.coreSilent (s : State) (core : Nat) : Bool :=
  s.up && decide (core < 4) && s.capX (16 + core)

/-- The instant at which a core has been silent for 100 ms. -/
def State.silentAt (s : State) (core : Nat) : Nat := Map.get (fun _ => 0) s.inn.beat core + 100000000

/-- The areas whose pages have another copy: bank records, safety area, and a bank that matches the
other bank's image (R534). -/
def State.hasCopy (s : State) (page : Nat) : Bool :=
  let o := page * 4096
  decide (o < 0x10000) || decide (0x1010000 ≤ o ∧ o < 0x1030000) ||
    (decide (0x10000 ≤ o ∧ o < 0x1010000) && decide (s.bankImage 0 = s.bankImage 1))

/-- An erase block fails: it is marked, and ledger records on a bad page read back with a failed check
(R522, R534). -/
def failPage (s : State) (page : Nat) : State :=
  let s := s.onInn fun i =>
    { i with
      failedBlocks := adjoin (page / 16) i.failedBlocks
      ledger := i.ledger.map fun e =>
        if 0x103 * 16 + (e.index.toNat % 131072) * 32 / 4096 = page then { e with code := 0xFFFF } else e }
  (s.event Reg.mgtStat 6).log 0x0902 2 0xFFFF (w32 (page / 16)) 0

/-- A page of a scrub pass has been read. DESIGN CHOICE (log 46): a pass visits the pages in rising order, and is complete
with the last one of the areas of R517, on that day of network time. -/
def scrubbed (page : Nat) (s : State) : State :=
  if page = 0x147F then s.onInn fun i => { i with scrubDate := s.tmu.ns / 10 ^ 9 } else s

/-- FLASH_SCRUB (R534): a page is checked; a page in error is repaired from its other copy or its
block is marked failed. -/
def execFlashScrub (page : Nat) (ok copyOk : Bool) (s : State) : Host.Outcome State Fault Refusal :=
  done (
    if !s.serves || !s.inn.flashOk then s
    else scrubbed page (
      if ok then s
      else if s.hasCopy page && copyOk then (s.event Reg.mgtStat 6).log 0x0901 0 0xFFFF (w32 page) 0
      else failPage s page))

/-- Days since the last complete scrub pass, by network time and the refresh record (R535, R537). -/
def State.scrubDays (s : State) : Nat := min 0xFFFF ((s.tmu.ns / 10 ^ 9 - s.inn.scrubDate) / 86400)

/-- FLASH_REWRITE (R534): a block is read, erased, rewritten and verified. The running bank waits for
the other bank to pass its signature. -/
def execFlashRewrite (block : Nat) (verified : Bool) (s : State) : Host.Outcome State Fault Refusal :=
  let b := s.inn.runBank
  let running := decide (bankBase b ≤ block * 65536 ∧ block * 65536 < bankBase b + 0x800000)
  done (
    if !s.serves || !s.inn.flashOk || (running && !Config.signatureOk (s.bankImage (1 - b))) then s
    else if verified then (s.event Reg.mgtStat 6).log 0x0900 0 0xFFFF (w32 block) 0
    else
      let s := s.onInn fun i => { i with failedBlocks := adjoin block i.failedBlocks }
      (s.event Reg.mgtStat 6).log 0x0902 2 0xFFFF (w32 block) 0)

/-- UPDATE_TIMEOUT (R526): 60 s without a class 0x0F command closes the update; a command that waits for a head
is still in progress (DEDUCED, log 35). -/
def execUpdateTimeout (s : State) : Host.Outcome State Fault Refusal :=
  done (match s.inn.update with
    | some u =>
      if s.serves && u.waiting.isNone then (s.waitTo (u.last + 60000000000)).onInn fun i => { i with update := none } else s
    | none => s)

/-! ### The host view (R537) -/

/-- The `MGT` registers that mirror the Innkeeper's own state. -/
def State.mgtView (s : State) (a : Nat) : Option Word :=
  if a = Reg.mgtLedger then some s.inn.next
  else if a = Reg.mgtLedgerOld then
    let old := match s.inn.records with | e :: _ => e.index | [] => s.inn.next
    some (setBit old 31 s.inn.incomplete)
  else if a = Reg.mgtSvn then some (setBits (s.reg Reg.mgtSvn) 5 0 s.inn.floor)
  else if a = Reg.mgtUpd then
    some (match s.inn.update with
      | some u => w32 ((if u.committed then 2 else 1) + 4 * u.dest + 256 * u.received)
      | none => 0)
  else if a = Reg.mgtRefresh then some (w32 (s.scrubDays + 65536 * s.inn.failedBlocks.length))
  else none

/-- The 48 bytes of `HEALTH_READ` (R535). -/
def State.health (s : State) : Bytes :=
  (List.range 12).flatMap (fun i => leBytes 2 (s.field (Reg.mgtSense i) 15 0))
    ++ wordBytes (s.reg Reg.mgtMon) ++ wordBytes s.inn.next
    ++ leBytes 4 (s.inn.uptime / 10 ^ 9) ++ leBytes 2 s.scrubDays
    ++ leBytes 2 s.inn.failedBlocks.length ++ wordBytes (s.reg Reg.mgtBank)
    ++ wordBytes (setBits (s.reg Reg.mgtSvn) 5 0 s.inn.floor)

/-- The 32 bytes of `WEAR_READ` (R533). -/
def Wear.read (w : Wear) : Bytes :=
  leBytes 1 w.state ++ leBytes 1 (Bytes.num w.ident 5 1) ++ leBytes 2 (Bytes.num w.ident 6 2)
    ++ leBytes 8 w.used ++ leBytes 8 w.life ++ leBytes 2 (Bytes.num w.ident 62 2) ++ leBytes 2 0
    ++ leBytes 4 w.hours ++ wordBytes w.bindSec

end Sys2Proof.Machine
end

