-- ==== Sys2Proof/Machine/FieldIo.lean ====
section
/-!
DEFINITION. The field die and its link (chapter 17).
-/
namespace Sys2Proof.Machine

/-- The commands that conduct: commanded, armed and not latched off (R452), commanded since the rearm (R448). -/
def FieldDie.effective (d : FieldDie) : BitVec 16 := if d.armed then d.cmd &&& ~~~ d.latched &&& ~~~ d.stale else 0

/-- Inputs as the die delivers them: 0 during a sag or with the link down (R450). -/
def FieldDie.inputs (d : FieldDie) : Word := if d.lplusOk && d.linkUp then d.level else 0

/-- Field input `n` on every path (R450). -/
def State.fieldIn (s : State) (n : Nat) : Bool := s.die.inputs.getLsbD n

/-- The switches of safe output `k` may conduct: armed, commanded since the rearm, the watchdog not tripped (R448, R420). -/
def State.safeArmed (s : State) (k : Nat) : Bool :=
  s.die.armed && !s.die.safeOff && !(Map.get (fun _ => {}) s.island.outs k : SafeOut).stale

/-- The island's safe output `k` conducts. -/
def State.safeOutOn (s : State) (k : Nat) : Bool := (Map.get (fun _ => {}) s.island.outs k : SafeOut).on && s.safeArmed k

/-- Ball `SO_k_H` is high: its switch conducts, or a short holds it (R428, R429). -/
def State.ballH (s : State) (k : Nat) : Bool :=
  let x : SafeOut := Map.get (fun _ => {}) s.island.outs k
  (x.hi && s.safeArmed k) || x.stuckH

/-- Ball `SO_k_L` is high: the load pulls it up, or a short holds it; its own closed switch keeps it at 0 V. -/
def State.ballL (s : State) (k : Nat) : Bool :=
  let x : SafeOut := Map.get (fun _ => {}) s.island.outs k
  (x.hi && !x.lo && s.safeArmed k) || x.stuckL

/-- Show the die in `FIO` (R457). -/
def fioShow (s : State) : State :=
  let d := s.die
  let balls (f : Nat → Bool) := (List.range 4).foldl (fun v k => v + b2n (f k) * 2 ^ k) 0
  let s := s.setReg Reg.fioState (w32 (b2n d.lplusOk + 2 * b2n d.armed
    + 4 * b2n (d.sagged || d.latched != 0) + 8 * b2n d.linkUp))
  let s := s.setReg Reg.fioIn d.inputs
  let s := s.setReg Reg.fioOutRb (w32 ((d.effective ||| d.rbHigh).toNat + balls s.ballH * 2 ^ 16 + balls s.ballL * 2 ^ 20))
  let s := s.setReg Reg.fioLink (w32 (min 0xFFFF d.errs))
  s.setField Reg.pwrDomain 4 4 (b2n d.linkUp)

/-- `PWR.SUPPLY.LPLUS` follows `LPLUS_OK`, a change sets `SUPPLY_EVT`; 0 without `FIO` (R93, R455). -/
def lplusShow (s : State) : State :=
  let v := s.die.lplusOk && s.cap 4
  if bit (s.reg Reg.pwrSupply) 7 = v then s
  else (s.setReg Reg.pwrSupply (setBit (s.reg Reg.pwrSupply) 7 v)).event Reg.pwrStat 3

/-- The main die runs the link: STANDBY or above, the die present (R447, R79). -/
def State.fieldLinked (s : State) : Bool :=
  s.serves && s.power.phase != .firstStage && s.cap 4 && s.die.started

/-- FIELD_DIE_START (R447, R448): L+ first rises above 18.5 V; `ARMED` is 0. -/
def execFieldDieStart (s : State) : Host.Outcome State Fault Refusal :=
  done (lplusShow { s with die :=
    { s.die with started := true, lplusOk := true, armed := false, clearing := true } })

/-- FIELD_LINK_LOST (R447, R448): 50 µs without a valid frame. -/
def fieldLinkDown (s : State) : State :=
  let s := s.onDie fun d => { d with linkUp := false, armed := false, cmd := 0, rearm := false }
  fioShow (s.setReg Reg.fioOutCmd 0)

def execFieldLinkLost (s : State) : Host.Outcome State Fault Refusal :=
  done (if s.die.linkUp then (fieldLinkDown s).event Reg.fioStat 3 else s)

/-- One input after one sample: a new level after `FILT` + 1 equal samples (R450). -/
def filterInput (raw : Word) (filt : Nat → Nat) (d : FieldDie) (n : Nat) : FieldDie :=
  if bit raw n = d.level.getLsbD n then { d with count := Map.set (fun _ => 0) d.count n 0 }
  else
    let c := Map.get (fun _ => 0) d.count n + 1
    if filt n < c then
      { d with level := setBit d.level n (bit raw n), count := Map.set (fun _ => 0) d.count n 0 }
    else { d with count := Map.set (fun _ => 0) d.count n c }

/-- FIELD_INPUT_SAMPLE (R450): the die samples and filters every input. -/
def execFieldInputSample (raw : Word) (s : State) : Host.Outcome State Fault Refusal :=
  done (if s.die.started then
    s.onDie fun d => (List.range 32).foldl (filterInput raw (fun n => s.field (Reg.fioFilt n) 7 0)) d
  else s)

/-- A guarded write of `FIO.REARM` with `GO` (R448): honoured while `LPLUS_OK` is 1 and the link is up;
`STATE.FAULT` of a sag ends with it (R455). Only commands after it switch outputs on. -/
def fioRearm (v : Word) (s : State) : State :=
  if bit v 0 && s.die.lplusOk && s.die.linkUp then
    fioShow (s.onDie fun d => { d with rearm := true, written := 0, sagged := false })
  else s

/-- A host write of `FIO.OUT_CMD`: a command after any rearm (R448). -/
def fioOutCmd (v : Word) (s : State) : State := (s.setReg Reg.fioOutCmd (v &&& 0xFFFF)).onDie fun d => { d with written := 0xFFFF }

/-- FIELD_OUTPUT_FAULT (R454): a readback differs from the effective command for 2 ms. -/
def execFieldOutputFault (out : Nat) (s : State) : Host.Outcome State Fault Refusal :=
  done (if out < 16 ∧ s.die.started then
    let m : BitVec 16 := BitVec.ofNat 16 (2 ^ out)
    let hi := if s.die.effective.getLsbD out then s.die.rbHigh &&& ~~~ m else s.die.rbHigh ||| m
    let s := s.onDie fun d => { d with latched := d.latched ||| m, rbHigh := hi }
    (fioShow s).event Reg.fioStat 0
  else s)

/-- FIELD_OUTPUT_LATCH_CLEAR (R454): command and readback both 0 for 2 ms. -/
def execFieldOutputLatchClear (out : Nat) (s : State) : Host.Outcome State Fault Refusal :=
  done (if out < 16 ∧ s.die.cmd.getLsbD out = false then
    let m : BitVec 16 := BitVec.ofNat 16 (2 ^ out)
    fioShow (s.onDie fun d => { d with latched := d.latched &&& ~~~ m, rbHigh := d.rbHigh &&& ~~~ m })
  else s)

/-- SAG (R455): L+ below 17.5 V for 50 µs. -/
def execSag (mv10 : Nat) (s : State) : Host.Outcome State Fault Refusal :=
  done (if s.die.started ∧ s.die.lplusOk ∧ mv10 < 1750 then
    let s := s.onDie fun d =>
      { d with lplusOk := false, armed := false, cmd := 0, sagged := true, clearing := true, rearm := false }
    let s := s.setReg Reg.fioOutCmd 0
    let s := s.setField Reg.fioLplus 15 0 mv10
    lplusShow (fioShow (s.raise Reg.fioStat 3#32))
  else s)

/-- RECOVERED (R455): L+ at or above 18.5 V for 10 ms. -/
def execRecovered (mv10 : Nat) (s : State) : Host.Outcome State Fault Refusal :=
  done (if s.die.started ∧ !s.die.lplusOk ∧ 1850 ≤ mv10 then
    let s := s.onDie fun d => { d with lplusOk := true }
    let s := s.setField Reg.fioLplus 15 0 mv10
    lplusShow (fioShow (s.event Reg.fioStat 2))
  else s)

/-- What a reset does to the die: `OUT_CMD` is 0 (R447, R88); a power-on, brown-out or pin reset takes
the link down, and a power-on or pin reset clears its error count (R457). -/
def dieReset (linkDown errs : Bool) (s : State) : State :=
  let s := s.onDie fun d => { d with cmd := 0, rearm := false, errs := if errs then 0 else d.errs }
  let s := if linkDown then s.onDie fun d => { d with linkUp := false, armed := false } else s
  if linkDown then s else fioShow s

end Sys2Proof.Machine
end

