-- ==== Sys2Proof/Machine/Tmu.lean ====
section
/-!
DEFINITION. Network time, PTP and the servo (chapter 18, R459 to R472).
-/
namespace Sys2Proof.Machine

/-- The base period in ns (R13). -/
def State.tBase (s : State) : Nat := s.field Reg.tmuPeriod 15 0 * 40

/-- A sample offset in force, in ns: 0 to 7 of the ring ports, 8 local (R470). -/
def State.smpOfs (s : State) (i : Nat) : Int :=
  clampI (-(s.tBase / 2 : Nat)) 0 (wrapN 16 (bits (Map.get (fun _ => 0) s.tmu.smp i) 15 0) * 40)

/-- The boundary takes the sample offsets and the apply times over (R374, R470). -/
def smpTake (s : State) : State :=
  let smp := (List.range 9).foldl (fun m i => Map.set (fun _ => 0) m i (s.reg (Reg.tmuSmpOfs i))) s.tmu.smp
  let smp := (List.range 8).foldl (fun m p => Map.set (fun _ => 0) m (16 + p) (s.reg (Reg.vlkApply p))) smp
  s.onTmu fun t => { t with smp := smp }

/-- PTP is enabled. -/
def State.ptpEnabled (s : State) : Bool := bit (s.reg Reg.tmuCtrl) 0
/-- The `ETH` instance that carries PTP. -/
def State.ptpPort (s : State) : Nat := s.field Reg.tmuPtpCfg 0 0
/-- Time transmitter. -/
def State.transmits (s : State) : Bool := bit (s.reg Reg.tmuPtpCfg) 1
/-- Peer-to-peer profile. -/
def State.peerDelay (s : State) : Bool := bit (s.reg Reg.tmuPtpCfg) 2
def State.ptpDomain (s : State) : Nat := s.field Reg.tmuPtpCfg 15 8

/-- PTP runs: in STANDBY only on `ETH[0]` over RGMII, else in READY and RUN (R468). -/
def State.ptpRuns (s : State) : Bool :=
  s.ptpEnabled && s.serves && s.power.phase != .firstStage &&
    (if s.ptpPort = 0 then s.cap 12 && (bit (s.reg Reg.tmuPtpCfg) 3 || s.up) else s.cap 13 && s.up)

/-- `RATE_TRIM` within its bounds (R486). -/
def State.rateTrim (s : State) : Int := clampI (-200000) 200000 (s.reg Reg.tmuRateTrim).toInt

/-- The applied rate correction ρ in ppb (R460). -/
def State.rho (s : State) : Int := if s.ptpEnabled && !s.transmits then s.tmu.rho else s.rateTrim

/-- The increment of one tick in 2^-32 ns (R459). -/
def increment (rho : Int) : Int := 40 * 2 ^ 32 + rndDiv (40 * 2 ^ 32 * rho) (10 ^ 9)

/-- The reference runs and the time unit counts (R460, R73). -/
def State.counts (s : State) : Bool :=
  s.power.mode != .dormant && bit (s.reg Reg.pwrClk) 0 && s.tmu.boundaries

/-- The increment of the running tick. -/
def State.inc (s : State) : Nat := (increment s.rho).toNat

/-- Network time at an instant, in 2^-32 ns. -/
def State.instant (s : State) : Nat := s.tmu.ns * 2 ^ 32 + s.tmu.frac

/-- Network time stands at an instant in 2^-32 ns, so far into its tick, after some reference time (R459, R469). -/
def setTime (u lag lead passed : Nat) (s : State) : State :=
  (s.onTmu fun t => { t with ns := u / 2 ^ 32, frac := u % 2 ^ 32, lag := lag, lead := lead }).onInn fun i =>
    { i with uptime := i.uptime + passed }

/-- REFERENCE_TICK (R459): 40 ns after the last tick network time stands its increment beyond that tick. An instant
interpolated within the tick (R469) has brought it part of the way. -/
def execReferenceTick (s : State) : Host.Outcome State Fault Refusal :=
  done (if s.counts then setTime (s.instant + (s.inc - s.tmu.lag)) 0 0 (40 - s.tmu.lead) s else s)

/-- Time passes up to an instant of network time, interpolated within its tick (R469). DESIGN CHOICE (log 12): an event
that the spec puts at an instant brings time there when fewer ticks were listed; whole ticks among them pass with it. -/
def State.advanceTo (s : State) (ns : Nat) : State :=
  if s.tmu.ns < ns then
    let t := s.tmu.lag + (ns * 2 ^ 32 - s.instant)
    let lead := 40 * (t % s.inc) / s.inc
    setTime (ns * 2 ^ 32) (t % s.inc) lead (40 * (t / s.inc) + lead - s.tmu.lead) s
  else s

/-- The number of the period that contains this instant (R148). -/
def State.periodNow (s : State) : Nat := if s.tBase = 0 then s.tmu.period else s.tmu.ns / s.tBase

/-- NOW_NS_READ (R461): the nanoseconds, and the captures of the same tick. -/
def nowNs (s : State) : Word × State :=
  let sec := s.tmu.ns / 10 ^ 9
  let v := w32 (s.tmu.ns % 10 ^ 9)
  let s := s.setReg Reg.tmuNowNs v
  let s := s.setReg Reg.tmuNowSecLo (w32 sec)
  let s := s.setReg Reg.tmuNowSecHi (w32 (sec / 2 ^ 32 % 2 ^ 16))
  let s := s.setReg Reg.tmuNowFrac (w32 s.tmu.frac)
  (v, s.setReg64 Reg.tmuNowPerLo Reg.tmuNowPerHi s.periodNow)

/-! ### State bits -/

/-- Set or clear bit `n` of `TMU.STATE`. -/
def State.tmuBit (s : State) (n : Nat) (v : Bool) : State :=
  s.setReg Reg.tmuState (setBit (s.reg Reg.tmuState) n v)

/-- Change `LOCKED`; a change sets `LOCK_EVT` (R467). -/
def setLocked (v : Bool) (s : State) : State :=
  if bit (s.reg Reg.tmuState) 0 = v then s else (s.tmuBit 0 v).event Reg.tmuStat 0

/-- Arm the first-lock step: ri is set to 0 (R464, R465). -/
def armStep (s : State) : State := s.onTmu fun t => { t with armed := true, ri := 0 }

/-- PTP starts: a time transmitter counts as locked (R462). -/
def ptpStart (s : State) : State := if s.ptpRuns && s.transmits then setLocked true s else s

/-- A guarded write of `TMU.CTRL`: `PTP_EN`, whose rise arms the step; `RESTEP`, ignored in RUN (R464,
R486). -/
def tmuCtrl (v : Word) (s : State) : State :=
  let on := bit v 0
  let rise := on && !s.ptpEnabled
  let s := s.setReg Reg.tmuCtrl (w32 (b2n on))
  let s := if rise then ptpStart (armStep s) else s
  if bit v 1 && !s.running then (armStep s).tmuBit 3 false else s

/-- `TIME_RESTEP` and `CTRL.RESTEP` (R464). -/
def restep (s : State) : State := if s.running then s else (armStep s).tmuBit 3 false

/-! ### Offsets, step, slew and servo (R463 to R467) -/

/-- Start a slew for an offset (R466). -/
def startSlew (th : Int) (s : State) : State :=
  let sl := s.field Reg.tmuServo 31 24
  let slew : Int := if sl = 0 then 1 else (min sl 200 : Nat)
  let rho := clampI (-200000) 200000 (s.tmu.ri - sgn th * slew * 1000)
  let d := (rho - s.tmu.ri).natAbs
  let dur := if d = 0 then 0 else (th.natAbs * 10 ^ 9 + d - 1) / d
  let s := s.onTmu fun t => { t with rho := rho, slewEnd := s.inn.uptime + dur }
  (s.tmuBit 2 true).event Reg.tmuStat 2

/-- End a slew: ρ := ri. -/
def endSlew (s : State) : State := (s.onTmu fun t => { t with rho := t.ri }).tmuBit 2 false

/-- The servo update of R465. -/
def servo (th : Int) (s : State) : State :=
  let kp : Int := s.field Reg.tmuServo 11 0
  let ki : Int := s.field Reg.tmuServo 23 12
  s.onTmu fun t =>
    let ri := clampI (-200000) 200000 (t.ri - rndDiv (th * ki) 256)
    { t with ri := ri, rho := clampI (-200000) 200000 (ri - rndDiv (th * kp) 256) }

/-- The number of the period that runs, after a step (R469). -/
def renumber (s : State) : State :=
  s.onTmu fun t => { t with period := s.periodNow }

/-- Counters that run freely do not see a step of network time: the instants from which PWM channels and emulated edges run
move with it. -/
def shiftCounters (d : Int) (s : State) : State :=
  let go (x : Nat) (d : Int) : Nat := ((x : Int) + d).toNat
  let s := (s.pwm.map Prod.fst).foldl (fun s n =>
    if !bit (s.reg (Reg.pwmChCfg n)) 0 then s
    else s.onPw n fun p => { p with
      start := p.start.map (go · (64 * d)), since := go p.since (64 * d), edge := go p.edge (64 * d), sync := go p.sync (64 * d) }) s
  (s.emu.map Prod.fst).foldl (fun s n => s.onEm n fun e => { e with trains := e.trains.map fun x => { x with start := go x.start d } }) s

/-- Step network time by -θ (R464); time does not fall below the epoch. -/
def stepTime (th : Int) (s : State) : State :=
  let s := shiftCounters ((((s.tmu.ns : Int) - th).toNat : Int) - s.tmu.ns) s
  let s := s.onTmu fun t => { t with ns := ((t.ns : Int) - th).toNat, armed := false }
  ((renumber (endSlew s)).tmuBit 3 true).tmuBit 4 false |>.event Reg.tmuStat 1

/-- The mean path or link delay as it is shown (R463). -/
def showPath (d : Int) (s : State) : State := s.setReg Reg.tmuPathDly (wInt (sat32 d))

/-- One measurement θ (R463 to R467). During a slew it is shown and does nothing more, but for a step that was armed in
RUN and is due now that the device has left it (R464, R466). -/
def measure (th : Int) (s : State) : State :=
  let thr := s.field Reg.tmuThr 15 0
  let s := s.setReg Reg.tmuOffset (wInt (sat32 th))
  if bit (s.reg Reg.tmuState) 2 && !(s.tmu.armed && !s.running) then s
  else
    let s := s.tmuBit 1 false
    let s := s.onTmu fun t =>
      if th.natAbs ≤ s.field Reg.tmuThr 31 16 then { t with inRun := min 8 (t.inRun + 1), outRun := 0 }
      else { t with inRun := 0, outRun := min 8 (t.outRun + 1) }
    if s.tmu.armed && !s.running then stepTime th s
    else if th.natAbs ≤ thr then
      servo th (if s.tmu.armed then (s.onTmu fun t => { t with armed := false }).tmuBit 4 false else s)
    else startSlew th (if s.tmu.armed then s.tmuBit 4 true else s)

/-- SLEW_END (R466): the slew's duration has passed. -/
def execSlewEnd (s : State) : Host.Outcome State Fault Refusal :=
  done (if bit (s.reg Reg.tmuState) 2 then endSlew (s.waitTo s.tmu.slewEnd) else s)

/-- LOCK_EVT (R467): eight consecutive offsets inside or outside `LOCK_THR`. -/
def execLockEvt (s : State) : Host.Outcome State Fault Refusal :=
  done (if 8 ≤ s.tmu.inRun then setLocked true s
    else if 8 ≤ s.tmu.outRun then setLocked false s else s)

/-- The grandmaster is lost (R467). -/
def loseGm (s : State) : State :=
  let s := setLocked false s
  let s := s.onTmu fun t => { t with gm := none, hadGm := true, t1 := none, t2 := none, t3 := none, inRun := 0, outRun := 0 }
  ((endSlew s).tmuBit 1 true).tmuBit 5 false |>.event Reg.tmuStat 3

/-- `ANN_TMO` announce intervals, in ns (R462, R486). -/
def State.annTimeout (s : State) : Nat :=
  let n := s.field Reg.tmuPtpCfg 27 24
  let n := if n < 2 then 3 else n
  let l := wrapN 4 (s.field Reg.tmuPtpCfg 23 20)
  if l < 0 then n * 10 ^ 9 / 2 ^ l.natAbs else n * 10 ^ 9 * 2 ^ l.natAbs

/-- HOLDOVER (R467): `ANN_TMO` intervals without an Announce. -/
def execHoldover (s : State) : Host.Outcome State Fault Refusal :=
  done (if s.tmu.gm.isSome ∧ !s.transmits then loseGm (s.waitTo (s.tmu.annAt + s.annTimeout)) else s)

/-! ### Messages (R462, R463) -/

/-- Half of a number of nanoseconds; the half left over is a free choice (log 11). -/
def half (x : Int) : Int := if x % 2 = 0 then x / 2 else if Config.halfUp x then (x + 1) / 2 else x / 2

/-- The device's stamps for a frame sent now and for one received (R463). -/
def State.txStamp (s : State) : Int := (s.tmu.ns : Int) + s.field (Reg.ethPhyDly s.ptpPort) 15 0
def State.rxStamp (s : State) (m : PtpMsg) : Int := m.rxNs - s.field (Reg.ethPhyDly s.ptpPort) 31 16

/-- `PTP_ADDR` as bytes. -/
def State.ptpAddr (s : State) : Bytes := wordBytes (s.reg Reg.tmuPtpAddrLo) ++ leBytes 2 (s.field Reg.tmuPtpAddrHi 15 0)

/-- The device's clock identity: its address with 0xFF, 0xFE after the third byte (R462). -/
def State.clockBytes (s : State) : Bytes := s.ptpAddr.take 3 ++ [0xFF, 0xFE] ++ s.ptpAddr.drop 3
def State.clockId (s : State) : BitVec 64 := BitVec.ofNat 64 (leNat s.clockBytes)

/-- A number as IEEE 1588 writes it, most significant byte first. -/
def beBytes (n v : Nat) : Bytes := (leBytes n v).reverse

/-- A PTP message (R462; the layout of IEEE 1588-2019 and the values that R462 does not state are PRESUMED, log 13):
header, a time stamp, and the rest of its body. -/
def State.ptpBody (s : State) (t : PtpTag) (stamp : Int) : Bytes :=
  let rest : Bytes := match t.kind with
    | 2 => zeros 10
    | 3 | 9 | 10 => t.who
    | 11 => beBytes 2 (s.field Reg.tmuUtcOfs 15 0) ++ [0, 128, 248, 0xFE, 0xFF, 0xFF, 128] ++ s.clockBytes ++ [0, 0, 0xA0]
    | _ => []
  let two : Byte := if t.kind = 0 ∨ t.kind = 3 then 2 else 0
  let scale : Byte := if t.kind = 11 then 8 + BitVec.ofNat 8 (4 * b2n (bit (s.reg Reg.tmuUtcOfs) 16)) else 0
  let control : Byte := match t.kind with | 0 => 0 | 1 => 1 | 8 => 2 | 9 => 3 | _ => 5
  let every : Int := match t.kind with
    | 0 | 8 => wrapN 4 (s.field Reg.tmuPtpCfg 19 16)
    | 11 => wrapN 4 (s.field Reg.tmuPtpCfg 23 20)
    | 9 => 0
    | _ => 127
  let ns := stamp.toNat
  [BitVec.ofNat 8 t.kind, 0x12] ++ beBytes 2 (44 + rest.length) ++ leBytes 1 s.ptpDomain ++ [0, two, scale]
    ++ beBytes 8 (((if t.kind = 3 then 0 else t.corr) * 65536) % 2 ^ 64).toNat ++ zeros 4 ++ s.clockBytes ++ [0, 1] ++ beBytes 2 t.seq
    ++ [control, BitVec.ofNat 8 ((every % 256).toNat)] ++ beBytes 6 (ns / 10 ^ 9) ++ beBytes 4 (ns % 10 ^ 9) ++ rest

/-- Its Ethernet frame: peer-delay messages have an address of their own (R462). -/
def State.ptpFrame (s : State) (t : PtpTag) (stamp : Int) : EthFrame :=
  let dst : Bytes := if t.kind = 2 ∨ t.kind = 3 ∨ t.kind = 10 then [0x01, 0x80, 0xC2, 0x00, 0x00, 0x0E]
    else [0x01, 0x1B, 0x19, 0x00, 0x00, 0x00]
  { data := dst ++ s.ptpAddr ++ [0x88, 0xF7] ++ s.ptpBody t stamp, ptp := some t }

/-- A frame as it leaves: padded to 60 bytes, with its FCS (R505). -/
def onWire (data : Bytes) : Bytes :=
  let p := padTo (max 60 data.length) data
  p ++ leBytes 4 (crc32 p)

/-- A PTP message goes through the PTP queue of the MAC when the fabric is on, else directly on the always-on path
(R468, R475). -/
def ptpOut (t : PtpTag) (stamp : Int) (s : State) : State :=
  let f := s.ptpFrame t stamp
  if s.up then s.onMac s.ptpPort fun m => { m with ptp := m.ptp ++ [f] } else s.emit (.eth s.ptpPort 0 (onWire f.data))

/-- A PTP message leaves now, and its stamp is taken (R462, R463): that of a request is kept, that of a Sync or of a
Pdelay_Resp follows it in a message of its own. -/
def ptpSent (t : PtpTag) (s : State) : State :=
  match t.kind with
  | 0 => ptpOut { t with kind := 8 } s.txStamp s
  | 3 => ptpOut { t with kind := 10 } s.txStamp s
  | 1 => if t.seq = s.tmu.delaySeq then s.onTmu fun x => { x with t3 := some s.txStamp } else s
  | 2 => if t.seq = s.tmu.peerSeq then s.onTmu fun x => { x with pd1 := some s.txStamp } else s
  | _ => s

/-- Send a PTP message, which carries a stamp of its own if it is an answer. -/
def sendPtp (t : PtpTag) (stamp : Int) (s : State) : State :=
  let s' := ptpOut t stamp s
  if s.up then s' else ptpSent t s'

/-- Send a message under the next sequence number. -/
def sendNext (kind : Nat) (s : State) : State :=
  sendPtp { kind := kind, seq := s.tmu.seqId } 0 (s.onTmu fun t => { t with seqId := (t.seqId + 1) % 65536 })

/-- A Sync exchange gives t1 and t2: the peer-to-peer profile measures at once, the request-response
profile asks for the path delay. -/
def syncDone (t1 : Int) (s : State) : State :=
  match s.tmu.t2 with
  | none => s
  | some t2 =>
    let s := s.onTmu fun t => { t with t1 := some t1 }
    if s.peerDelay then
      let s' := sendNext 2 (s.onTmu fun t => { t with pd1 := none, pd2 := none, pd4 := none, peerSeq := t.seqId })
      match s.tmu.path with
      | some d => measure (t2 - t1 - d) s'
      | none => s'
    else sendNext 1 (s.onTmu fun t => { t with t3 := none, delaySeq := t.seqId })

/-- A peer-delay exchange is complete: the link delay is half of what its stamps give (R463). -/
def linkDelay (twice : Int) (s : State) : State :=
  showPath (half twice) (s.onTmu fun t => { t with path := some (half twice), pd1 := none, pd2 := none, pd4 := none })

/-- An Announce: the first sender in the domain becomes grandmaster; one after a loss sets `GM_CHANGE`
(DEDUCED, log 14). -/
def announce (m : PtpMsg) (s : State) : State :=
  let utc (s : State) := s.setReg Reg.tmuUtcOfs (w32 (m.utcOfs.toNat + 65536 * b2n m.utcValid))
  match s.tmu.gm with
  | some g => if g = m.source then utc (s.onTmu fun t => { t with annAt := s.inn.uptime }) else s
  | none =>
    let s := if s.tmu.hadGm then s.event Reg.tmuStat 4 else s
    let s := s.onTmu fun t => { t with gm := some m.source, annAt := s.inn.uptime }
    let s := (s.setReg Reg.tmuGmIdLo (lo64 m.source)).setReg Reg.tmuGmIdHi (hi64 m.source)
    utc (s.tmuBit 5 true)

/-- A message in the time-receiver role: an answer counts for the request in progress alone. -/
def receiverMessage (m : PtpMsg) (s : State) : State :=
  let mine := decide (s.tmu.gm = some m.source)
  let asked := decide (m.requester = s.clockId)
  match m.kind with
  | 11 => announce m s
  | 0 =>
    if mine then
      let s := s.onTmu fun t => { t with t2 := some (s.rxStamp m - m.correction), syncSeq := m.seqId, t1 := none }
      if m.twoStep then s else syncDone m.originNs s
    else s
  | 8 => if mine && decide (m.seqId = s.tmu.syncSeq) && s.tmu.t1.isNone then syncDone (m.originNs + m.correction) s else s
  | 9 =>
    match s.tmu.t1, s.tmu.t2, s.tmu.t3 with
    | some t1, some t2, some t3 =>
      if mine && asked && decide (m.seqId = s.tmu.delaySeq) then
        let t4 := m.originNs - m.correction
        let s := s.onTmu fun t => { t with t3 := none }
        let d := half ((t2 - t1) + (t4 - t3))
        measure (t2 - t1 - d) (showPath d s)
      else s
    | _, _, _ => s
  | 3 =>
    match s.tmu.pd1 with
    | some p1 =>
      if !asked || decide (m.seqId ≠ s.tmu.peerSeq) then s
      else if m.twoStep then s.onTmu fun t => { t with pd2 := some (m.originNs - m.correction), pd4 := some (s.rxStamp m) }
      else linkDelay (s.rxStamp m - p1 - m.correction) s
    | none => s
  | 10 =>
    match s.tmu.pd1, s.tmu.pd2, s.tmu.pd4 with
    | some p1, some p2, some p4 =>
      if !asked || decide (m.seqId ≠ s.tmu.peerSeq) then s
      else linkDelay ((p4 - p1) - (m.originNs + m.correction - p2)) s
    | _, _, _ => s
  | _ => s

/-- Answer a request (R462): a Delay_Resp with the request's stamp and correction; a Pdelay_Resp with its stamp, whose
Follow_Up carries the correction. -/
def ptpAnswer (kind : Nat) (m : PtpMsg) (s : State) : State :=
  sendPtp { kind := kind, seq := m.seqId, who := leBytes 8 m.source.toNat ++ beBytes 2 m.portNo.toNat, corr := m.correction } (s.rxStamp m) s

/-- PTP_MESSAGE (R462): a message on the PTP port in the domain; others are discarded. A transmitter
answers Delay_Req and Pdelay_Req; a receiver of the peer-to-peer profile answers Pdelay_Req. -/
def execPtpMessage (m : PtpMsg) (s : State) : Host.Outcome State Fault Refusal :=
  done (
    if !s.ptpRuns || decide (m.port ≠ s.ptpPort) || decide (m.domain ≠ s.ptpDomain) then s
    else if s.transmits then
      (if m.kind = 1 then ptpAnswer 9 m s else if m.kind = 2 then ptpAnswer 3 m s else s)
    else if m.kind = 2 ∧ s.peerDelay then ptpAnswer 3 m s
    else receiverMessage m s)

/-- PTP_SYNC_SEND (R462): a time transmitter sends Sync, two-step. -/
def execPtpSyncSend (s : State) : Host.Outcome State Fault Refusal :=
  done (if s.ptpRuns && s.transmits then sendNext 0 s else s)

/-- ANNOUNCE_SEND (R462): a time transmitter sends Announce. -/
def execAnnounceSend (s : State) : Host.Outcome State Fault Refusal :=
  done (if s.ptpRuns && s.transmits then sendNext 11 s else s)

/-- The sealing guard in ns, within its bounds (R486). -/
def State.guard (s : State) : Nat := max 200 (min 50000 (s.field Reg.tmuGuard 15 0))

/-- The time alarm in ns since the epoch (R471). -/
def State.alarmNs (s : State) : Nat :=
  ((s.reg Reg.tmuAlarmSecLo).toNat + s.field Reg.tmuAlarmSecHi 15 0 * 2 ^ 32) * 10 ^ 9
    + min 999999999 (s.reg Reg.tmuAlarmNs).toNat

/-- The number of the period nearest to the running one with the given low bits (R118). -/
def State.nearPeriod (s : State) (low : Word) : Nat :=
  ((s.tmu.period : Int) + seqDiff low (w32 s.tmu.period)).toNat

end Sys2Proof.Machine
end

