-- ==== Sys2Proof/Machine/Sram.lean ====
section
/-!
DEFINITION. Shared SRAM with SECDED (R60, R555) and the memory windows of the loop engines (R194 to
R196).
-/
namespace Sys2Proof.Machine

/-! ### Shared SRAM -/

/-- Bytes of shared SRAM: 12 MiB (R35). -/
def sramSize : Nat := 0xC00000
/-- Where the device's own area begins (R101). -/
def sramOwn : Nat := 0x980000

/-- Data of aligned 64-bit word `w` as encoded, and the soft errors it has taken. -/
def State.sramData (s : State) (w : Nat) : BitVec 64 :=
  BitVec.ofNat 64 (leNat (Map.getRun (fun _ => 0) s.sram (8 * w) 8))
def State.sramErr (s : State) (w : Nat) : BitVec 64 := Map.get (fun _ => 0) s.sramFlip w

/-- Number of 1 bits. -/
def popcount (m : BitVec 64) : Nat := ((List.range 64).filter m.getLsbD).length

/-- Store a whole word: a new code word, without errors. -/
def setSramWord (s : State) (w : Nat) (v : BitVec 64) : State :=
  { s with sram := Map.setRun (fun _ => 0) s.sram (8 * w) (leBytes 8 v.toNat),
           sramFlip := Map.set (fun _ => 0) s.sramFlip w 0 }

/-- A single error corrected: `SRAM_CE` and its count (R60). -/
def sramCe (s : State) : State := (s.event Reg.sysStat 0).countUp Reg.sysEccCnt 15 0 1

/-- A double error detected at word `w`: `SRAM_UE`, its count and the address (R60). -/
def sramUe (w : Nat) (s : State) : State :=
  ((s.event Reg.sysStat 1).countUp Reg.sysEccCnt 31 16 1).setReg Reg.sysEccAddr (w32 (8 * w + 2 ^ 31))

/-- Every read of a word (R60): a single error is corrected and written back, a double error is
detected and leaves the stored bits; with three or more flipped bits the outcome is free. The
Boolean says that the word is uncorrectable. -/
def eccRead (s : State) (w : Nat) : (BitVec 64 × Bool) × State :=
  let d := s.sramData w
  let m := s.sramErr w
  let n := popcount m
  if n = 0 then ((d, false), s)
  else if n = 1 then ((d, false), sramCe (setSramWord s w d))
  else if n = 2 then ((d ^^^ m, true), sramUe w s)
  else match Config.eccWide d m with
    | (0, x) => ((x, false), s)
    | (1, x) => ((x, false), sramCe (setSramWord s w x))
    | _ => ((d ^^^ m, true), sramUe w s)

/-- Read words from `w`; the number tells how many came before the first uncorrectable one. -/
def eccRun (s : State) (w : Nat) : Nat → (Bytes × Option Nat) × State
  | 0 => (([], none), s)
  | k + 1 =>
    let r := eccRead s w
    let q := eccRun r.2 (w + 1) k
    ((leBytes 8 r.1.1.toNat ++ q.1.1, if r.1.2 then some 0 else q.1.2.map (· + 1)), q.2)

/-- Read `n` bytes from offset `o`: the bytes, and at which of them the first uncorrectable word
begins. -/
def sramRead (s : State) (o n : Nat) : (Bytes × Option Nat) × State :=
  if n = 0 then (([], none), s)
  else
    let w := o / 8
    let r := eccRun s w ((o + n - 1) / 8 - w + 1)
    (((r.1.1.drop (o % 8)).take n, r.1.2.map (fun k => 8 * k - o % 8)), r.2)

/-- Write the bytes that fall into word `w`, `o` being where they start. A write of less than the word
reads it first and is dropped when that read is uncorrectable (R60). The Boolean says it was. -/
def sramWriteWord (s : State) (o : Nat) (p : Bytes) : Bool × State :=
  let w := o / 8
  if o % 8 = 0 ∧ p.length = 8 then (false, setSramWord s w (BitVec.ofNat 64 (leNat p)))
  else
    let r := eccRead s w
    if r.1.2 then (true, r.2)
    else
      let b := leBytes 8 r.1.1.toNat
      (false, setSramWord r.2 w (BitVec.ofNat 64 (leNat (b.take (o % 8) ++ p ++ b.drop (o % 8 + p.length)))))

/-- Write bytes word by word; `k` bounds the number of words. -/
def sramWriteGo (s : State) (o : Nat) (p : Bytes) : Nat → Bool × State
  | 0 => (false, s)
  | k + 1 =>
    if p.isEmpty then (false, s)
    else
      let n := min p.length (8 - o % 8)
      let r := sramWriteWord s o (p.take n)
      let q := sramWriteGo r.2 (o + n) (p.drop n) k
      (r.1 || q.1, q.2)

/-- Write bytes at offset `o`; the Boolean says that part of it was dropped. -/
def sramWrite (s : State) (o : Nat) (p : Bytes) : Bool × State := sramWriteGo s o p (p.length + 1)

/-- Write the lanes that are given of word `w`; a whole word is a new code word, no lane at all is no
write, and the others are a read-modify-write (R60, R555). -/
def sramPut (s : State) (w : Nat) (l : List (Option Byte)) : Bool × State :=
  if l.all (·.isNone) then (false, s)
  else if l.length = 8 ∧ l.all (·.isSome) then
    (false, setSramWord s w (BitVec.ofNat 64 (leNat (l.map (·.getD 0)))))
  else
    let r := eccRead s w
    if r.1.2 then (true, r.2)
    else
      let old := leBytes 8 r.1.1.toNat
      (false, setSramWord r.2 w (BitVec.ofNat 64 (leNat (((l ++ List.replicate (8 - l.length) none).zip old).map fun (e : Option Byte × Byte) => e.1.getD e.2))))

/-- Write lanes word by word, the first of them lane 0 of word `w`; `k` bounds the number of words. -/
def sramLanes (s : State) (w : Nat) (l : List (Option Byte)) : Nat → State
  | 0 => s
  | k + 1 => if l.isEmpty then s else sramLanes (sramPut s w (l.take 8)).2 (w + 1) (l.drop 8) k

/-- Soft errors: toggle stored bits, numbered byte address times 8 plus bit. -/
def sramUpset (s : State) (flips : List Nat) : State :=
  flips.foldl (fun s b =>
    if b < sramSize * 8 then
      { s with sramFlip := Map.set (fun _ => 0) s.sramFlip (b / 64) (s.sramErr (b / 64) ^^^ BitVec.ofNat 64 (2 ^ (b % 64))) }
    else s) s

/-- SCRUB_PASS_DONE (R60): every word has been read, in rising order. DESIGN CHOICE (log 46): the order in
which a pass visits the words is open. -/
def execScrubPassDone (flips : List Nat) (s : State) : Host.Outcome State Fault Refusal :=
  done (if s.up then
    let s := sramUpset s flips
    ((s.sramFlip.map Prod.fst).foldl (fun s w => (eccRead s w).2) s).event Reg.sysStat 2
  else s)

/-- The bytes of an SRAM range that the host sees: the device's own area reads 0 (R101). -/
def hostSramRead (s : State) (o n : Nat) : Bytes × State :=
  if !s.sramOn || decide (sramSize < o + n) then (zeros n, s)
  else
    let k := if sramOwn ≤ o then 0 else min n (sramOwn - o)
    let r := sramRead s o k
    (r.1.1 ++ zeros (n - k), r.2)

/-- A host write to SRAM of the bytes that its byte enables select (R555); bytes in the device's own area
are ignored (R101). -/
def hostSramLanes (s : State) (o : Nat) (p : List (Option Byte)) : State :=
  if !s.sramOn || decide (sramSize < o + p.length) then s
  else
    let l := if sramOwn ≤ o then [] else p.take (sramOwn - o)
    sramLanes s (o / 8) (List.replicate (o % 8) none ++ l) (l.length / 8 + 2)

/-- A host write to SRAM of every byte. -/
def hostSramWrite (s : State) (o : Nat) (p : Bytes) : State := hostSramLanes s o (p.map some)

/-- SHARED_SRAM_ACCESS (R555): a write of `data`, whose bytes are given where their enables are set, or with
no data a read of `read` bytes. With the quad-SPI link every access is an aligned word. -/
def execSharedSramAccess (offset : Nat) (data : List (Option Byte)) (read : Nat) (flips : List Nat) (s : State) :
    Host.Outcome State Fault Refusal :=
  let s := sramUpset s flips
  let bad := s.qspi && decide (offset % 4 ≠ 0)
  done (
    if !s.serves then s
    else if data.isEmpty then
      let r := if bad then (zeros read, s) else hostSramRead s offset read
      r.2.onBus fun b => { b with rdata := r.1 }
    else if bad then s
    else hostSramLanes s offset data)

/-! ### Loop-engine memory windows (R39, R194 to R196) -/

/-- An offset of an engine's window is memory: data at 0 to 0x1FFFF, kernels at 0x20000 to 0x27FFF. -/
def leMemoryAt (o : Nat) : Bool := decide (o < 0x28000)

/-- The engine's table is active (`TTB[n].STATE.ACTIVE`). -/
def State.tableActive (s : State) (le : Nat) : Bool := bit (s.reg (Reg.ttbState le)) 1

/-- A 32-bit host or DMA write at window offset `o`: at once while the table is not active; else to the
write queue for data memory, or ignored for kernel memory (R195). -/
def leHostWrite (le o : Nat) (v : Word) (s : State) : State :=
  if !s.up || !s.engineThere le || !leMemoryAt o || decide (o % 4 ≠ 0) then s
  else if !s.tableActive le then s.setLeWord le o v
  else if o < 0x20000 then
    if (s.eng le).writeQ.length < 64 then s.onEng le fun e => { e with writeQ := e.writeQ ++ [(o, v)] }
    else s.event (Reg.leStat le) 0
  else s.event (Reg.leStat le) 1

/-- A 32-bit read at window offset `o`: committed values (R196). -/
def leHostRead (le o : Nat) (s : State) : Word :=
  if !s.up || !s.engineThere le || !leMemoryAt o || decide (o % 4 ≠ 0) then 0 else s.leWord le o

/-- LE_MEMORY_WRITE (R195). -/
def execLeMemoryWrite (le offset : Nat) (val : Word) (s : State) : Host.Outcome State Fault Refusal :=
  done (if s.serves then leHostWrite le offset val s else s)

/-- Apply the write queue at the boundary, in arrival order (R195). -/
def applyWriteQueue (s : State) (le : Nat) : State :=
  let q := (s.eng le).writeQ
  if q.isEmpty then s
  else (q.foldl (fun s e => s.setLeWord le e.1 e.2) s).onEng le fun e => { e with writeQ := [] }

end Sys2Proof.Machine
end

