-- ==== Sys2Proof/Machine/Dma.lean ====
section
/-!
DEFINITION. The DMA engine (chapter 19, R490 to R506).
-/
namespace Sys2Proof.Machine

/-! ### Descriptors (R491) -/

def dOp (d : Bytes) : Nat := Bytes.num d 0 1
def dFlag (d : Bytes) (n : Nat) : Bool := Nat.testBit (Bytes.num d 1 1) n
def dStatus (d : Bytes) : Nat := Bytes.num d 2 1
def dLen (d : Bytes) : Nat := Bytes.num d 4 4
def dSrc (d : Bytes) : Nat := Bytes.num d 8 8
def dDst (d : Bytes) : Nat := Bytes.num d 16 8
def dNext (d : Bytes) : Nat := Bytes.num d 24 8
def dSstride (d : Bytes) : Int := Bytes.sint d 32 4
def dDstride (d : Bytes) : Int := Bytes.sint d 36 4
def dEsize (d : Bytes) : Nat := Bytes.num d 40 2
def dLanes (d : Bytes) : Nat := Bytes.num d 42 2
def dSrcDev (d : Bytes) : Bool := dFlag d 0
def dDstDev (d : Bytes) : Bool := dFlag d 1
def dEnd (d : Bytes) : Bool := dFlag d 3

/-- The launch time of a timed frame in ns (R505). -/
def dLaunch (d : Bytes) : Nat :=
  (Bytes.num d 36 4 + Bytes.num d 40 2 * 2 ^ 32) * 10 ^ 9 + Bytes.num d 32 4

/-- The pieces of a transfer: source address, destination address, bytes (R494, R495). BITPLANE moves
its planes whole on one side and its packed bytes on the other, so its pieces are those of one side. -/
def transposeAt (d : Bytes) (i : Nat) : Int × Int :=
  let r := i % dLanes d
  let c := i / dLanes d
  ((dSrc d : Int) + r * dSstride d + (c * dEsize d : Nat), (dDst d : Int) + c * dDstride d + (r * dEsize d : Nat))

/-- The source pieces of a descriptor. -/
def srcPieces (d : Bytes) : List (Int × Nat) :=
  if dOp d = 1 then (List.range (dLen d / dEsize d)).map fun i => ((transposeAt d i).1, dEsize d)
  else if dOp d = 2 ∧ dFlag d 5 then
    (List.range (dLanes d)).map fun (b : Nat) => ((dSrc d : Int) + b * dSstride d, dLen d / dLanes d)
  else [((dSrc d : Int), dLen d)]

/-- The destination pieces of a descriptor. -/
def dstPieces (d : Bytes) : List (Int × Nat) :=
  if dOp d = 1 then (List.range (dLen d / dEsize d)).map fun i => ((transposeAt d i).2, dEsize d)
  else if dOp d = 2 ∧ !dFlag d 5 then
    (List.range (dLanes d)).map fun (b : Nat) => ((dDst d : Int) + b * dDstride d, dLen d / dLanes d)
  else [((dDst d : Int), dLen d)]

/-- Bit `n` of a run of bytes. -/
def bitAt (p : Bytes) (n : Nat) : Bool := (p.getD (n / 8) 0).getLsbD (n % 8)

/-- Bytes from bits. -/
def packBits (f : Nat → Bool) (n : Nat) : Bytes :=
  (List.range n).map fun i => BitVec.ofNat 8 ((List.range 8).foldl (fun v k => v + b2n (f (8 * i + k)) * 2 ^ k) 0)

/-- Packed pixels to planes, one after the other (R495). -/
def toPlanes (lanes : Nat) (p : Bytes) : Bytes :=
  (List.range lanes).flatMap fun b => packBits (fun j => bitAt p (j * lanes + b)) (p.length / lanes)

/-- Planes to packed pixels (R495). -/
def fromPlanes (lanes : Nat) (p : Bytes) : Bytes :=
  packBits (fun n => bitAt p ((n % lanes) * (p.length / lanes * 8) + n / lanes)) p.length

/-- The data of a descriptor, in the order of its destination pieces. -/
def shapeData (d : Bytes) (p : Bytes) : Bytes :=
  if dOp d = 2 then (if dFlag d 5 then fromPlanes (dLanes d) p else toPlanes (dLanes d) p) else p

/-! ### Device space (R492) -/

/-- A device-space range lies whole in one area. -/
def State.devRange (s : State) (a : Int) (n : Nat) : Bool :=
  if a < 0 then false
  else
    let x := a.toNat
    if x < 0x10000000 then decide (x + n ≤ sramOwn)
    else
      let le := (x - 0x10000000) / 0x40000
      let o := (x - 0x10000000) % 0x40000
      s.engineThere le && (decide (o + n ≤ 0x20000) || decide (0x20000 ≤ o ∧ o + n ≤ 0x28000))

/-- Words of an engine's memory as bytes. -/
def leReadRun (le o : Nat) (s : State) : Nat → Bytes
  | 0 => []
  | k + 1 => wordBytes (leHostRead le o s) ++ leReadRun le (o + 4) s k

/-- Read a device-space range: the bytes, and how many came before the first uncorrectable word. -/
def devRead (s : State) (x n : Nat) : (Bytes × Option Nat) × State :=
  if x < 0x10000000 then sramRead s x n
  else
    let o := (x - 0x10000000) % 0x40000
    ((((leReadRun ((x - 0x10000000) / 0x40000) (o - o % 4) s ((o % 4 + n + 3) / 4)).drop (o % 4)).take n, none), s)

/-- Write a device-space range; the Boolean says that a narrow write was dropped (R60). Of a word of an engine's memory
that the range holds only in part the other bytes stay (DESIGN CHOICE, log 15). -/
def devWrite (s : State) (x : Nat) (p : Bytes) : Bool × State :=
  if x < 0x10000000 then sramWrite s x p
  else
    let le := (x - 0x10000000) / 0x40000
    let o := (x - 0x10000000) % 0x40000
    let b := o % 4
    let old := leReadRun le (o - b) s ((b + p.length + 3) / 4)
    let all := old.take b ++ p ++ old.drop (b + p.length)
    (false, ((bytesWords all).foldl (fun (q : State × Nat) v => (leHostWrite le q.2 v q.1, q.2 + 4)) (s, o - b)).1)

/-! ### Channel state -/

def State.dmaState (s : State) (ch : Nat) : Nat := s.field (Reg.dmaChState ch) 2 0
def State.setDma (s : State) (ch st : Nat) : State := s.setField (Reg.dmaChState ch) 2 0 st
def State.chainDev (s : State) (ch : Nat) : Bool := bit (s.reg (Reg.dmaChCfg ch)) 2
def State.dmaCur (s : State) (ch : Nat) : Nat := s.reg64 (Reg.dmaChCurLo ch) (Reg.dmaCurHi ch)
def State.setCur (s : State) (ch a : Nat) : State := s.setReg64 (Reg.dmaChCurLo ch) (Reg.dmaCurHi ch) a

/-- Set a bit of `CH[n].STAT` and the channel's summary bit (R490, R515). -/
def chStat (ch n : Nat) (s : State) : State := (s.event (Reg.dmaChStat ch) n).event Reg.dmaStat ch

/-- The channel is set up by firmware (R490). -/
def firmwareCh (ch : Nat) : Bool := decide (22 ≤ ch)

/-- The host link carries bus-master accesses (R95, R503). -/
def State.masters (s : State) : Bool := !s.qspi && s.power.pcieUp && s.power.busMaster

/-- Halt a channel: 1 `CHAIN_BROKEN`, 2 `LOOP` (R500, R502). -/
def haltCh (ch cause : Nat) (s : State) : State :=
  chStat ch 2 ((s.setDma ch 4).setField (Reg.dmaChState ch) 5 4 cause |>.onDch ch fun c => { c with desc := none, queued := false })

/-- `CTRL.START`: an idle or halted channel clears its count and takes `HEAD` (R498). -/
def dmaStart (ch : Nat) (s : State) : State :=
  if s.dmaState ch = 0 ∨ s.dmaState ch = 4 then
    let s := s.setReg (Reg.dmaChState ch) 1
    let s := s.setCur ch (s.reg64 (Reg.dmaChHeadLo ch) (Reg.dmaChHeadHi ch))
    s.setDch ch {}
  else s

/-- Enter `IDLE` by a stop (R499). -/
def stopped (ch : Nat) (s : State) : State := chStat ch 3 ((s.setDma ch 0).setDch ch {})

/-- `CTRL.STOP` (R499). -/
def dmaStop (ch : Nat) (s : State) : State :=
  match s.dmaState ch with
  | 1 => if (s.dch ch).desc.isSome then s.setDma ch 5 else stopped ch s
  | 2 => stopped ch s
  | 3 => stopped ch s
  | _ => s

/-- `CTRL.KICK` and the poll: a `WAIT_OWN` descriptor is fetched again (R493). -/
def dmaKick (ch : Nat) (s : State) : State :=
  if s.dmaState ch = 2 then s.onDch ch fun c => { c with refetch := true } else s

/-- A host write of `CH[n].CTRL`. -/
def dmaCtrl (ch : Nat) (v : Word) (s : State) : State :=
  if firmwareCh ch then chStat ch 5 s
  else
    let s := if bit v 0 then dmaStart ch s else s
    let s := if bit v 1 then dmaStop ch s else s
    if bit v 2 then dmaKick ch s else s

/-- WAIT_OWN_POLL (R493): every 10 µs. -/
def execWaitOwnPoll (ch : Nat) (s : State) : Host.Outcome State Fault Refusal :=
  done (if s.up ∧ ch < 32 then dmaKick ch s else s)

/-! ### Fetch (R493, R500, R502, R503) -/

/-- The address of a descriptor is valid: aligned, and in device space in shared SRAM. -/
def State.descAddr (s : State) (ch a : Nat) : Bool :=
  decide (a % 16 = 0) && (if s.chainDev ch then s.devRange a 48 else !s.qspi)

/-- The pieces lie in their memories; in loop-engine memory the address and `LEN` are multiples of 4 (R492). -/
def State.piecesOk (s : State) (dev : Bool) (addr len : Nat) (l : List (Int × Nat)) : Bool :=
  if dev then l.all (fun p => s.devRange p.1 p.2) && decide (addr < 0x10000000 ∨ addr % 4 = 0 ∧ len % 4 = 0) else !s.qspi

/-- The format check of a fetched descriptor (R491 to R495, R505, R506). Word 44 is 0, but where the device itself has
written it (DEDUCED, log 15). -/
def State.formatOk (s : State) (ch : Nat) (d : Bytes) : Bool :=
  let len := dLen d
  decide (1 ≤ len ∧ len ≤ 16777216) && !dFlag d 7 && decide (Bytes.num d 3 1 = 0 ∧ (dOp d = 5 ∨ Bytes.num d 44 4 = 0))
    && (dEnd d || s.descAddr ch (dNext d))
    && (match dOp d with
      | 0 => s.piecesOk (dSrcDev d) (dSrc d) len (srcPieces d) && s.piecesOk (dDstDev d) (dDst d) len (dstPieces d)
      | 1 =>
        decide (dEsize d ∈ [1, 2, 4, 8] ∧ 1 ≤ dLanes d ∧ len % (dLanes d * dEsize d) = 0)
          && s.piecesOk (dSrcDev d) (dSrc d) len (srcPieces d) && s.piecesOk (dDstDev d) (dDst d) len (dstPieces d)
      | 2 =>
        decide (dLanes d ∈ [1, 2, 4, 8] ∧ len % dLanes d = 0)
          && s.piecesOk (dSrcDev d) (dSrc d) len (srcPieces d) && s.piecesOk (dDstDev d) (dDst d) len (dstPieces d)
      | 4 =>
        decide (18 ≤ ch ∧ ch ≤ 21 ∧ 14 ≤ len ∧ len ≤ 1518) && (decide (ch < 20) || dFlag d 6)
          && s.piecesOk (dSrcDev d) (dSrc d) len [((dSrc d : Int), len)]
      | 5 => decide (16 ≤ ch ∧ ch ≤ 17 ∧ 1522 ≤ len) && s.piecesOk (dDstDev d) (dDst d) len [((dDst d : Int), len)]
      | _ => false)

/-- After a descriptor has completed: its count, `DONE`, `END`, the stop, or the next one (R497 to
R499). -/
def nextDesc (ch : Nat) (d : Bytes) (s : State) : State :=
  let s := s.countUp (Reg.dmaChState ch) 31 16 1
  let s := if dFlag d 2 then chStat ch 0 s else s
  let stopping := decide (s.dmaState ch = 5)
  let s := s.setDch ch {}
  if dEnd d then
    let s := chStat ch 4 (s.setDma ch 0)
    if stopping then chStat ch 3 s else s
  else
    let s := s.setCur ch (dNext d)
    if stopping then stopped ch s else s.setDma ch 1

/-- Write bytes of a descriptor back where it lies; the Boolean says that the write-back failed. -/
def writeBackAt (ch off : Nat) (p : Bytes) (fails : Bool) (s : State) : Bool × State :=
  if s.chainDev ch then devWrite s (s.dmaCur ch + off) p
  else if fails || !s.masters then (true, s)
  else (false, s.emit (.hostWrite (BitVec.ofNat 64 (s.dmaCur ch + off)) p))

/-- Complete the descriptor in flight with a status; words 32 to 47 are written first when given
(R497, R505, R506). A failed write-back halts the channel (R502). -/
def complete (ch : Nat) (d : Bytes) (status : Nat) (extra : Bytes) (fails : Bool) (s : State) : State :=
  let bad := decide (2 ≤ status ∧ status ≤ 5)
  let s := if bad then (chStat ch 1 s).countUp Reg.dmaBadCnt 31 0 1 else s
  let r := if extra.isEmpty then (false, s) else writeBackAt ch 32 extra fails s
  let q := writeBackAt ch 2 (leBytes 1 status) fails r.2
  if r.1 || q.1 then haltCh ch 1 q.2 else nextDesc ch d q.2

/-- Take a fetched descriptor: wait for ownership, mark a bad format, or put it in flight (R493). -/
def takeDesc (ch : Nat) (d : Bytes) (fails : Bool) (s : State) : State :=
  if dFlag d 4 ∧ dStatus d ≠ 0 then (s.setDma ch 2).setDch ch {}
  else
    let s := s.setDma ch 1
    if s.formatOk ch d then s.setDch ch { desc := some d } else complete ch d 5 [] fails s

/-- One fetch: the budget first, then the link, then the descriptor itself (R500, R503, R502). `failed`: the fetch of a
descriptor in host memory fails, or that of one with a bad format comes and its `STATUS` write-back fails. -/
def fetchDesc (ch : Nat) (host : Bytes) (failed : Bool) (s : State) : State :=
  let budget := s.field (Reg.dmaChCfg ch) 31 16
  let a := s.dmaCur ch
  if budget ≠ 0 ∧ budget ≤ s.field (Reg.dmaChState ch) 31 16 then haltCh ch 2 s
  else if !s.chainDev ch && !s.qspi && !s.masters then s.setDma ch 3
  else if !s.descAddr ch a then haltCh ch 1 s
  else if s.chainDev ch then
    let r := devRead s a 48
    if r.1.2.isSome then haltCh ch 1 r.2 else takeDesc ch r.1.1 false r.2
  else
    let d := padTo 48 host
    if failed && (host.isEmpty || s.formatOk ch d || (dFlag d 4 && decide (dStatus d ≠ 0))) then haltCh ch 1 s
    else takeDesc ch d failed s

/-- DESCRIPTOR_FETCH (R493): a running channel at a descriptor boundary, or one told to look again. A power-down that has
begun lets no channel go on (R504). -/
def execDescriptorFetch (ch : Nat) (host : Bytes) (failed : Bool) (s : State) :
    Host.Outcome State Fault Refusal :=
  let c := s.dch ch
  done (if s.up ∧ s.cap 11 ∧ ch < 32 ∧ c.desc = none
      ∧ !s.power.cut ∧ (s.dmaState ch = 1 ∨ (s.dmaState ch = 2 ∧ c.refetch)) then fetchDesc ch host failed s
    else s)

/-! ### Data (R494 to R497, R501) -/

/-- Read the pieces in device space: the bytes and how many came before an uncorrectable word. -/
def readPieces (s : State) : List (Int × Nat) → (Bytes × Option Nat) × State
  | [] => (([], none), s)
  | (a, n) :: rest =>
    let r := devRead s a.toNat n
    match r.1.2 with
    | some k => ((r.1.1.take k, some k), r.2)
    | none =>
      let q := readPieces r.2 rest
      ((r.1.1 ++ q.1.1, q.1.2), q.2)

/-- Write data over the pieces of one side; the Boolean says that a narrow write was dropped. -/
def writePieces (dev : Bool) (s : State) (p : Bytes) : List (Int × Nat) → Bool × State
  | [] => (false, s)
  | (a, n) :: rest =>
    if p.isEmpty then (false, s)
    else
      let b := p.take n
      let r := if dev then devWrite s a.toNat b else (false, s.emit (.hostWrite (BitVec.ofInt 64 a) b))
      let q := writePieces dev r.2 (p.drop n) rest
      (r.1 || q.1, q.2)

/-- Move the data of a descriptor. When the source ends early the amount already written is free
(DESIGN CHOICE, log 15: R501 does not state it). The answer is the status. -/
def moveData (d host : Bytes) (busError : Bool) (s : State) : Nat × State :=
  let r := if dSrcDev d then readPieces s (srcPieces d) else ((host.take (dLen d), none), s)
  let lost := !dSrcDev d && (busError || !s.masters || decide (host.length < dLen d))
  let ue := dSrcDev d && r.1.2.isSome
  let out := !dDstDev d && !r.2.masters
  if lost || ue || out then
    let k := r.2.draw
    let n := Config.num k.1 % (r.1.1.length + 1)
    let q := if out || decide (dOp d = 2) then (false, k.2)
      else writePieces (dDstDev d) k.2 (r.1.1.take (n - n % 8)) (dstPieces d)
    (if ue then 3 else 2, q.2)
  else
    let q := writePieces (dDstDev d) r.2 (shapeData d r.1.1) (dstPieces d)
    (if q.1 then 3 else if busError then 2 else 1, q.2)

/-- The frame of an `ETH_TX` descriptor goes to its MAC's queue: best effort on channels 18 and 19,
timed on 20 and 21 (R505). Best-effort descriptors complete now; timed ones when sent or dropped. -/
def queueFrame (ch : Nat) (d frame : Bytes) (fails : Bool) (s : State) : State :=
  let tagged := decide (Bytes.num frame 12 2 = 0x0081)
  if !tagged ∧ 1514 < frame.length then complete ch d 5 [] fails s
  else if ch < 20 then
    complete ch d 1 [] fails (s.onMac (ch - 18) fun m => { m with best := m.best ++ [{ data := frame, ch := 32 }] })
  else
    (s.onMac (ch - 20) fun m => { m with timed := m.timed ++ [{ data := frame, launch := dLaunch d, ch := ch }] }).onDch ch
      fun c => { c with queued := true }

/-- DESCRIPTOR_COMPLETE (R497): the data of the descriptor in flight is moved and its status written. For a receive
buffer it is the bus error of the frame that is being placed (R501), for it and for a frame in a MAC's queue the
write-back that fails (R502); without either, frames complete them (R505, R506). -/
def execDescriptorComplete (ch : Nat) (host : Bytes) (busError writeBackFails : Bool) (s : State) :
    Host.Outcome State Fault Refusal :=
  done (match (s.dch ch).desc with
    | none => s
    | some d =>
      if !s.up then s
      else if (s.dch ch).queued then (if writeBackFails then haltCh ch 1 s else s)
      else match dOp d with
        | 5 => if busError then complete ch d 2 [] writeBackFails s else if writeBackFails then haltCh ch 1 s else s
        | 4 =>
          let r := if dSrcDev d then devRead s (dSrc d) (dLen d) else ((host.take (dLen d), none), s)
          if r.1.2.isSome then complete ch d 3 [] writeBackFails r.2
          else if !dSrcDev d && (busError || !s.masters || decide (host.length < dLen d)) then
            complete ch d 2 [] writeBackFails r.2
          else queueFrame ch d r.1.1 writeBackFails r.2
        | _ =>
          let r := moveData d host busError s
          complete ch d r.1 [] writeBackFails r.2)

/-! ### Link loss and power-down (R503, R504) -/

/-- A descriptor in flight at the loss of the host link meets a bus error, if it moves data of host memory (R501, R503). A
receive buffer meets it when its frame comes, and a frame that stands in a MAC's queue has been read. -/
def linkCut (s : State) : State :=
  (List.range 32).foldl (fun s ch =>
    match (s.dch ch).desc with
    | none => s
    | some d =>
      if s.masters || (s.dch ch).queued || decide (dOp d = 5) || (dSrcDev d && (decide (dOp d = 4) || dDstDev d)) then s
      else complete ch d 2 [] false s) s

/-- A channel that paused for the host link runs again (R503). -/
def resumeDma (s : State) : State :=
  if s.masters then
    (List.range 32).foldl (fun s ch => if s.dmaState ch = 3 then s.setDma ch 1 else s) s
  else s

/-- POWER_DOWN_DEFER_EXPIRY (R504): the descriptor in flight is marked and the power-down goes on. -/
def cutDesc (s : State) (ch : Nat) : State :=
  match (s.dch ch).desc with
  | none => s
  | some d => complete ch d 4 [] false s

/-- A descriptor in flight delays a power-down (R504). -/
def State.dmaBusy (s : State) : Bool := (List.range 32).any (fun ch => (s.dch ch).desc.isSome)

/-- The channel registers that are views: `ACTIVE` and `LOAD` (R515). -/
def State.dmaView (s : State) (a : Nat) : Option Word :=
  if a = Reg.dmaActive then
    some (w32 ((List.range 32).foldl (fun v ch => v + b2n (s.dmaState ch != 0) * 2 ^ ch) 0))
  else none

end Sys2Proof.Machine
end

