-- ==== Sys2Proof/Machine/Net.lean ====
section
/-!
DEFINITION. The Ethernet MACs and the CAN FD controllers (chapter 18, R473 to R488).
-/
namespace Sys2Proof.Machine

/-! ### Ethernet: receiving (R474, R506) -/

/-- A MAC runs: its block answers and `CFG.EN` is set. -/
def State.macOn (s : State) (m : Nat) : Bool := s.answers 0x05 m && bit (s.reg (Reg.ethCfg m)) 0

/-- One 802.1Q tag stands after the addresses. -/
def tagged (frame : Bytes) : Bool := decide ((frame.drop 12).take 2 = [0x81, 0x00])

/-- The EtherType, behind a tag if there is one. -/
def etherType (frame : Bytes) : Bytes := (frame.drop (if tagged frame then 16 else 12)).take 2

/-- A pause frame, with or without a tag (R473; its form PRESUMED from IEEE 802.3, log 19). -/
def pauseFrame (frame : Bytes) : Bool :=
  decide ((frame.drop (if tagged frame then 16 else 12)).take 4 = [0x88, 0x08, 0x00, 0x01])

/-- The station address of a MAC as bytes. -/
def State.macAddr (s : State) (m : Nat) : Bytes :=
  wordBytes (s.reg (Reg.ethMacLo m)) ++ leBytes 2 (s.field (Reg.ethMacHi m) 15 0)

/-- A frame is addressed to the host (R474 step 4). -/
def State.ethToHost (s : State) (m : Nat) (frame : Bytes) : Bool :=
  let dst := frame.take 6
  decide (dst = s.macAddr m) || decide (dst = List.replicate 6 0xFF)
    || (bit (s.reg (Reg.ethCfg m)) 2 && (dst.getD 0 0).getLsbD 0)
    || bit (s.reg (Reg.ethCfg m)) 3

/-- A stamp as the device writes it: nanoseconds and 48 bits of seconds. -/
def stampBytes (ns : Nat) : Bytes := leBytes 4 (ns % 10 ^ 9) ++ leBytes 6 (ns / 10 ^ 9)

/-- A frame for which the host has no buffer is discarded (R474 step 4). -/
def rxDrop (m : Nat) (s : State) : State := (s.countUp (Reg.ethRxDrop m) 31 0 1).event (Reg.ethStat m) 2

/-- Place a frame in the receive channel's current descriptor (R506); without the host link its data meets a bus error
(R501, R503). -/
def ethToChannel (m : Nat) (frame : Bytes) (s : State) : State :=
  let ch := 16 + m
  match (s.dch ch).desc with
  | none => rxDrop m s
  | some d =>
    if !s.cap 11 || decide (s.dmaState ch ≠ 1 ∨ dOp d ≠ 5) then rxDrop m s
    else if !dDstDev d && !s.masters then complete ch d 2 [] false s
    else
      let q := writePieces (dDstDev d) s frame [((dDst d : Int), dLen d)]
      let rx := s.tmu.ns - s.field (Reg.ethPhyDly m) 31 16
      let extra := leBytes 4 frame.length ++ stampBytes rx ++ leBytes 2 (b2n (tagged frame))
      complete ch d (if q.1 then 3 else 1) extra false q.2

/-! ### Ethernet: sending (R475, R476, R505) -/

/-- The moment at which a timed frame begins: its launch time less `PHY_DLY.TX`. -/
def State.launchAt (s : State) (m : Nat) (f : EthFrame) : Nat := f.launch - s.field (Reg.ethPhyDly m) 15 0

/-- The latest launch of a timed frame. -/
def State.latestAt (s : State) (m : Nat) (f : EthFrame) : Nat := f.launch + s.field (Reg.ethLateTol m) 15 0

/-- Start a frame of queue `q` (0 PTP, 1 safe, 2 timed, 3 best effort). -/
def ethStart (m q : Nat) (f : EthFrame) (s : State) : State :=
  let s := (s.emit (.eth m q (onWire f.data))).countUp (Reg.ethTxFrames m) 31 0 1
  match f.ptp with | some t => ptpSent t s | none => s

/-- Start the timed frame at the head of the queue: its stamp and its descriptor. -/
def startTimed (m : Nat) (f : EthFrame) (s : State) : State :=
  let t := s.tmu.ns + s.field (Reg.ethPhyDly m) 15 0
  let s := ethStart m 2 f (s.onMac m fun x => { x with timed := x.timed.drop 1 })
  let s := (s.setReg (Reg.ethTxTsNs m) (w32 (t % 10 ^ 9))).setReg (Reg.ethTxTsSec m) (w32 (t / 10 ^ 9))
  let s := s.event (Reg.ethStat m) 4
  match (s.dch f.ch).desc with
  | some d => if (s.dch f.ch).queued then complete f.ch d 1 (stampBytes t) false s else s
  | none => s

/-- Drop the timed frame at the head of the queue (R476). -/
def dropTimed (m : Nat) (f : EthFrame) (s : State) : State :=
  let s := s.onMac m fun x => { x with timed := x.timed.drop 1 }
  let s := (s.countUp (Reg.ethLateCnt m) 31 0 1).event (Reg.ethStat m) 3
  match (s.dch f.ch).desc with
  | some d => if (s.dch f.ch).queued then complete f.ch d 6 [] false s else s
  | none => s

/-- Transmission time of a frame in ns, with preamble and FCS. -/
def State.lineTime (s : State) (m : Nat) (f : EthFrame) : Nat :=
  (12 + max 60 f.data.length) * (if bit (s.reg (Reg.ethCfg m)) 1 then 80 else 8)

/-- The guard holds back a best-effort frame whose transmission would overlap the next launch. -/
def State.guarded (s : State) (m : Nat) (f : EthFrame) : Bool :=
  bit (s.reg (Reg.ethCfg m)) 4 &&
    (match (s.mac m).timed with
      | t :: _ => decide (s.launchAt m t < s.tmu.ns + s.lineTime m f)
      | [] => false)

/-- ETH_FRAME_TRANSMIT (R475): the line is idle; the next frame in strict priority starts. A timed
frame waits for its launch time, and one that is late is not started. -/
def execEthFrameTransmit (m : Nat) (s : State) : Host.Outcome State Fault Refusal :=
  let x := s.mac m
  done (
    if !s.macOn m then s
    else match x.ptp, x.safe, x.timed, x.best with
      | f :: _, _, _, _ => ethStart m 0 f (s.onMac m fun x => { x with ptp := x.ptp.drop 1 })
      | [], f :: _, _, _ => ethStart m 1 f (s.onMac m fun x => { x with safe := x.safe.drop 1 })
      | [], [], f :: _, b =>
        if s.launchAt m f ≤ s.tmu.ns ∧ s.tmu.ns ≤ s.latestAt m f then startTimed m f s
        else (match b with
          | g :: _ => if s.guarded m g then s
            else ethStart m 3 g (s.onMac m fun x => { x with best := x.best.drop 1 })
          | [] => s)
      | [], [], [], g :: _ => ethStart m 3 g (s.onMac m fun x => { x with best := x.best.drop 1 })
      | [], [], [], [] => s)

/-- TIMED_FRAME_LAUNCH (R476): the head of the timed queue starts at its launch time, unless a frame of
a higher queue takes the line. -/
def execTimedFrameLaunch (m : Nat) (s : State) : Host.Outcome State Fault Refusal :=
  let x := s.mac m
  done (
    if !s.macOn m || !x.ptp.isEmpty || !x.safe.isEmpty then s
    else match x.timed with
      | f :: _ =>
        let s := s.advanceTo (s.launchAt m f)
        if s.tmu.ns ≤ s.latestAt m f then startTimed m f s else s
      | [] => s)

/-- TIMED_FRAME_LATE (R476): the head of the timed queue is later than its launch time + `LATE_TOL`. -/
def execTimedFrameLate (m : Nat) (s : State) : Host.Outcome State Fault Refusal :=
  done (
    if !s.macOn m then s
    else match (s.mac m).timed with
      | f :: _ => if s.latestAt m f < s.tmu.ns then dropTimed m f s else s
      | [] => s)

/-- LINK_EVT (R473, R487): the link goes up or down. -/
def execLinkEvt (m : Nat) (up slow : Bool) (s : State) : Host.Outcome State Fault Refusal :=
  done (if s.answers 0x05 m && decide (bit (s.reg (Reg.ethLink m)) 0 ≠ up) then
    let v : Nat := if up then 1 + 2 * b2n slow else s.field (Reg.ethLink m) 1 1 * 2
    (s.setReg (Reg.ethLink m) (w32 v)).event (Reg.ethStat m) 0
  else s)

/-! ### CAN: the controller (R477 to R484) -/

/-- Confinement: 0 error-active, 1 error-passive, 2 bus-off. -/
def State.canConf (s : State) (c : Nat) : Nat := s.field (Reg.canState c) 1 0
def State.canDetecting (s : State) (c : Nat) : Bool := bit (s.reg (Reg.canState c)) 2

/-- `CFG.MODE`, 3 taken as 0. -/
def State.canMode (s : State) (c : Nat) : Nat := let m := s.field (Reg.canCfg c) 2 1; if m = 3 then 0 else m

/-- The controller is on the bus and not bus-off. -/
def State.canOn (s : State) (c : Nat) : Bool :=
  s.answers 0x06 c && bit (s.reg (Reg.canCfg c)) 0 && decide (s.canConf c ≠ 2)

/-- The controller may send: not while it listens only, nor once its error counter calls for bus-off. -/
def State.canSends (s : State) (c : Nat) : Bool :=
  s.canOn c && decide (s.canMode c ≠ 1) && !s.canDetecting c && !(s.can c).listen && !(s.can c).above

/-- The controller takes frames from the bus: in internal loop-back only while a detection has it listen (R484). -/
def State.canHears (s : State) (c : Nat) : Bool := s.canOn c && (decide (s.canMode c ≠ 2) || (s.can c).listen)

/-- An identifier with `NODE.OFFSET` added where its `ADD_OFS` is set (R479); the offset counts in the
identifier's own unit, which for a standard one is bit 18 (DEDUCED, log 17). -/
def State.canIdent (s : State) (c : Nat) (w : Word) (add : Bool) : Nat :=
  let ofs := s.field (Reg.canNode c) 7 0 * (if bit w 29 then 1 else 2 ^ 18)
  (bits w 28 0 + (if add then ofs else 0)) % 2 ^ 29

/-- Identifier of transmit entry `j`; 8 is the island's. -/
def State.txIdent (s : State) (c j : Nat) : Nat :=
  if j = 8 then match (s.can c).island with | some (w, _) => bits w 28 0 | none => 0
  else let w := s.reg (Reg.canTxe c (20 * j)); s.canIdent c w (bit w 31)

/-- Pending entries that may go out, with the island's last: FD frames with `CFG.FD_EN` alone. -/
def State.canPending (s : State) (c : Nat) : List Nat :=
  let fd := bit (s.reg (Reg.canCfg c)) 3
  ((List.range 8).filter fun j => bit (s.reg (Reg.canTxReq c)) j && (fd || !bit (s.reg (Reg.canTxe c (20 * j) + 4)) 4))
    ++ (if (s.can c).island.isSome && fd then [8] else [])

/-- The first of a list by identifier, the earlier of equals (R481). -/
def lowest (f : Nat → Nat) : List Nat → Option Nat
  | [] => none
  | a :: r => match lowest f r with
    | some b => some (if f b < f a then b else a)
    | none => some a

/-- An attempt begins as soon as an entry is pending and none is on the bus (DESIGN CHOICE, log 18). -/
def canStart (c : Nat) (s : State) : State :=
  if s.canSends c ∧ (s.can c).onBus = none then
    s.onCan c fun x => { x with onBus := lowest (s.txIdent c) (s.canPending c), sof := s.tmu.ns }
  else s

/-- An attempt ends without success: an abort of its entry takes effect (R481). -/
def attemptOver (c : Nat) (s : State) : State :=
  match (s.can c).onBus with
  | none => s
  | some e =>
    let s := if (s.can c).abort.getLsbD e && decide (e < 8) then s.lower (Reg.canTxReq c) (bitw e) else s
    s.onCan c fun x => { x with onBus := none, abort := 0 }

/-- Set both error counters; entering error-passive sets `STAT.PASSIVE` (R482). `REC` stays at 128 while passive by
receive (R488). -/
def canCounters (c tec rec : Nat) (s : State) : State :=
  let s := (s.setReg (Reg.canErr c) (w32 (min 255 tec + 256 * min 128 rec))).onCan c fun x => { x with above := decide (255 < tec) }
  let passive := decide (128 ≤ tec ∨ 128 ≤ rec)
  if s.canConf c = 2 then s
  else
    let s' := s.setField (Reg.canState c) 1 0 (b2n passive)
    if passive && decide (s.canConf c = 0) then s'.event (Reg.canStat c) 3 else s'

/-- A frame received without error lowers `REC` (R482; PRESUMED, log 19: the steps of ISO 11898-1, by
which a passive receiver falls to between 119 and 127). -/
def goodReceive (c : Nat) (s : State) : State :=
  let tec := s.field (Reg.canErr c) 7 0
  let rec_ := s.field (Reg.canErr c) 15 8
  if rec_ = 0 then s
  else if rec_ < 128 then canCounters c tec (rec_ - 1) s
  else
    let k := s.draw
    canCounters c tec (119 + Config.num k.1 % 9) k.2

/-- The first enabled filter that a frame matches (R479). -/
def State.canFilter (s : State) (c : Nat) (f : CanFrame) : Option Nat :=
  (List.range 16).find? fun i =>
    let w := s.reg (Reg.canFiltId c i)
    bit w 31 && decide (bit w 29 = f.ide)
      && decide (Nat.land (Nat.xor f.id.toNat (s.canIdent c w (bit w 30))) (s.field (Reg.canFiltMask c i) 28 0) = 0)

/-- Write bytes into registers from an address, word by word; a last part word keeps its other bytes. -/
def regBytes (s : State) (a : Nat) (p : Bytes) : State :=
  (List.range ((p.length + 3) / 4)).foldl (fun s i =>
    let d := (p.drop (4 * i)).take 4
    s.setReg (a + 4 * i) (w32 (leNat (d ++ (wordBytes (s.reg (a + 4 * i))).drop d.length)))) s

/-- A time as the controller's clock of 80 MHz stamps it: the last edge of 12.5 ns, in whole ns (R478; log 18). -/
def canStamp (t : Nat) : Nat := 2 * t / 25 * 25 / 2

/-- The two stamp words of an entry. -/
def canStampAt (a t : Nat) (s : State) : State :=
  (s.setReg (a + 8) (w32 (canStamp t / 10 ^ 9))).setReg (a + 12) (w32 (canStamp t % 10 ^ 9))

/-- Store a received frame in the next entry, or lose it (R480). Data bytes beyond the frame's own stay
as they are in the entry. -/
def canStore (c i : Nat) (f : CanFrame) (s : State) : State :=
  let e := (s.can c).next
  if bit (s.reg (Reg.canRxOwn c)) e then (s.countUp (Reg.canRxLost c) 15 0 1).event (Reg.canStat c) 2
  else
    let a := Reg.canRxe c (20 * e)
    let s := s.setReg a (w32 (f.id.toNat + 2 ^ 29 * b2n f.ide + 2 ^ 30 * b2n f.rtr))
    let s := s.setReg (a + 4) (w32 (f.dlc.toNat + 16 * b2n f.fdf + 32 * b2n f.brs + 64 * b2n f.esi + 256 * i))
    let s := canStampAt a (s.tmu.ns - f.age) s
    let s := regBytes s (a + 16) (if f.rtr then [] else f.data.take 64)
    let s := s.onCan c fun x => { x with next := (e + 1) % 32 }
    (s.raise (Reg.canRxOwn c) (bitw e)).event (Reg.canStat c) 0

/-- A good frame during rate detection: two in a row are a match (R484). -/
def detectHit (c : Nat) (s : State) : State :=
  let x := s.can c
  if x.hits = 0 then s.onCan c fun x => { x with hits := 1 }
  else
    let s := s.setReg (Reg.canNbt c) (s.reg (Reg.canDetNbt c x.cand) &&& 0x3FFFFFFF)
    let s := s.setReg (Reg.canDbt c) (s.reg (Reg.canDetDbt c x.cand) &&& 0x07FFFFFF)
    let s := s.setReg (Reg.canDetect c) (w32 (x.cand + 4))
    let s := s.setField (Reg.canState c) 2 2 0
    s.event (Reg.canStat c) 5

/-- The frame of a transmit entry, as it goes on the bus now. -/
def State.txFrame (s : State) (c j : Nat) : CanFrame :=
  let a := Reg.canTxe c (20 * j)
  let w := s.reg a
  let ctl := s.reg (a + 4)
  { id := BitVec.ofNat 29 (s.txIdent c j), ide := bit w 29, rtr := bit w 30, fdf := bit ctl 4,
    brs := bit ctl 5, esi := bit ctl 6, dlc := BitVec.ofNat 4 (bits ctl 3 0),
    data := (List.range 16).flatMap (fun i => wordBytes (s.reg (a + 16 + 4 * i))), age := s.tmu.ns - (s.can c).sof }

/-- Data bytes of a DLC (ISO 11898-1). PRESUMED (log 19). -/
def dlcBytes (fdf : Bool) (dlc : Nat) : Nat :=
  if dlc ≤ 8 then dlc else if !fdf then 8 else [12, 16, 20, 24, 32, 48, 64].getD (dlc - 9) 64

/-- A write of `TX_REQ` (R481). -/
def canTxReq (c : Nat) (v : Word) (s : State) : State :=
  canStart c (s.raise (Reg.canTxReq c) (v &&& 0xFF))

/-- A write of `TX_ABORT` (R481): an entry on the bus waits for the end of its attempt. -/
def canTxAbort (c : Nat) (v : Word) (s : State) : State :=
  (List.range 8).foldl (fun s j =>
    if bit v j then
      if (s.can c).onBus = some j then
        s.onCan c fun x => { x with abort := x.abort ||| BitVec.ofNat 8 (2 ^ j) }
      else s.lower (Reg.canTxReq c) (bitw j)
    else s) s

/-- A write of `RX_RET` (R480). -/
def canRxRet (c : Nat) (v : Word) (s : State) : State := s.lower (Reg.canRxOwn c) v

/-- Enter recovery (R482). -/
def canRecover (c : Nat) (s : State) : State :=
  if s.canConf c = 2 then s.setField (Reg.canState c) 3 3 1 else s

/-- BUS_OFF (R482): a controller whose transmit error counter has passed 255 enters bus-off. -/
def execBusOff (c : Nat) (s : State) : Host.Outcome State Fault Refusal :=
  done (if s.canOn c && (s.can c).above then
    let s := attemptOver c s
    let s := (s.setField (Reg.canState c) 1 0 2).event (Reg.canStat c) 4
    if bit (s.reg (Reg.canCfg c)) 4 then canRecover c s else s
  else s)

/-- CAN_RECOVERY_DONE (R482): the counters restart at 0 (ISO 11898-1; PRESUMED, log 19). -/
def execCanRecoveryDone (c : Nat) (s : State) : Host.Outcome State Fault Refusal :=
  done (if s.answers 0x06 c && decide (s.canConf c = 2) && bit (s.reg (Reg.canState c)) 3 then
    canStart c (((s.setReg (Reg.canErr c) 0).onCan c fun x => { x with above := false }).setReg (Reg.canState c) (s.reg (Reg.canState c) &&& ~~~ 0xB#32))
  else s)

/-- How an error raises the counters (ISO 11898-1; PRESUMED, log 19): a transmitter's by 8, but not that of an
error-passive one which alone misses its acknowledgement (R482, the lone node); a receiver's by 1, or by 8 where
it reads a dominant bit behind its error flag. -/
def canPenalty (tx ack dominant passive : Bool) (tec rec_ : Nat) : Nat × Nat :=
  if tx then (if ack && passive && !dominant then (tec, rec_) else (tec + 8, rec_))
  else (tec, if dominant then rec_ + 8 else rec_ + 1)

/-- CAN_BUS_ERROR (R482): an error raises the counters and ends the attempt of a transmitter; it breaks a run of good
frames during detection. -/
def execCanBusError (c : Nat) (tx ack dominant : Bool) (s : State) : Host.Outcome State Fault Refusal :=
  done (if s.canOn c then
    let n := canPenalty tx ack dominant (decide (s.canConf c = 1)) (s.field (Reg.canErr c) 7 0) (s.field (Reg.canErr c) 15 8)
    let s := if tx then attemptOver c s else s
    let s := if s.canDetecting c then s.onCan c fun x => { x with hits := 0 } else s
    canStart c (canCounters c n.1 n.2 s)
  else s)

/-- The candidates from `k` on that are tried (R484). -/
def State.detectNext (s : State) (c k : Nat) : Option Nat :=
  (List.range 4).find? fun i => decide (k ≤ i) && s.reg (Reg.canDetNbt c i) != 0

/-- Try the next candidate, or end the pass without a match (R484). -/
def detectTry (c k : Nat) (s : State) : State :=
  match s.detectNext c k with
  | some i => s.onCan c fun x => { x with cand := i, hits := 0 }
  | none =>
    let s := (s.setField (Reg.canState c) 2 2 0).event (Reg.canStat c) 6
    canStart c (s.onCan c fun x => { x with listen := false })

/-- `CTRL.DETECT` (R484). -/
def canDetect (c : Nat) (s : State) : State :=
  let s := attemptOver c s
  detectTry c 0 ((s.setField (Reg.canState c) 2 2 1).onCan c fun x => { x with listen := true })

/-- DETECT_CANDIDATE_TIMEOUT (R484). -/
def execDetectCandidateTimeout (c : Nat) (s : State) : Host.Outcome State Fault Refusal :=
  done (if s.answers 0x06 c && s.canDetecting c then detectTry c ((s.can c).cand + 1) s else s)

/-- A write of `CTRL`. -/
def canCtrl (c : Nat) (v : Word) (s : State) : State :=
  let s := if bit v 0 then canRecover c s else s
  if bit v 1 then canDetect c s else s

/-- A write of `CFG`: an attempt ends where the controller may no longer send; listen-only of a
detection ends with the software's next choice of `MODE` (DEDUCED, log 17). -/
def canCfg (c : Nat) (v : Word) (s : State) : State :=
  let s := s.setReg (Reg.canCfg c) (v &&& 0xFF3F)
  let s := s.onCan c fun x => { x with listen := s.canDetecting c }
  canStart c (if s.canSends c then s else attemptOver c s)

end Sys2Proof.Machine
end

