-- ==== Sys2Proof/Machine/Acq.lean ====
section
/-!
DEFINITION. The acquisition engine (chapter 19, R507 to R516), its triggers, and the field link frames
that bring field triggers.
-/
namespace Sys2Proof.Machine

/-! ### Configuration (R507) -/

/-- A signal selector is in range. -/
def selectorOk (w : Word) : Bool :=
  let inst := bits w 15 8
  let wd := bits w 19 16
  decide (bits w 31 20 = 0) &&
    match bits w 7 0 with
    | 1 => decide (inst ≤ 127)
    | 2 => decide (inst ≤ 139 ∧ wd ≤ 7)
    | 3 => decide (inst ≤ 31 ∧ wd = 0)
    | 8 => decide (inst ≤ 7 ∧ wd = 0)
    | 4 => decide (inst = 0 ∧ wd = 0)
    | 5 => decide (inst = 0 ∧ wd = 0)
    | 6 => decide (inst = 0 ∧ wd = 0)
    | 7 => decide (inst = 0 ∧ wd = 0)
    | _ => false

/-- The offset of the first field of an `ACQ_CONFIG` payload that is out of range. -/
def State.acqBad (s : State) (p : Bytes) : Option Nat :=
  let log2 := Bytes.num p 16 4
  let sram := Nat.testBit (Bytes.num p 4 4) 0
  if 2 < Bytes.num p 0 1 then some 0
  else if Bytes.num p 1 1 = 0 ∨ 64 < Bytes.num p 1 1 then some 1
  else if Bytes.num p 2 2 = 0 then some 2
  else if 7 < Bytes.num p 4 4 then some 4
  else if Bytes.num p 8 8 % 4096 ≠ 0 then some 8
  else if log2 < 12 ∨ 24 < log2 then some 16
  else if !sram && s.qspi then some 8
  else if sram && !s.devRange (Bytes.num p 8 8) (2 ^ log2) || sram && decide (0x10000000 ≤ Bytes.num p 8 8) then some 8
  else if 63 < Bytes.num p 20 4 then some 20
  else ((List.range (Bytes.num p 1 1)).find? fun i => !selectorOk (Bytes.word p (32 + 4 * i))).map (32 + 4 * ·)

/-- Apply `ACQ_CONFIG`. -/
def acqConfig (p : Bytes) (s : State) : State :=
  let n := Bytes.num p 1 1
  let s := { s with acq :=
    { dec := Bytes.num p 2 2, flags := Bytes.word p 4, base := BitVec.ofNat 64 (Bytes.num p 8 8),
      log2 := Bytes.num p 16 4, trigEn := Bytes.word p 20, latchMask := Bytes.word p 24,
      fieldMask := Bytes.word p 28, sigs := (List.range n).map (fun i => Bytes.word p (32 + 4 * i)),
      seen := s.acq.seen, muteEnd := s.acq.muteEnd } }
  let s := s.setReg Reg.acqState (w32 (1 + 4 * Bytes.num p 0 1 + 256 * n))
  s.setReg Reg.acqDecEff (w32 (Bytes.num p 2 2))

def State.acqConfigured (s : State) : Bool := bit (s.reg Reg.acqState) 0
def State.acqRunning (s : State) : Bool := bit (s.reg Reg.acqState) 1
def State.acqLevel (s : State) : Nat := s.field Reg.acqState 7 4
/-- D of R508. -/
def State.acqD (s : State) : Nat := s.acq.dec * 2 ^ s.acqLevel
/-- The fill F of R513. -/
def State.acqFill (s : State) : Nat := (s.reg Reg.acqWr - s.reg Reg.acqRd).toNat

/-- The engine learns of a mark (R510). -/
def acqNote (type : Nat) (body : Bytes) (s : State) : State :=
  if s.acqRunning then s.onAcq fun a => { a with marks := a.marks ++ [(type, padTo 16 body)] } else s

/-- `ACQ_START` at its boundary (R508, R513). -/
def acqStart (s : State) : State :=
  let s := (s.setReg Reg.acqWr 0).setReg Reg.acqRd 0
  let s := s.setReg Reg.acqSeq 0
  let s := (s.setField Reg.acqState 7 4 0).setField Reg.acqState 1 1 1
  let s := s.setReg Reg.acqDecEff (w32 s.acqD)
  let s := s.onAcq fun a => { a with marks := [], gap := 0, high := 0, low := 0, rateDue := 0 }
  (acqNote 6 (leBytes 4 s.acqD) s).event Reg.acqStat 0

/-- `ACQ_STOP` at its boundary (R508). -/
def acqStop (s : State) : State :=
  if s.acqRunning then ((acqNote 7 [] s).setField Reg.acqState 1 1 0).event Reg.acqStat 1 else s

/-! ### Records (R508 to R510, R513, R514) -/

/-- Levels of the latch inputs after `INV`, `LAT.LEVEL` (R332). -/
def State.latLevel (s : State) : Word :=
  w32 ((List.range 32).foldl (fun v n => v + b2n ((s.latch n).level != bit (s.reg (Reg.latChCfg n)) 8) * 2 ^ n) 0)

/-- The word that a selector names, at this instant (R508); an absent unit reads 0. -/
def State.signal? (s : State) (w : Word) : Word :=
  let inst := bits w 15 8
  match bits w 7 0 with
  | 1 => if inst < s.part.slots then s.reg (Reg.axsRec (16 * inst + bits w 19 16)) else 0
  | 2 => Map.get (fun _ => 0) s.exchNext (8 * inst + bits w 19 16)
  | 3 => if s.cap 10 then s.reg (Reg.adcInSample inst) else 0
  | 4 => if s.cap 4 then s.reg Reg.fioIn else 0
  | 5 => if s.cap 8 then s.latLevel else 0
  | 6 => s.reg Reg.tmuOffset
  | 7 => wInt s.rho
  | 8 => if s.ringThere inst then s.reg (Reg.vlkRetLast inst) else 0
  | _ => 0

/-- Write bytes at ring offset `o`, wrapping at the end (R513). -/
def acqPut (o : Nat) (p : Bytes) (s : State) : State :=
  let size := 2 ^ s.acq.log2
  let k := size - o % size
  let put (at_ : Nat) (b : Bytes) (s : State) : State :=
    if b.isEmpty then s
    else if bit s.acq.flags 0 then (sramWrite s (s.acq.base.toNat + at_) b).2
    else s.emit (.hostWrite (BitVec.ofNat 64 (s.acq.base.toNat + at_)) b)
  put 0 (p.drop k) (put (o % size) (p.take k) s)

/-- The check of the fill after each record (R514): a change becomes due. -/
def acqCheck (data : Bool) (s : State) : State :=
  let f := s.acqFill
  let size := 2 ^ s.acq.log2
  let lvl := s.acqLevel
  s.onAcq fun a =>
    if size * 3 ≤ f * 4 then
      let h := if a.high = 0 then 1 else a.high + b2n data
      if (a.high = 0 ∨ h = 1025) ∧ lvl < 15 then { a with high := 1, low := 0, rateDue := 1 }
      else { a with high := if h = 1025 then 1 else h, low := 0 }
    else if f * 4 < size then
      let l := a.low + b2n data
      if l = 4096 ∧ 0 < lvl then { a with high := 0, low := 0, rateDue := -1 }
      else { a with high := 0, low := min l 4095 }
    else { a with high := 0, low := if data then 0 else a.low }

/-- Write one record that fits. -/
def acqRecord (type nsig : Nat) (body : Bytes) (s : State) : State :=
  let len := (16 + body.length + 15) / 16 * 16
  let h := leBytes 1 type ++ leBytes 1 nsig ++ leBytes 2 len ++ leBytes 4 s.tmu.period
    ++ wordBytes (s.reg Reg.acqSeq) ++ leBytes 1 s.acqLevel ++ zeros 3
  let s := acqPut (s.reg Reg.acqWr).toNat (padTo len (h ++ body)) s
  let s := s.setReg Reg.acqWr (s.reg Reg.acqWr + w32 len)
  acqCheck (decide (type = 1)) (s.setReg Reg.acqSeq (s.reg Reg.acqSeq + 1))

/-- A record is written if it fits whole, behind a `GAP` mark after a loss, else counted in `LOST`
(R513). A ring in host memory takes none without bus mastering (DESIGN CHOICE, log 20). -/
def acqWrite (type nsig : Nat) (body : Bytes) (s : State) : State :=
  let len := (16 + body.length + 15) / 16 * 16 + (if s.acq.gap = 0 then 0 else 32)
  if 2 ^ s.acq.log2 < s.acqFill + len ∨ (!bit s.acq.flags 0 && !s.masters) then
    ((s.onAcq fun a => { a with gap := a.gap + 1 }).countUp Reg.acqLost 31 0 1).event Reg.acqStat 3
  else
    let s := if s.acq.gap = 0 then s
      else acqRecord 5 0 (padTo 16 (leBytes 4 s.acq.gap)) s |>.onAcq fun a => { a with gap := 0 }
    acqRecord type nsig body s

/-- Order of marks at one sealing (R510); `START` first and `STOP` last (DESIGN CHOICE, log 20). -/
def markRank (m : Nat × Bytes) : Nat × Nat :=
  match m.1 with
  | 6 => (0, 0)
  | 2 => (1, Bytes.num m.2 4 4 + Bytes.num m.2 8 6 * 2 ^ 32)
  | 4 => (2, 0)
  | 3 => (3, 0)
  | _ => (4, 0)

/-- Put a mark in its place, behind those of equal rank. -/
def insertMark (m : Nat × Bytes) : List (Nat × Bytes) → List (Nat × Bytes)
  | [] => [m]
  | x :: r =>
    if (markRank m).1 < (markRank x).1 ∨ ((markRank m).1 = (markRank x).1 ∧ (markRank m).2 < (markRank x).2)
    then m :: x :: r else x :: insertMark m r

/-- Write one pending mark; `TRIGGER` counts (R516). -/
def acqMarkOut (s : State) (m : Nat × Bytes) : State :=
  let s := if m.1 = 2 then (s.countUp Reg.acqTrigCnt 31 0 1).event Reg.acqStat 4 else s
  acqWrite m.1 0 m.2 s

/-- A change of `LEVEL` that is due takes place (R514). -/
def acqRate (s : State) : State :=
  if s.acq.rateDue = 0 then s
  else
    let f := s.acqFill
    let lvl := ((s.acqLevel : Int) + s.acq.rateDue).toNat
    let s := s.setField Reg.acqState 7 4 lvl
    let s := s.setReg Reg.acqDecEff (w32 s.acqD)
    let s := s.onAcq fun a => { a with rateDue := 0 }
    (acqNote 3 (leBytes 4 s.acqD ++ leBytes 4 f) s).event Reg.acqStat 2

/-- ACQ_RATE_CHANGE (R514): the change that the fill asks for (log 21). -/
def execAcqRateChange (s : State) : Host.Outcome State Fault Refusal := done (acqRate s)

/-- The engine at the sealing of period k: the pending marks, then the data record (R508, R510). -/
def acqSeal (s : State) : State :=
  if !s.cap 1 then s
  else
    let s := acqRate s
    let marks := s.acq.marks.foldl (fun l m => insertMark m l) []
    let s := marks.foldl acqMarkOut (s.onAcq fun a => { a with marks := [] })
    if s.acqRunning ∧ s.tmu.period % (max 1 s.acqD) = 0 then
      acqWrite 1 s.acq.sigs.length (s.acq.sigs.flatMap (fun w => wordBytes (s.signal? w))) s
    else s

/-- A host write of `RD` (R513). -/
def acqRdWrite (v : Word) (s : State) : State :=
  if (v - s.reg Reg.acqRd).toNat ≤ s.acqFill then s.setReg Reg.acqRd v else s.event Reg.acqStat 5

/-! ### Triggers (R511, R512) -/

/-- A chain message: `TYPE`, `LEN`, body, CRC-32 (R384). -/
def chainFrame (type : Nat) (body : Bytes) : Bytes :=
  let h := leBytes 1 type ++ leBytes 1 body.length ++ body
  h ++ leBytes 4 (crc32 h)

/-- Send a chain message out of one port. -/
def chainSend (upstream : Bool) (type : Nat) (body : Bytes) (s : State) : State :=
  if bit (s.reg Reg.chnLink) (if upstream then 0 else 1) then s.emit (.chain upstream (chainFrame type body)) else s

/-- The device number (`STRAP_DEV3:0`). -/
def State.dev (s : State) : Nat := s.field Reg.chnCfg 3 0

/-- Mark a trigger: source (1 latch, 2 field, 3 line, 4 chain, 5 software), input, code, stamp. -/
def acqTrigger (source input code ns : Nat) (s : State) : State :=
  acqNote 2 (leBytes 1 source ++ leBytes 1 input ++ leBytes 2 code ++ stampBytes ns) s

/-- A latch, field or software trigger: marked, and passed on under `FLAGS` [1] and [2]. -/
def acqOwnTrigger (source input ns : Nat) (s : State) : State :=
  if !s.cap 1 || !s.acqConfigured then s
  else
    let code := source + 256 * input
    let s := acqTrigger source input code ns s
    let s := if bit s.acq.flags 1 then
        (s.emit .trigLine).onAcq fun a => { a with muteEnd := s.inn.uptime + 2000 }
      else s
    if bit s.acq.flags 2 then
      let body := leBytes 1 s.dev ++ leBytes 1 0 ++ leBytes 2 code ++ stampBytes ns ++ zeros 2
      chainSend false 2 body (chainSend true 2 body s)
    else s

/-- An accepted edge of a latch input (R511). -/
def acqLatch (input : Nat) (falling : Bool) (ns : Nat) (s : State) : State :=
  if bit s.acq.latchMask input ∧ bit s.acq.trigEn (if falling then 5 else 4) then
    acqOwnTrigger 1 input ns s else s

/-- Edges of field inputs as they reach the main die (R511). -/
def acqField (old new : Word) (s : State) : State :=
  (List.range 32).foldl (fun s n =>
    if bit old n ≠ bit new n ∧ bit s.acq.fieldMask n ∧ bit s.acq.trigEn (if bit new n then 2 else 3) then
      acqOwnTrigger 2 n s.tmu.ns s else s) s

/-- A write of `ACQ.CTRL` (R511). -/
def acqCtrl (v : Word) (s : State) : State := if bit v 0 then acqOwnTrigger 5 0 s.tmu.ns s else s

/-- ACQ_TRIG_LINE (R511): a falling edge on the ball, ignored while and shortly after the device drives
it itself. Its stamp has steps of 2.5 ns, and the command brings none: where it falls between two reference ticks is
free (log 20). -/
def execAcqTrigLine (s : State) : Host.Outcome State Fault Refusal :=
  done (if s.up && s.cap 1 && bit s.acq.trigEn 0 && decide (s.acq.muteEnd ≤ s.inn.uptime) then
    let d := s.draw
    acqTrigger 3 0 3 (s.tmu.ns + Config.num d.1 % 16 * 5 / 2) d.2 else s)

/-- A trigger message on a chain port (R512, R326): an own message and a copy within 1 ms are
discarded; others are forwarded, below 255 hops, and used under `TRIG_EN` [1]. -/
def chainTrigger (upstream : Bool) (b : Bytes) (s : State) : State :=
  let key := b.take 1 ++ b.drop 2
  let fresh := s.acq.seen.filter fun e => decide (s.inn.uptime < e.2 + 1000000)
  let origin := Bytes.num b 0 1 % 16
  if origin = s.dev then
    (if s.cap 1 then s.countUp Reg.acqDrops 31 0 1 else s).event Reg.chnStat 10
  else if fresh.any (fun e => decide (e.1 = key)) then
    (if s.cap 1 then s.countUp Reg.acqDrops 31 0 1 else s).onAcq fun a => { a with seen := fresh }
  else
    let s := s.onAcq fun a => { a with seen := fresh ++ [(key, s.inn.uptime)] }
    let hops := Bytes.num b 1 1
    let s := if hops = 255 then s
      else chainSend (!upstream) 2 (b.take 1 ++ leBytes 1 (hops + 1) ++ b.drop 2) s
    if s.cap 1 && bit s.acq.trigEn 1 then
      acqTrigger 4 origin (Bytes.num b 2 2) (Bytes.num b 4 4 + Bytes.num b 8 6 * 10 ^ 9) s
    else s

/-! ### The field link -/

/-- FIELD_LINK_FRAME (R447): one frame in each direction. A valid one carries `OUT_CMD` to the die, a
rearm unless an event clears `ARMED` in the same frame (R448), and the die's state back, with the L+ it measured, which
is free (R457; log 57). What was commanded on before a rearm stays off until it is commanded anew. -/
def execFieldLinkFrame (valid : Bool) (s : State) : Host.Outcome State Fault Refusal :=
  done (
    if !s.fieldLinked then s
    else if !valid then
      let s := s.onDie fun d => { d with errs := min 0xFFFF (d.errs + 1) }
      s.setReg Reg.fioLink (w32 s.die.errs)
    else
      let d := s.die
      let arms := d.rearm && !d.clearing && d.lplusOk
      let s := s.onDie fun d =>
        { d with
          linkUp := true, cmd := BitVec.ofNat 16 (s.reg Reg.fioOutCmd).toNat,
          armed := d.armed && !d.clearing || arms, rearm := false, clearing := false
          stale := (if arms then 0xFFFF else d.stale) &&& ~~~ d.written, written := 0 }
      let s := if arms then (List.range 4).foldl (fun s k => s.onIsland fun i =>
          let x : SafeOut := Map.get (fun _ => {}) i.outs k
          { i with outs := Map.set (fun _ => {}) i.outs k { x with stale := x.on } }) s else s
      let k := s.draw
      let s := k.2.setField Reg.fioLplus 15 0 (Config.num k.1 % 65536)
      let s := if arms then s.event Reg.fioStat 4 else s
      let old := s.reg Reg.fioIn
      let s := fioShow s
      acqField old (s.reg Reg.fioIn) s)

end Sys2Proof.Machine
end

