-- ==== Sys2Proof/Machine/Fbk.lean ====
section
/-!
DEFINITION. Local feedback channels, analog inputs, multi-turn channels and encoder emulation
(chapter 09, R223 to R232, R241 to R254).
-/
namespace Sys2Proof.Machine

/-! ### Slot mapping and states (R24, R151) -/

def State.axisType (s : State) (n : Nat) : Nat := s.pn n 0
def State.outKind (s : State) (n : Nat) : Nat := s.pn n 4
def State.rateM (s : State) (n : Nat) : Nat := 2 ^ s.pn n 2
def State.fbkSrc (s : State) (n : Nat) : Nat := s.pn n 10
def State.fbkCh (s : State) (n : Nat) : Nat := s.pn n 11

/-- The slot is due in period `k` (R150). -/
def State.dueIn (s : State) (n k : Nat) : Bool := decide (k % s.rateM n = s.pn n 3)

/-- ENABLED, MOVING or STOPPING. -/
def AxState.on : AxState → Bool
  | .enabled | .moving | .stopping => true
  | .disabled | .ready | .fault => false

def State.axOn (s : State) (n : Nat) : Bool := (s.axis n).state.on

/-- A signed 64-bit pair of exchange words of record `r` from word `w`, current copy (R178). -/
def State.exch64 (s : State) (r w : Nat) : Int :=
  (cat64 (Map.get (fun _ => 0) s.exchange (8 * r + w + 1)) (Map.get (fun _ => 0) s.exchange (8 * r + w))).toInt

/-! ### Digital channels (R226 to R230, R252) -/

/-- `CFG.MODE` in force, 5 to 7 taken as 0. -/
def FbkCh.mode (c : FbkCh) : Nat := let m := bits c.act 2 0; if m < 5 then m else 0

/-- `CFG.WIDTH`, outside 8 to 62 taken as 62. -/
def FbkCh.width (c : FbkCh) : Nat := let w := bits c.act 15 10; if w < 8 ∨ 62 < w then 62 else w

/-- `CFG` takes hold: a change of `MODE` clears the counts and sets `RESTART` (R252). -/
def fbkApply (n : Nat) (s : State) : State :=
  let c := s.fb n
  let v := s.reg (Reg.fbkChCfg n)
  if c.act = v then s
  else
    let new := { c with act := v }
    if new.mode = c.mode then s.setFb n new
    else
      let s := s.setFb n { act := v, a := c.a, b := c.b, restart := true, cur := c.cur, nxt := c.nxt }
      let s := ((s.setReg (Reg.fbkChCnt n) 0).setReg (Reg.fbkChIdxCnt n) 0).setReg (Reg.fbkChErrCnt n) 0
      s.setReg (Reg.fbkChPosHi n) 0

/-- A write of `CH[n].CFG`: at once below READY, else at the next boundary (R252). -/
def fbkCfg (n : Nat) (v : Word) (s : State) : State :=
  let s := s.setReg (Reg.fbkChCfg n) (v &&& 0xFFFFFF)
  if s.up then s else fbkApply n s

/-- Place of quadrature levels in the upward sequence, A leading. -/
def quadPlace (a b : Bool) : Nat := if a then (if b then 2 else 1) else (if b then 3 else 0)

/-- The direction flag and its hysteresis after a move of one count (R228). -/
def fbkDirection (n : Nat) (up : Bool) (s : State) : State :=
  let c := s.fb n
  if up ≠ c.down then s.setFb n { c with back := c.back - 1 }
  else if c.back + 1 < max 1 (s.field (Reg.fbkChDirHyst n) 15 0) then s.setFb n { c with back := c.back + 1 }
  else (s.setFb n { c with down := !c.down, back := 0, dirChg := true }).event Reg.fbkStat n

/-- Move the count by one (R226, R232). -/
def fbkCount (n : Nat) (up : Bool) (s : State) : State :=
  let v := s.reg (Reg.fbkChCnt n)
  fbkDirection n up (s.setReg (Reg.fbkChCnt n) (if up then v + 1 else v - 1))

/-- A phase error or a quadrant skip: the count stays (R226, R232). -/
def fbkPhase (n : Nat) (s : State) : State :=
  (s.onFb n fun c => { c with phase := true }).event (Reg.fbkChCstat n) 6

/-- New filtered levels of A and B: a count, or a phase error (R226). -/
def fbkLevels (n : Nat) (a b : Bool) (s : State) : State :=
  let c := s.fb n
  let step := (quadPlace a b + 4 - quadPlace c.a c.b) % 4
  let s1 := s.setFb n { c with a := a, b := b }
  if c.mode ≠ 1 ∨ step = 0 then s1
  else if step = 2 then fbkPhase n s1
  else fbkCount n (decide (step = 1) != bit c.act 3) s1

/-- Consecutive samples of a line with the same level, as far as a filter can ask for. -/
def runNext (run : Nat) (old new : Bool) : Nat := if new == old then min 16 (run + 1) else 1

/-- One 5 ns sample of A and B: a level is taken after `FILT` + 1 equal samples (R226). -/
def fbkLine (n : Nat) (a b : Bool) (s : State) : State :=
  let c := s.fb n
  let need := bits c.act 9 6 + 1
  let ra := runNext c.runA c.rawA a
  let rb := runNext c.runB c.rawB b
  fbkLevels n (if need ≤ ra then a else c.a) (if need ≤ rb then b else c.b)
    (s.setFb n { c with rawA := a, rawB := b, runA := ra, runB := rb })

/-- ENCODER_EDGE (R226): A and B have the levels `ab` in the next `samples` samples of 5 ns. -/
def execEncoderEdge (n : Nat) (ab : Bool × Bool) (samples : Nat) (s : State) : Host.Outcome State Fault Refusal :=
  done (
    if s.power.mode = .dormant ∨ 16 ≤ n then s
    else (List.range (min samples 16)).foldl (fun s _ => fbkLine n ab.1 ab.2 s) s)

/-- INDEX_EDGE (R227): a rising edge of Z. -/
def execIndexEdge (n : Nat) (abHigh : Bool) (s : State) : Host.Outcome State Fault Refusal :=
  let c := s.fb n
  done (
    if s.power.mode ≠ .dormant ∧ n < 16 ∧ (c.mode = 1 ∨ c.mode = 4) ∧ (abHigh ∨ !bit c.act 4) then
      let s := s.setReg (Reg.fbkChIdxCnt n) (s.reg (Reg.fbkChCnt n))
      let s := s.setReg (Reg.fbkChIdxN n) (s.reg (Reg.fbkChIdxN n) + 1)
      s.onFb n fun c => { c with idx := true }
    else s)

/-- Report a sample: `CSTAT`, `STAT.FAULT` and `ERR_CNT`. `st` holds `CSTAT` [6:1]. -/
def fbkReport (n : Nat) (st : Nat) (s : State) : State :=
  let bad := decide (st % 2 = 1)
  let s := s.setReg (Reg.fbkChCstat n) (w32 (b2n (s.fb n).down + 2 * st))
  if bad then (s.event Reg.fbkStat (16 + n)).countUp (Reg.fbkChErrCnt n) 15 0 1 else s

/-- The status word of a sample (R223). -/
def FbkCh.statusWord (c : FbkCh) (bad warn : Bool) : Word :=
  w32 (b2n c.idx + 2 * b2n bad + 4 * b2n c.down + 8 * b2n c.dirChg + 16 * b2n warn + 32 * b2n c.restart)

/-- The sample time of channel `n`: modes 1 and 4 sample, modes 2 and 3 start a transfer. -/
def fbkSample (s : State) (n : Nat) : State :=
  let c := s.fb n
  let m := c.mode
  let clear (x : FbkCh) : FbkCh := { x with idx := false, dirChg := false, phase := false, restart := false }
  if m = 1 ∨ m = 4 then
    let smp : FbkSample :=
      { started := true, done := true, lo := s.reg (Reg.fbkChCnt n), idx := s.reg (Reg.fbkChIdxCnt n),
        status := c.statusWord c.phase false }
    fbkReport n (b2n c.phase + 32 * b2n c.phase) (s.setFb n { clear c with nxt := smp })
  else if m = 2 ∨ m = 3 then
    (s.setFb n { c with nxt := { started := true } }).emit (.serial n)
  else s.setFb n { clear c with nxt := { started := true, done := true } }

/-- The sample taken becomes that of the period. -/
def fbkPublish (s : State) (n : Nat) : State := s.onFb n fun c => { c with cur := c.nxt, nxt := {} }

/-- End a transfer: the position, its flags and the faults (R229, R230). `st` holds `CSTAT` [6:1]. -/
def fbkFinish (n : Nat) (pos : BitVec 64) (st : Nat) (s : State) : State :=
  let c := s.fb n
  let smp : FbkSample :=
    { started := true, done := true, lo := lo64 pos, hi := hi64 pos,
      status := c.statusWord (decide (st % 2 = 1)) (decide (st / 4 % 2 = 1)) }
  let c' := { c with idx := false, dirChg := false, phase := false, restart := false }
  let s := s.setFb n (if c.nxt.started then { c' with nxt := smp } else { c' with cur := smp })
  let s := (s.setReg (Reg.fbkChCnt n) (lo64 pos)).setReg (Reg.fbkChPosHi n) (hi64 pos)
  fbkReport n st s

/-- The transfer of channel `n` runs. -/
def FbkCh.transfer (c : FbkCh) : Bool :=
  (decide (c.mode = 2) || decide (c.mode = 3)) && ((c.nxt.started && !c.nxt.done) || (c.cur.started && !c.cur.done))

/-- A conversion that an analog input owes to the sample of the period has not come (R225, R231). -/
def State.adcLate (s : State) (i : Nat) : Bool :=
  decide (i < 32) && decide (s.field (Reg.adcInCfg i) 1 0 % 2 = 1) && (s.ain i).cur.isNone

/-- A sample that is not complete by its bound reports `FAULT` (R225): a transfer, or a sin/cos sample whose conversion is
missing. -/
def fbkClose (s : State) (n : Nat) : State :=
  let c := s.fb n
  if c.cur.started ∧ !c.cur.done then
    fbkReport n 1 (s.setFb n { c with
      cur := { c.cur with done := true, status := c.statusWord true false },
      idx := false, dirChg := false, phase := false, restart := false })
  else if c.mode = 4 ∧ c.cur.started ∧ !bit c.cur.status 1 ∧ (s.adcLate (2 * n) || s.adcLate (2 * n + 1)) then
    fbkReport n 1 (s.setFb n { c with cur := { c.cur with status := c.cur.status ||| 2#32 } })
  else s

/-- The CRC of a BiSS C frame, x^6 + x + 1 from 0 over the bits in the order sent (R229). -/
def crc6 (bs : List Bool) : Nat :=
  bs.foldl (fun c b => (c * 2 % 64) ^^^ (if b != c.testBit 5 then 3 else 0)) 0

/-- The low `w` bits of a number, the most significant first. -/
def bitsDown (w x : Nat) : List Bool := (List.range w).map fun i => x.testBit (w - 1 - i)

/-- A Gray code of `w` bits as a binary number (R230). -/
def grayToBinary (w x : Nat) : Nat := (List.range w).foldl (fun y i => y ^^^ (x / 2 ^ i)) 0

/-- The clock period of a serial channel in ns (R225). -/
def FbkCh.clk (c : FbkCh) : Nat := (bits c.act 23 16 + 10) * 10

/-- The bound of R225 on a digital channel, in ns after the local sample time. -/
def State.chanBound (s : State) (n : Nat) (c : FbkCh) : Nat :=
  match c.mode with
  | 1 => 100
  | 2 => (c.width + 14) * c.clk + s.field (Reg.fbkChLineMax n) 9 0 * 5 + 200
  | 3 => (c.width + 2) * c.clk + 200
  | 4 => 600
  | _ => 0

/-- Network time is past `b` ns after the local sample time of this period. -/
def State.pastLocal (s : State) (b : Nat) : Bool :=
  decide ((s.tmu.period * s.tBase : Nat) + s.smpOfs 8 + (b : Nat) < (s.tmu.ns : Int))

/-- The bound of `b` ns after the local sample time has come: what has not arrived by then is late (R225). -/
def State.atLocal (s : State) (b : Nat) : Bool :=
  decide ((s.tmu.period * s.tBase : Nat) + s.smpOfs 8 + (b : Nat) ≤ (s.tmu.ns : Int))

/-- Close the sample of a channel once its bound has come. -/
def fbkExpire (n : Nat) (s : State) : State := if s.atLocal (s.chanBound n (s.fb n)) then fbkClose s n else s

/-- SERIAL_ENCODER_DONE (R229, R230): a transfer ends with the data, error, warning and CRC bits received, the
`answer` of the device (the time from the sample to the start bit of BiSS in ns, the further bit of SSI), and the
measured line delay. -/
def execSerialEncoderDone (n : Nat) (data : BitVec 64) (nErr nWarn : Bool) (crc : BitVec 6) (answer : Nat × Bool)
    (delay : Nat) (s : State) : Host.Outcome State Fault Refusal :=
  done (
    if !s.up || decide (16 ≤ n) then s
    else
      let s := if s.pastLocal (s.chanBound n (s.fb n)) then fbkClose s n else s
      let c := s.fb n
      let p := data.toNat % 2 ^ c.width
      if !c.transfer then s
      else if c.mode = 2 then
        let s := s.setReg (Reg.fbkChLineDly n) (w32 (delay % 1024))
        let max := s.field (Reg.fbkChLineMax n) 9 0
        let tmo := decide (max * 5 + 20 * c.clk < answer.1) || decide (max < delay)
        let crcOk := decide (crc.toNat = 63 - crc6 (bitsDown c.width p ++ [nErr, nWarn]))
        let bad := tmo || !crcOk || !nErr
        fbkFinish n (BitVec.ofNat 64 p) (b2n bad + 2 * b2n (!nErr) + 4 * b2n (!nWarn) + 8 * b2n (!crcOk) + 16 * b2n tmo) s
      else
        let p := if bit c.act 5 then grayToBinary c.width p else p
        fbkFinish n (BitVec.ofNat 64 p) (b2n answer.2 + 16 * b2n answer.2) s)

/-- The local sample offset is negative: the samples for a boundary precede it (R470). -/
def State.sampleEarly (s : State) : Bool := decide (s.smpOfs 8 < 0)

/-- The analog inputs sample: their conversion is awaited (R231). -/
def adcSample (s : State) (i : Nat) : State :=
  if s.sampleEarly then s.onAin i fun a => { a with wait := 2, nxt := none }
  else s.onAin i fun a => { a with wait := 1, cur := none }

/-- The analog inputs at a boundary: what was sampled early becomes the period's. -/
def adcBoundary (s : State) (i : Nat) : State :=
  s.onAin i fun a => { a with cur := a.nxt, nxt := none, wait := if a.wait = 2 then 1 else 0 }

/-- The local channels sample (R15, R223). -/
def sampleLocal (s : State) : State :=
  let s := (List.range 32).foldl adcSample ((List.range 16).foldl fbkSample s)
  if s.sampleEarly then s else (List.range 16).foldl fbkPublish s

/-- The boundary: samples not complete are closed, `CFG` writes take hold, samples taken early become the
period's, others are awaited. -/
def fbkBoundary (s : State) : State :=
  let s := (List.range 32).foldl adcBoundary ((List.range 16).foldl fbkClose s)
  let s := (List.range 16).foldl (fun s n => fbkApply n s) s
  if s.sampleEarly then (List.range 16).foldl fbkPublish s
  else (List.range 16).foldl (fun s n => s.onFb n fun c => { c with cur := {} }) s

/-! ### Analog inputs and quarters (R231, R232) -/

/-- The quadrant that a conversion pair shows, with hysteresis about the previous one (R232; the ends
of the band DEDUCED, log 24). -/
def quadrant (prev : Option Nat) (sn cs : Int) : Nat :=
  let pos (was : Option Bool) (v : Int) : Bool :=
    match was with
    | none => decide (0 ≤ v)
    | some true => decide (-256 ≤ v)
    | some false => decide (256 ≤ v)
  let sp := pos (prev.map fun q => decide (q < 2)) sn
  let cp := pos (prev.map fun q => decide (q = 0 ∨ q = 3)) cs
  match sp, cp with | true, true => 0 | true, false => 1 | false, false => 2 | false, true => 3

/-- A conversion pair of channel `n` in mode 4 (R232). -/
def fbkPair (n : Nat) (s : State) : State :=
  let c := s.fb n
  let q := quadrant c.quad (s.ain (2 * n)).code (s.ain (2 * n + 1)).code
  let s := s.setFb n { c with quad := some q }
  match c.quad with
  | none => s.setReg (Reg.fbkChCnt n) (w32 q)
  | some p =>
    let d := (q + 4 - p) % 4
    if d = 0 then s else if d = 2 then fbkPhase n s else fbkCount n (decide (d = 1)) s

/-- The conversion at the sample time supplies the record (R231). -/
def adcTake (i : Nat) (v : Word) (s : State) : State :=
  s.onAin i fun a =>
    if a.wait = 2 then { a with wait := 0, nxt := some v }
    else if a.wait = 1 then { a with wait := 0, cur := some v } else a

/-- ADC_CONVERSION (R231). -/
def execAdcConversion (i : Nat) (code : BitVec 16) (atSample : Bool) (s : State) :
    Host.Outcome State Fault Refusal :=
  let use := s.field (Reg.adcInCfg i) 1 0
  done (
    if !s.answers 0x17 0 || decide (32 ≤ i) || decide (use = 0) then s
    else
      let s := if code = 0x8000 ∨ code = 0x7FFF then s.event Reg.adcStat i else s
      let x := code.toInt - wrapN 16 (s.field (Reg.adcInOfs i) 15 0)
      let v := wInt (sat32 (x * 2 ^ 16))
      let s := s.onAin i fun a => { a with value := v, code := x, fresh := true }
      if use = 2 then
        let n := 2 ^ min 6 (s.field (Reg.adcInCfg i) 4 2)
        let sum := (s.ain i).sum + v.toInt
        if (s.ain i).count + 1 < n then s.onAin i fun a => { a with sum := sum, count := a.count + 1 }
        else
          let up := decide (sum % n ≠ 0) && Config.avgUp sum n
          (s.onAin i fun a => { a with sum := 0, count := 0 }).setReg (Reg.adcInRun i) (wInt (sum / n + b2n up))
      else
        let s := if atSample then adcTake i v (s.setReg (Reg.adcInSample i) v) else s
        let n := i / 2
        if use = 3 ∧ (s.fb n).mode = 4 ∧ (s.ain (2 * n)).fresh ∧ (s.ain (2 * n + 1)).fresh
            ∧ s.field (Reg.adcInCfg (2 * n)) 1 0 = 3 ∧ s.field (Reg.adcInCfg (2 * n + 1)) 1 0 = 3 then
          let s := s.onAin (2 * n) fun a => { a with fresh := false }
          fbkPair n (s.onAin (2 * n + 1) fun a => { a with fresh := false })
        else s)

/-! ### The local sample record (R223, R225) -/

/-- The analog inputs of a slot's record. -/
def State.localInputs (s : State) (slot : Nat) : List Nat :=
  let n := s.fbkCh slot
  (if (s.fbkSrc slot = 1 ∨ s.fbkSrc slot = 2) ∧ n < 16 ∧ (s.fb n).mode = 4 then [2 * n, 2 * n + 1] else [])
    ++ (if s.outKind slot = 2 then [s.pn slot 12, s.pn slot 12 + 1] ++ (if s.pn slot 0x116 = 255 then [] else [s.pn slot 0x116])
        else [])

/-- `IN0` to `IN7` of a slot from its local channels; a conversion that is missing is a fault of the sample (R225). -/
def State.localRecord (s : State) (slot : Nat) : List Word :=
  let n := s.fbkCh slot
  let src := s.fbkSrc slot
  let c := s.fb n
  let dig := decide (src = 1 ∨ src = 2) && decide (n < 16)
  let m := if dig then c.mode else 0
  let pwm := decide (s.outKind slot = 2)
  let ain (i : Nat) : Word := if i < 32 then (s.ain i).cur.getD (s.reg (Reg.adcInSample i)) else 0
  [ if m = 0 then 0 else c.cur.lo,
    if m = 1 ∨ m = 4 then c.cur.idx else if m = 2 ∨ m = 3 then c.cur.hi else 0,
    if m = 4 then ain (2 * n) else 0,
    if m = 4 then ain (2 * n + 1) else 0,
    if pwm then ain (s.pn slot 12) else 0,
    if pwm then ain (s.pn slot 12 + 1) else 0,
    if pwm ∧ s.pn slot 0x116 ≠ 255 then ain (s.pn slot 0x116) else wInt (s.pi slot 0x117),
    (if dig then c.cur.status else 0) ||| (if (s.localInputs slot).any s.adcLate then 2#32 else 0) ]

/-- The slot's local channels have reported their sample of this period (R157, R225): the digital channel its
sample or its fault, every analog input that samples its conversion, which its bound ends. -/
def State.localArrived (s : State) (slot : Nat) : Bool :=
  let src := s.fbkSrc slot
  (!decide (src = 1 ∨ src = 2) || (s.fb (s.fbkCh slot)).cur.done)
    && (s.atLocal 600 || !(s.localInputs slot).any s.adcLate)

/-- The bound of R225 on one channel, in ns after the boundary. -/
def State.readyBound (s : State) (slot : Nat) : Int :=
  let tb := s.tBase
  let ofs := clampI (-(tb / 2 : Nat)) 0 (wrapN 16 (s.field (Reg.tmuSmpOfs 8) 15 0) * 40)
  let n := s.fbkCh slot
  let src := s.fbkSrc slot
  let dig : Int := if src = 1 ∨ src = 2 then s.chanBound n { s.fb n with act := s.reg (Reg.fbkChCfg n) } else 0
  let an : Int := if src = 2 ∨ s.outKind slot = 2 then 600 else 0
  ofs + max dig an

/-! ### Multi-turn channels (R241 to R244) -/

def State.mt (s : State) (n : Nat) : MtCh := Map.get (fun _ => {}) s.mts n
def State.setMt (s : State) (n : Nat) (x : MtCh) : State := { s with mts := Map.set (fun _ => {}) s.mts n x }

/-- MT_STROBE (R241): the contacts at a strobe; the first one only takes their levels (DEDUCED, log 26). -/
def execMtStrobe (n : Nat) (a b : Bool) (s : State) : Host.Outcome State Fault Refusal :=
  let cfg := s.reg (Reg.fbkMtCfg n)
  let m := s.mt n
  let inv := bit cfg 4
  let step := (quadPlace a (b != inv) + 4 - quadPlace m.a (m.b != inv)) % 4
  let s1 := s.setMt n { a := a, b := b, seen := true }
  done (
    if 8 ≤ n ∨ !bit cfg 0 ∨ !bit (s.reg Reg.pwrClk) 1 then s
    else if !m.seen || decide (step = 0) then s1
    else if step = 2 then
      s1.setReg (Reg.fbkMtMstat n) (setBit (setBit (s1.reg (Reg.fbkMtMstat n)) 1 true) 0 false)
    else
      let v := s1.reg (Reg.fbkMtCount n)
      s1.setReg (Reg.fbkMtCount n) (if step = 1 then v + 1 else v - 1))

/-- A write of `MT[n].CFG` (R252): a channel that is switched on has seen no level of its contacts yet. -/
def mtCfg (n : Nat) (s : State) : State :=
  if bit (s.reg (Reg.fbkMtCfg n)) 0 then s else s.setMt n { s.mt n with seen := false }

/-- A write of `MT[n].CTRL` (R252). -/
def mtCtrl (n : Nat) (v : Word) (s : State) : State :=
  let s := if bit v 0 then s.lower (Reg.fbkMtMstat n) 6#32 else s
  if bit v 1 then (s.setReg (Reg.fbkMtCount n) 0).raise (Reg.fbkMtMstat n) 1#32 else s

/-- The crystal stops: `VALID` is cleared and `XTAL` set on every channel (R242). -/
def mtCrystal (s : State) : State :=
  (List.range 8).foldl (fun s n =>
    s.setReg (Reg.fbkMtMstat n) (setBit (setBit (s.reg (Reg.fbkMtMstat n)) 2 true) 0 false)) s

/-- Loss of VBAK: the `MT` registers go to their values at VBAK loss (R242, R252). -/
def mtLost (s : State) : State :=
  let s := (List.range 8).foldl (fun s n =>
    ((s.resetReg (Reg.fbkMtCfg n)).resetReg (Reg.fbkMtCount n)).resetReg (Reg.fbkMtMstat n)) s
  { s with mts := [] }

/-! ### Encoder emulation (R246 to R249) -/

/-- The source position of a channel (R246). -/
def State.emuSource (s : State) (cfg : Word) : Int :=
  let n := bits cfg 9 3
  match bits cfg 2 1 with
  | 0 => if n < s.part.slots then s.exch64 n 0 else 0
  | 1 => if n < s.part.slots then s.exch64 n 4 else 0
  | 2 => if n < 8 then s.exch64 (128 + n) 0 else 0
  | _ => if n < 4 then s.exch64 (136 + n) 0 else 0

/-- Edge `j` of a train falls by network time `ns` (R247). -/
def Train.fallen (x : Train) (ns j : Nat) : Bool :=
  decide ((x.delay + (j + 1) * x.tBase / x.out.natAbs) * 2 / 5 ≤ (ns - x.start) * 2 / 5)

/-- Counts of a train whose edges have fallen by `ns`. -/
def Train.passed (x : Train) (ns : Nat) : Int := sgn x.out * ((List.range x.out.natAbs).filter (x.fallen ns)).length

/-- Every edge of a train has fallen. -/
def Train.spent (x : Train) (ns : Nat) : Bool := x.fallen ns (x.out.natAbs - 1)

/-- Counts of a channel whose edges have fallen and do not yet stand in its registers (R247). -/
def State.emuPassed (s : State) (n : Nat) : Int := ((s.em n).trains.map fun x => x.passed s.tmu.ns).sum

/-- `EMU.CH[n].COUNT` as it reads now. -/
def State.emuCount (s : State) (n : Nat) : Word := s.reg (Reg.emuChCount n) + BitVec.ofInt 32 (s.emuPassed n)

/-- The levels of A, B and Z (R247 to R249): A leads when counting up, `INV` swaps the sense, Z is high at
its positions, and a disabled channel holds them low. -/
def State.emuLevels (s : State) (n : Nat) : Bool × Bool × Bool :=
  let e := s.em n
  if !bit e.cfg 0 then (false, false, false)
  else
    let edges := e.phase + s.emuPassed n
    let at_ := (if bit e.cfg 10 then -edges else edges) % 4
    (decide (at_ = 1 ∨ at_ = 2), decide (at_ = 2 ∨ at_ = 3),
      decide (e.zper ≠ 0) && decide ((s.emuCount n).toNat % e.zper.toNat = e.zofs.toNat))

/-- Counts that have fallen go to the registers: those of finished trains, or with `all` those of every train,
whose other edges never fall. -/
def emuFold (n : Nat) (all : Bool) (s : State) : State :=
  let gone := (s.em n).trains.filter fun x => all || x.spent s.tmu.ns
  let k := (gone.map fun x => x.passed s.tmu.ns).sum
  let s := s.setReg (Reg.emuChCount n) (s.reg (Reg.emuChCount n) + BitVec.ofInt 32 k)
  s.onEm n fun e => { e with trains := e.trains.filter (fun x => !(all || x.spent s.tmu.ns)), phase := e.phase + k }

/-- Settings that were armed take hold (R249). -/
def emuTake (n : Nat) (s : State) : State :=
  let e := s.em n
  if !e.armed then s
  else
    let cfg := s.reg (Reg.emuChCfg n)
    let den := s.reg (Reg.emuChDen n)
    let p := s.emuSource cfg
    let rise := bit cfg 0 && !bit e.cfg 0
    let fall := !bit cfg 0 && bit e.cfg 0
    let moved := decide (den ≠ e.den ∨ bits cfg 9 1 ≠ bits e.cfg 9 1)
    let s := if rise || fall then emuFold n true s else s
    let e := s.em n
    let s := s.setEm n
      { e with
        cfg := cfg, num := s.reg (Reg.emuChNum n), den := den, zper := s.reg (Reg.emuChZper n),
        zofs := s.reg (Reg.emuChZofs n), armed := false,
        pPrev := if rise || moved then p else e.pPrev, rem := if rise || moved then 0 else e.rem,
        demand := if rise then 0 else e.demand, resync := e.resync && !rise && !fall,
        phase := if rise then 0 else e.phase }
    let s := if rise || fall then s.setReg (Reg.emuChLag n) 0 else s
    if rise then s.setReg (Reg.emuChCount n) 0 else s

/-- The first Z position after `d` in the direction of a step of `k` counts, if the step reaches it. -/
def zPassed (d : Word) (k : Int) (zper zofs : Word) : Option Word :=
  if zper = 0 ∨ zper.toNat ≤ zofs.toNat then none
  else
    let r : Int := ((d.toNat : Int) - zofs.toNat) % zper.toNat
    if 0 < k then
      let dist := (zper.toNat : Int) - r
      if dist ≤ k then some (d + BitVec.ofInt 32 dist) else none
    else if k < 0 then
      let dist := if r = 0 then (zper.toNat : Int) else r
      if dist ≤ -k then some (d - BitVec.ofInt 32 dist) else none
    else none

/-- The emulation channel at a boundary: the counts of the ended period, the new demand, the counts of
the period that begins (R246 to R248). -/
def emuStep (n : Nat) (s : State) : State :=
  let s := emuTake n (emuFold n false s)
  let e := s.em n
  if !bit e.cfg 0 then s
  else
    let lag := (s.reg (Reg.emuChLag n)).toInt
    let lost := decide (1024 < lag.natAbs)
    let s := if lost then s.event Reg.emuStat n else s
    let resync := e.resync || lost
    let p := s.emuSource e.cfg
    let den : Int := (max 1 e.den.toNat : Nat) * 2 ^ 24
    let t := e.rem + wrap64 (p - e.pPrev) * e.num.toInt
    let k := t / den
    let d := e.demand + BitVec.ofInt 32 k
    let e := { e with pPrev := p, rem := t - k * den, demand := d }
    let jump : Option Word := if !resync then none
      else if e.zper = 0 then some d else zPassed (d - BitVec.ofInt 32 k) k e.zper e.zofs
    -- COUNT moves without the edges between, also those still to fall (R248; DEDUCED, log 25)
    let s := match jump with | some x => (emuFold n true s).setReg (Reg.emuChCount n) x | none => s
    let e := { e with trains := (s.em n).trains, phase := (s.em n).phase }
    let lag := match jump with | some x => (d - x).toInt | none => lag + k
    let cap : Int := (s.tBase / 40 : Nat)
    let out := clampI (-cap) cap lag
    (s.setReg (Reg.emuChLag n) (wInt (lag - out))).setEm n
      { e with
        trains := if out = 0 then e.trains else e.trains ++ [⟨s.tmu.ns, out, s.tBase, bits e.cfg 23 16 * 40⟩]
        resync := resync && jump.isNone }

/-- All emulation channels at a boundary. -/
def emuBoundary (s : State) : State :=
  if s.cap 9 then (List.range 8).foldl (fun s n => emuStep n s) s else s

/-- A write of `EMU.ARM`. -/
def emuArm (v : Word) (s : State) : State :=
  (List.range 8).foldl (fun s n => if bit v n then s.onEm n fun e => { e with armed := true } else s) s

end Sys2Proof.Machine
end

