-- ==== Sys2Proof/Machine/Drive.lean ====
section
/-!
DEFINITION. Local power outputs: PWM channels, trip inputs and step/direction channels (chapter 13,
R334 to R358).
-/
namespace Sys2Proof.Machine

/-! ### The side of a pair that has a slot's local I/O (R403) -/

/-- `PAIR.CFG.ROLE` is not 0. -/
def State.paired (s : State) : Bool := decide (s.field Reg.pairCfg 1 0 ≠ 0)
def State.sideB (s : State) : Bool := decide (s.field Reg.pairCfg 1 0 = 2)

/-- The local I/O of a slot is on this device (R403). -/
def State.localHere (s : State) (slot : Nat) : Bool :=
  if !s.paired then true else bit (s.reg (Reg.pairLside (slot / 32))) (slot % 32) == s.sideB

/-- A local slot whose I/O is on the partner (R403). -/
def State.localThere (s : State) (slot : Nat) : Bool :=
  !s.localHere slot && decide (s.outKind slot = 2 ∨ s.outKind slot = 3 ∨ s.fbkSrc slot = 1 ∨ s.fbkSrc slot = 2)

/-! ### PWM channels (R334 to R346) -/

/-- The PWM channels of a slot with `OUT_KIND` 2 (R153). -/
def State.slotPwm (s : State) (slot : Nat) : List Nat :=
  if s.outKind slot ≠ 2 then []
  else
    let n := match s.axisType slot with | 1 => 3 | 2 => 3 | 3 => 4 | 4 => 2 | 5 => 1 | _ => 0
    (List.range n).map (s.pn slot 8 + ·)

/-- Channel `n` is owned by a slot that is on (R344). -/
def State.pwmOwned (s : State) (n : Nat) : Bool :=
  (List.range s.part.slots).any fun a => s.axOn a && decide (n ∈ s.slotPwm a)

/-- Channel `n` is off by a trip (R347). -/
def State.pwmTripped (s : State) (n : Nat) : Bool :=
  decide (Nat.land (s.field (Reg.pwmChCfg n) 11 8) (s.field Reg.pwmTripLevel 3 0) ≠ 0)

/-- `CH[n].STATE` as it reads. -/
def State.pwmState (s : State) (n : Nat) : Word :=
  w32 (s.field (Reg.pwmChState n) 3 0 + 16 * b2n (s.pwmOwned n) + 32 * b2n ((s.pw n).force ≠ 0)
    + 64 * b2n (s.pwmTripped n))

/-- A host write to an owned channel is ignored and reported (R344). -/
def pwmHost (n : Nat) (f : State → State) (s : State) : State :=
  if s.pwmOwned n then s.event Reg.pwmStat 1 else f s

/-- A write of a shadow register: 0 `PER`, 1 `CMP`, 2 `DTR`, 3 `DTF` (R339, R340). -/
def pwmShadow (n reg : Nat) (v : Word) (s : State) : State :=
  pwmHost n (fun s =>
    let mask : Word := match reg with | 0 => 0xFFFFF | 1 => 0x1FFFFFF | _ => 0xFFFF
    let s := s.setReg (Reg.pwmChPer n + 4 * reg) (v &&& mask)
    if reg < 2 then s.raise (Reg.pwmChState n) (bitw (reg + 1)) else s) s

/-- A write of `PWM.ARM` (R339, R344). -/
def pwmArm (v : Word) (s : State) : State :=
  (List.range 32).foldl (fun s n =>
    if bit v n then pwmHost n (fun s => s.raise (Reg.pwmChState n) 1#32) s else s) s

/-- `PER` as the channel takes it (R357). -/
def State.pwmPer (s : State) (n : Nat) : Nat := max 40 (s.field (Reg.pwmChPer n) 19 0)

/-- The transfer of the four shadows (R339, R342); that of a sealed word ends forcing (R346). -/
def pwmTransfer (n : Nat) (s : State) : State :=
  let p := s.pw n
  let cmp := s.field (Reg.pwmChCmp n) 24 0
  let s := s.setPw n
    { p with
      per := s.pwmPer n, cmp := cmp, dtr := s.field (Reg.pwmChDtr n) 15 0, dtf := s.field (Reg.pwmChDtf n) 15 0,
      word := false, force := if p.word then 0 else p.force }
  let s := s.setReg (Reg.pwmChActCmp n) (w32 cmp)
  let s := s.setField (Reg.pwmChXfer n) 31 16 (s.field (Reg.pwmChXfer n) 15 0)
  s.lower (Reg.pwmChState n) 15#32

/-- N of R335: the fine steps of a period; and where the reference rises and falls within it. -/
def Pwm.steps (p : Pwm) : Nat := 32 * p.per
def Pwm.span (p : Pwm) (centred : Bool) : Nat × Nat :=
  if p.steps ≤ p.cmp then (0, p.steps)
  else if centred then ((p.steps - p.cmp) / 2, (p.steps - p.cmp) / 2 + p.cmp)
  else (0, p.cmp)

/-- The reference r at instant `t` of the running period, and when it last changed, in 1/64 ns (R335, R336): a high
that a period ends with and the next begins with has no edge between. -/
def Pwm.refAt (p : Pwm) (centred : Bool) (t : Nat) : Bool × Nat :=
  match p.start with
  | none => (false, p.since)
  | some t0 =>
    let x := p.span centred
    if p.cmp = 0 ∨ t < t0 + 5 * x.1 then (false, if p.was then t0 else p.edge)
    else if t < t0 + 5 * x.2 ∨ p.steps ≤ p.cmp then (true, if x.1 = 0 ∧ p.was then p.edge else t0 + 5 * x.1)
    else (false, t0 + 5 * x.2)

/-- The levels of the balls `PWM_nn_H` and `PWM_nn_L` (R337, R338, R346, R347, R351): dead time after each edge of the
reference, a trip before all, then forcing; low below READY and while `EN` is 0. -/
def State.pwmLevels (s : State) (n : Nat) : Bool × Bool :=
  let cfg := s.reg (Reg.pwmChCfg n)
  let p := s.pw n
  let now := 64 * s.tmu.ns
  let r := p.refAt (bit cfg 1) now
  let on : Bool × Bool :=
    if s.pwmTripped n then (false, false)
    else match p.force, p.start with
      | 0, some t0 =>
        let d := if r.2 < t0 then p.dead else (p.dtr, p.dtf)
        (r.1 && decide (r.2 + 5 * d.1 ≤ now), !r.1 && bit cfg 6 && decide (r.2 + 5 * d.2 ≤ now))
      | 2, _ => (false, bit cfg 6)
      | _, _ => (false, false)
  if !s.up || !bit cfg 0 then (false, false) else (on.1 != bit cfg 4, on.2 != bit cfg 5)

/-- A PWM period begins at `t` (R334, R339, R340, R342). -/
def pwmReloadAt (n t : Nat) (s : State) : State :=
  let r := (s.pw n).refAt (bit (s.reg (Reg.pwmChCfg n)) 1) (t - 1)
  let s := s.onPw n fun p =>
    { p with
      start := some t, was := r.1, edge := r.2
      dead := if p.start.any fun t0 => decide (r.2 < t0) then p.dead else (p.dtr, p.dtf) }
  let s := s.setField (Reg.pwmChXfer n) 15 0 (s.field (Reg.pwmChXfer n) 15 0 + 1)
  let st := s.reg (Reg.pwmChState n)
  if !bit st 0 then s.lower (Reg.pwmChState n) 8#32
  else if bit (s.reg (Reg.pwmChCfg n)) 3 && !(bit st 1 && bit st 2) then
    (s.raise (Reg.pwmChState n) 8#32).event Reg.pwmStat 0
  else pwmTransfer n s

/-- When the next PWM period begins, in 1/64 ns, and whether it cuts the running one short (R343): Tp after the
last, or at a restart, `PHASE` after a boundary. A synchronised channel begins with a restart (DEDUCED, log 44). -/
def State.pwmNext (s : State) (n : Nat) : Option (Nat × Bool) :=
  let cfg := s.reg (Reg.pwmChCfg n)
  let p := s.pw n
  let t := 64 * s.tBase
  let ph := 160 * bits cfg 31 16
  let restart (x : Nat) : Nat := if x ≤ ph then ph else ph + (x - ph + t - 1) / t * t
  if !bit cfg 0 then none
  else match p.start with
    | none => if bit cfg 2 then some (restart p.since, false) else none
    | some x =>
      let fin := x + 160 * p.per
      let y := restart (max (x + 1) p.sync)
      if bit cfg 2 ∧ y < fin then some (y, true) else some (fin, false)

/-- The counter of a channel starts or stops with `EN`, and restarts from when `SYNC` is set on; `old` is what `CFG` was. -/
def pwmRun (n : Nat) (old : Word) (s : State) : State :=
  let cfg := s.reg (Reg.pwmChCfg n)
  let now := 64 * s.tmu.ns
  if !bit cfg 0 then s.onPw n fun p => { p with start := none }
  else if bit old 0 then
    if bit cfg 2 && (!bit old 2 || decide (bits cfg 31 16 ≠ bits old 31 16)) then s.onPw n fun p => { p with sync := now } else s
  else
    let s := s.onPw n fun p => { p with start := none, since := now, edge := now, was := false }
    if bit cfg 2 then s else pwmReloadAt n now s

/-- A write of `CH[n].CFG` (R344). -/
def pwmCfg (n : Nat) (v : Word) (s : State) : State :=
  pwmHost n (fun s => pwmRun n (s.reg (Reg.pwmChCfg n)) (s.setReg (Reg.pwmChCfg n) (v &&& 0xFFFF0F7F))) s

/-- PWM_RELOAD (R339, R340, R343): the next PWM period of channel `n` begins, at its instant; one that lies at or
after the next boundary waits for that, whose writes come first (R345). `cut` says which of the two is reported, the
restart that cuts a period short or the end of a period; the one that is not next has no effect. -/
def execPwmReload (n : Nat) (cut : Bool) (s : State) : Host.Outcome State Fault Refusal :=
  done (
    match (if s.answers 0x0B 0 && decide (n < 32) then s.pwmNext n else none) with
    | none => s
    | some (t, c) =>
      if c ≠ cut ∨ 64 * ((s.tmu.period + 1) * s.tBase) ≤ t then s
      else
        let s := s.advanceTo ((t + 63) / 64)
        pwmReloadAt n t (if cut then s.event Reg.pwmStat 2 else s))

/-- A fresh output at the sealing: duty words become compare values, held for the boundary (R345). -/
def pwmSeal (slot : Nat) (out : List Word) (s : State) : State :=
  ((s.slotPwm slot).zip out).foldl (fun s e =>
    let c := rnd (e.2.toInt * (s.pwmPer e.1 * 32 : Nat)) 31
    s.onPw e.1 fun p => { p with held := some (toU 25 c), next := none }) s

/-- A disabled word: the outputs are forced from the boundary on (R346, R351). -/
def pwmDisable (slot : Nat) (s : State) : State :=
  let f := if s.axisType slot = 3 ∧ s.pn slot 0xA04 = 1 then 2 else 1
  (s.slotPwm slot).foldl (fun s n => s.onPw n fun p => { p with next := some f, held := none }) s

/-- On leaving RUN every channel of a local slot is forced off (R346). -/
def pwmLeave (s : State) : State :=
  (List.range s.part.slots).foldl (fun s a =>
    ((s.slotPwm a).foldl (fun s n => s.onPw n fun p => { p with force := 1, held := none, next := none }) s).onAxis a
      fun x => { x with drove := false }) s

/-- `ENABLE` takes hold: `EN` and `SYNC` of the slot's channels (R344). -/
def pwmOwn (slot : Nat) (s : State) : State :=
  ((s.slotPwm slot).foldl (fun s n => pwmRun n (s.reg (Reg.pwmChCfg n)) (s.raise (Reg.pwmChCfg n) 5#32)) s).onAxis slot
    fun a => { a with drove := true }

/-- The boundary: held values are written and armed, forcing begins (R345, R346). -/
def pwmBoundary (s : State) : State :=
  (s.pwm.map Prod.fst).foldl (fun s n =>
    let p := s.pw n
    let s := match p.next with
      | some f => s.setPw n { p with force := f, next := none, word := false }
      | none => s
    match p.held with
    | some c =>
      let s := (s.setReg (Reg.pwmChCmp n) (w32 c)).raise (Reg.pwmChState n) 7#32
      s.onPw n fun p => { p with held := none, word := true }
    | none => s) s

/-! ### Trip inputs (R347) -/

/-- Trip input `n` is enabled and active. -/
def State.tripActive (s : State) (n : Nat) : Bool := bit (s.reg Reg.pwmTripCfg) n && bit (s.reg Reg.pwmTripLevel) (4 + n)

/-- The inputs that have become active since `old` latch and are reported, latched before or not. -/
def tripLatch (old s : State) : State :=
  (List.range 4).foldl (fun s n =>
    if s.tripActive n && !old.tripActive n then (s.raise Reg.pwmTripLevel (bitw n)).event Reg.pwmStat (4 + n) else s) s

/-- PWM_TRIP (R347): trip input `n` becomes active or inactive. -/
def execPwmTrip (n : Nat) (active : Bool) (s : State) : Host.Outcome State Fault Refusal :=
  done (if s.answers 0x0B 0 && decide (n < 4) then
    tripLatch s (s.setReg Reg.pwmTripLevel (setBit (s.reg Reg.pwmTripLevel) (4 + n) active))
  else s)

/-- A write of `TRIP_CFG`: a change of `POL` changes which level is active. -/
def tripCfg (v : Word) (s : State) : State :=
  let flip := (s.reg Reg.pwmTripCfg ^^^ v) &&& 0xF0
  tripLatch s ((s.setReg Reg.pwmTripCfg (v &&& 0xFF)).setReg Reg.pwmTripLevel (s.reg Reg.pwmTripLevel ^^^ flip))

/-- A write of `TRIP_CLR`: a latch clears while its input is inactive (R347). -/
def tripClr (v : Word) (s : State) : State :=
  (List.range 4).foldl (fun s n =>
    if bit v n && !bit (s.reg Reg.pwmTripLevel) (4 + n) then s.lower Reg.pwmTripLevel (bitw n) else s) s

/-- A trip acts on a channel of the slot (R347). -/
def State.slotTripped (s : State) (slot : Nat) : Bool := (s.slotPwm slot).any s.pwmTripped

/-! ### Step/direction channels (R352 to R354, R358) -/

/-- The slot that names channel `n` is on, and has its local I/O here (R352, R403). -/
def State.stpOwned (s : State) (n : Nat) : Bool :=
  (List.range s.part.slots).any fun a => decide (s.outKind a = 3 ∧ s.pn a 9 = n) && s.axOn a && s.localHere a

/-- `PW` as the channel takes it, and what `SETUP` leaves of a base period, in units of 2.5 ns. -/
def stpWidth (cfg : Word) : Nat := max 25 (bits cfg 15 8)
def State.stpRoom (s : State) (cfg : Word) : Nat := (s.tBase - 40 * bits cfg 23 16) * 2 / 5

/-- A channel at a boundary: the pulses of the ended period, then those of the next (R352, R353); where a hard stop
takes hold it discards them with its lag, and `DIR` keeps its level (R354). -/
def stpStep (n : Nat) (s : State) : State :=
  let x := s.stp n
  let s := s.setReg (Reg.stpChCount n) (s.reg (Reg.stpChCount n) + BitVec.ofInt 32 x.pulses)
  let lag := (s.reg (Reg.stpChLag n)).toInt
  let s := if lag ≠ 0 then s.event Reg.stpStat n else s
  let s := if s.stpOwned n then s.raise (Reg.stpChCfg n) 1#32 else s
  let cfg := s.reg (Reg.stpChCfg n)
  if x.hard then
    ((s.setReg (Reg.stpChLag n) 0).setStp n { cfg := cfg, dir := x.dir }).event Reg.stpStat (16 + n)
  else
  let cap : Int := (s.stpRoom cfg / (2 * stpWidth cfg) : Nat)
  let m := if bit cfg 0 then clampI (-cap) cap (lag + x.word) else 0
  let s := s.setReg (Reg.stpChLag n) (wInt (lag + x.word - m))
  let dir := if m = 0 then x.dir else decide (m < 0) != bit cfg 1
  s.setStp n { word := 0, pulses := m, cfg := cfg, dir := dir }

/-- All channels at a boundary. -/
def stpBoundary (s : State) : State :=
  if s.cap 7 then (List.range 16).foldl (fun s n => stpStep n s) s else s

/-- Rise of pulse `j` after the boundary, in units of 2.5 ns (R352). -/
def State.stpRise (s : State) (n j : Nat) : Nat :=
  let x := s.stp n
  16 * bits x.cfg 23 16 + j * s.stpRoom x.cfg / max 1 x.pulses.natAbs

/-- Time since the boundary in units of 2.5 ns. -/
def State.sinceBoundary (s : State) : Nat := (s.tmu.ns - s.tmu.period * s.tBase) * 2 / 5

/-- `COUNT` as it reads now: the pulses that have risen are counted. -/
def State.stpCount (s : State) (n : Nat) : Word :=
  let x := s.stp n
  let past := ((List.range x.pulses.natAbs).filter fun j => decide (s.stpRise n j ≤ s.sinceBoundary)).length
  s.reg (Reg.stpChCount n) + BitVec.ofInt 32 (sgn x.pulses * past)

/-- `LEVEL` as it reads now; the balls are low below READY and while `EN`, as in force, is 0 (R338, R358). -/
def State.stpLevel (s : State) (n : Nat) : Word :=
  let x := s.stp n
  if !s.up || !bit x.cfg 0 then 0
  else
    let high := (List.range x.pulses.natAbs).any fun j =>
      decide (s.stpRise n j ≤ s.sinceBoundary ∧ s.sinceBoundary < s.stpRise n j + stpWidth x.cfg)
    w32 (b2n (high != bit x.cfg 2) + 2 * b2n x.dir)

end Sys2Proof.Machine
end

