-- ==== Sys2Proof/Machine/Isa.lean ====
section
/-!
DEFINITION. The instruction set of the loop engines: bundles, their checks and their execution
(chapter 07, R174 to R193).
-/
namespace Sys2Proof.Machine

/-- A bundle: MAC lane 0, MAC lane 1, memory and control syllables (R187). -/
structure Bundle where
  mac0 : Nat
  mac1 : Nat
  mem : Nat
  ctl : Nat
  deriving DecidableEq, Repr

/-- The bundle stored in 16 bytes. -/
def Bundle.read (p : Bytes) : Bundle :=
  ⟨Bytes.num p 0 4, Bytes.num p 4 4, Bytes.num p 8 4, Bytes.num p 12 4⟩

/-- The opcode of a syllable. -/
def opOf (w : Nat) : Nat := field w 31 27

/-! ### Format (R187 to R189) -/

def even (n : Nat) : Bool := decide (n % 2 = 0)

/-- A MAC syllable is well formed. -/
def macOk (w : Nat) : Bool :=
  let op := opOf w
  let sh := field w 14 9
  decide (op ≤ 0x0C) && decide (field w 3 0 = 0)
    && (decide (op = 0x0A ∨ op = 0x0B) || (decide (op = 8 ∨ op = 9) && decide (sh ≤ 7)) || decide (sh = 0))
    && (decide (op ≠ 0x0B) || even (field w 8 4))
    && (decide (op ≠ 8 ∧ op ≠ 9) || even (field w 24 20))

/-- A memory syllable is well formed. -/
def memOk (w : Nat) : Bool :=
  let op := opOf w
  let imm := field w 17 0
  let d := field w 22 18
  match op with
  | 0 => true
  | 1 => decide (imm ≤ 1)
  | 2 => decide (imm ≤ 1) && even d
  | 3 => decide (imm ≤ 1)
  | 4 => decide (imm ≤ 1) && even d
  | 5 => decide (field w 8 0 = 0)
  | 6 => decide (field w 8 0 = 0) && even (field w 18 14) && even (field w 13 9)
  | 7 => even d && decide (field imm 11 10 = 0)
  | 8 => true
  | 9 => decide (imm % 4 = 0 ∧ imm ≤ 131068)
  | 10 => decide (imm < 65536)
  | 11 => decide (imm = 0)
  | 12 => decide (imm = 0)
  | _ => false

/-- A control syllable is well formed. -/
def ctlOk (w : Nat) : Bool :=
  let op := opOf w
  let dst := field w 26 22
  let a := field w 21 17
  let b := field w 16 12
  let sh := field w 6 0
  let imm := decide (field w 21 16 = 0)
  match op with
  | 5 => even dst && even a && even b
  | 6 => even dst && even a && even b
  | 0x0B => even dst && even a && even b
  | 0x0F => decide (sh ≤ 31)
  | 0x10 => decide (sh ≤ 31)
  | 0x11 => decide (sh ≤ 31)
  | 0x12 => decide (sh ≤ 63) && even dst && even a
  | 0x13 => imm
  | 0x14 => imm
  | 0x15 => decide (a ≤ 7)
  | 0x16 => decide (dst ≤ 3 ∨ (8 ≤ dst ∧ dst ≤ 15))
  | 0x17 => imm && decide (dst = 0)
  | 0x18 => decide (w = 0x18 * 2 ^ 27)
  | _ => decide (op ≤ 0x18)

def Bundle.ok (b : Bundle) : Bool := macOk b.mac0 && macOk b.mac1 && memOk b.mem && ctlOk b.ctl

def Bundle.isRepeat (b : Bundle) : Bool := decide (opOf b.ctl = 0x17)
def Bundle.isEnd (b : Bundle) : Bool := decide (opOf b.ctl = 0x18)
def Bundle.isStore (b : Bundle) : Bool := decide (opOf b.mem = 3 ∨ opOf b.mem = 4)
/-- N and L of a `REPEAT` (R184). -/
def Bundle.times (b : Bundle) : Nat := field b.ctl 15 6 + 1
def Bundle.len (b : Bundle) : Nat := field b.ctl 5 0 + 1

/-! ### Loops (R184) -/

/-- The bundles in the order of issue, from place `i` to place `e`; `rep` gives the iterations that a
`REPEAT` of N runs. -/
def issueOrder (rep : Nat → Nat) (bs : List Bundle) : Nat → Nat → Nat → List Nat
  | 0, _, _ => []
  | fuel + 1, i, e =>
    if e ≤ i then []
    else match bs[i]? with
      | none => []
      | some b =>
        if b.isRepeat then
          i :: ((List.replicate (rep b.times) (issueOrder rep bs fuel (i + 1) (i + 1 + b.len))).flatten
            ++ issueOrder rep bs fuel (i + 1 + b.len) e)
        else i :: issueOrder rep bs fuel (i + 1) e

/-- How many bundles and stores are issued. -/
def issueCount (bs : List Bundle) : Nat → Nat → Nat → Nat × Nat
  | 0, _, _ => (0, 0)
  | fuel + 1, i, e =>
    if e ≤ i then (0, 0)
    else match bs[i]? with
      | none => (0, 0)
      | some b =>
        let st := b2n b.isStore
        if b.isRepeat then
          let x := issueCount bs fuel (i + 1) (i + 1 + b.len)
          let y := issueCount bs fuel (i + 1 + b.len) e
          (1 + b.times * x.1 + y.1, st + b.times * x.2 + y.2)
        else
          let y := issueCount bs fuel (i + 1) e
          (1 + y.1, st + y.2)

/-- Loops lie within the kernel before `END`, nest wholly and at most twice. -/
def loopsOk (bs : List Bundle) : Bool :=
  let n := bs.length
  let reps := (List.range n).filterMap fun i =>
    match bs[i]? with | some b => if b.isRepeat then some (i, b.len) else none | none => none
  reps.all fun r =>
    decide (r.1 + r.2 + 1 < n) &&
      (let outer := reps.filter fun o => decide (o.1 < r.1 ∧ r.1 ≤ o.1 + o.2)
       decide (outer.length ≤ 1) && outer.all fun o => decide (r.1 + r.2 ≤ o.1 + o.2))

/-! ### Latencies (R185) -/

/-- Data registers that a bundle reads. -/
def Bundle.reads (b : Bundle) : List Nat :=
  let mac (w : Nat) : List Nat :=
    let a := field w 24 20
    match opOf w with
    | 0 => []
    | 7 => []
    | 8 => [a, a + 1]
    | 9 => [a, a + 1]
    | 10 => []
    | 11 => []
    | 12 => [field w 19 15]
    | _ => [a, field w 19 15]
  let m := b.mem
  let d := field m 22 18
  let mem : List Nat := match opOf m with
    | 3 => [d]
    | 4 => [d, d + 1]
    | 7 => if field m 12 12 = 1 then [field m 17 13] else []
    | 8 => if field m 17 17 = 1 then [30] else []
    | 11 => [d]
    | _ => []
  let c := b.ctl
  let x := field c 21 17
  let y := field c 16 12
  let ctl : List Nat := match opOf c with
    | 0 => []
    | 5 => [x, x + 1, y, y + 1]
    | 6 => [x, x + 1, y, y + 1]
    | 9 => [x]
    | 0x0A => [x, y, field c 11 7]
    | 0x0B => [x, x + 1, y, y + 1, field c 11 7]
    | 0x0F => [x]
    | 0x10 => [x]
    | 0x11 => [x]
    | 0x12 => [x, x + 1]
    | 0x13 => []
    | 0x14 => [field c 26 22]
    | 0x15 => []
    | 0x16 => [x]
    | 0x17 => []
    | 0x18 => []
    | _ => [x, y]
  mac b.mac0 ++ mac b.mac1 ++ mem ++ ctl

/-- Data registers that a bundle writes, with the latency of each. -/
def Bundle.writes (b : Bundle) : List (Nat × Nat) :=
  let mac (w : Nat) : List (Nat × Nat) :=
    let d := field w 8 4
    match opOf w with
    | 10 => [(d, 3)]
    | 11 => [(d, 3), (d + 1, 3)]
    | 12 => [(d, 3)]
    | _ => []
  let m := b.mem
  let d := field m 22 18
  let dx := field m 18 14
  let dy := field m 13 9
  let mem : List (Nat × Nat) := match opOf m with
    | 1 => [(d, 3)]
    | 2 => [(d, 3), (d + 1, 3)]
    | 5 => [(dx, 3), (dy, 3)]
    | 6 => [(dx, 3), (dx + 1, 3), (dy, 3), (dy + 1, 3)]
    | 7 => [(d, 3), (d + 1, 3)]
    | 12 => [(d, 1)]
    | _ => []
  let c := b.ctl
  let z := field c 26 22
  let op := opOf c
  let ctl : List (Nat × Nat) :=
    if op = 0 ∨ op = 0x16 ∨ op = 0x17 ∨ op = 0x18 then []
    else if op = 5 ∨ op = 6 ∨ op = 0x0B ∨ op = 0x12 then [(z, 1), (z + 1, 1)]
    else [(z, 1)]
  mac b.mac0 ++ mac b.mac1 ++ mem ++ ctl

/-- The accumulator of a MAC syllable if it reads it; the Boolean allows the value of the bundle
before (the exception of R185). -/
def accRead (w : Nat) : Option (Nat × Bool) :=
  let op := opOf w
  if 1 ≤ op ∧ op ≤ 4 then some (field w 26 25, true)
  else if 9 ≤ op ∧ op ≤ 12 then some (field w 26 25, false)
  else none

/-- The accumulator of a MAC syllable if it writes it; the Boolean marks `MAC`, `MSU` and `MUL`. -/
def accWrite (w : Nat) : Option (Nat × Bool) :=
  let op := opOf w
  if 1 ≤ op ∧ op ≤ 6 then some (field w 26 25, true)
  else if 7 ≤ op ∧ op ≤ 9 then some (field w 26 25, false)
  else none

/-- What the latency check carries along the order of issue: the cycle, the cycles at which writes of
data registers become visible, and the same for accumulators with the mark of `accWrite`. -/
structure LatState where
  cyc : Nat := 0
  vis : List (Nat × Nat) := []
  acc : List (Nat × Nat × Bool) := []
  ok : Bool := true

/-- Two of a list are equal. -/
def hasTwice {α : Type} [DecidableEq α] : List α → Bool
  | [] => false
  | x :: r => decide (x ∈ r) || hasTwice r

/-- One bundle of the latency check. -/
def latStep (x : LatState) (b : Bundle) : LatState :=
  let c := x.cyc
  let vis := x.vis.filter fun e => decide (c < e.2)
  let acc := x.acc.filter fun e => decide (c < e.2.1)
  let early := b.reads.any fun r => vis.any fun e => decide (e.1 = r)
  let accEarly := [b.mac0, b.mac1].any fun w =>
    match accRead w with
    | none => false
    | some (a, ex) => acc.any fun e => decide (e.1 = a) && !(ex && e.2.2)
  let new := b.writes.map fun e => (e.1, c + e.2)
  let newAcc := [b.mac0, b.mac1].filterMap fun w => (accWrite w).map fun e => (e.1, c + 2, e.2)
  let clash := new.any (fun e => decide (e ∈ vis)) || hasTwice new
    || (match accWrite b.mac0, accWrite b.mac1 with
        | some (a, _), some (a', _) => decide (a = a') && !(decide (1 ≤ opOf b.mac0 ∧ opOf b.mac0 ≤ 4 ∧ 1 ≤ opOf b.mac1 ∧ opOf b.mac1 ≤ 4))
        | _, _ => false)
    || (decide (opOf b.mem = 5 ∨ opOf b.mem = 6) && decide (field b.mem 26 23 = field b.mem 22 19))
  { cyc := c + 1, vis := vis ++ new, acc := acc ++ newAcc, ok := x.ok && !early && !accEarly && !clash }

/-- The latency check over the order of issue, each loop run often enough for its way back (R185). -/
def latencyOk (bs : List Bundle) : Bool :=
  ((issueOrder (fun n => max 2 (min 4 n)) bs (bs.length + 1) 0 bs.length).foldl
    (fun x i => match bs[i]? with | some b => latStep x b | none => x) {}).ok

/-! ### Execution (R174 to R183, R189) -/

/-- What a run of a kernel commits (R176): word stores in issue order, outputs, published words, and
whether an accumulator clamped; for `REG_LATCH`, what it writes into its target's block. -/
structure Commit where
  stores : List (Nat × Word) := []
  out : List Word := []
  pub : List (Option Word) := []
  accov : Bool := false
  regs : List RegWrite := []

def Bank.reg (k : Bank) (n : Nat) : Word := k.d.getD n 0
def Bank.pair (k : Bank) (n : Nat) : Int := (cat64 (k.reg (n + 1)) (k.reg n)).toInt
def Bank.sreg (k : Bank) (n : Nat) : Int := (k.reg n).toInt

/-- Load a word: the newest covering entry of the store buffer, else committed memory (R177). -/
def Bank.load (mem : Nat → Word) (k : Bank) (a : Nat) : Word :=
  match k.stores.find? (fun e => decide (e.1 = a)) with
  | some e => e.2
  | none => mem a

/-- The effective address of an access of `n` bytes (R177). -/
def AddrGen.ea (g : AddrGen) (n : Nat) : Nat := (g.base + g.ptr.toNat) % 2 ^ 17 / n * n

/-- Post-modify (R182, R183). -/
def AddrGen.step (g : AddrGen) : AddrGen :=
  if g.len = 0 then { g with ptr := g.ptr + BitVec.ofInt 32 g.stride }
  else
    let sum := g.ptr.toInt + g.stride
    let wraps := decide (sum < 0 ∨ (g.len : Int) ≤ sum)
    let g' := { g with ptr := BitVec.ofInt 32 (sum % g.len) }
    match g.next with
    | some l => if wraps then { g' with len := l, next := none } else g'
    | none => g'

/-- The accumulate rule of R180 and R181; the Boolean of the answer says that it clamped now. -/
def accumulate (a : Int × Bool) (p : Int) : (Int × Bool) × Bool :=
  let s := a.1 + p
  if a.2 then (a, false)
  else if 2 ^ 71 - 1 < s then ((2 ^ 71 - 1, true), true)
  else if s < -2 ^ 71 then ((-2 ^ 71, true), true)
  else ((s, false), false)

/-- The product of a MAC syllable. -/
def Bank.product (k : Bank) (w : Nat) : Int :=
  let b := field w 19 15
  k.sreg (field w 24 20) * (if opOf w % 2 = 1 then k.sreg b else ((k.reg b).toNat : Int))

/-- What a MAC syllable adds to its accumulator; `none` for one that replaces it. -/
def Bank.adds (k : Bank) (w : Nat) : Option Int :=
  match opOf w with
  | 1 => some (k.product w)
  | 2 => some (k.product w)
  | 3 => some (-k.product w)
  | 4 => some (-k.product w)
  | 9 => some (k.pair (field w 24 20) * 2 ^ field w 14 9)
  | _ => none

/-- The accumulator that a MAC syllable adds to: `MAC` and `MSU` see what the bundle before wrote by `MAC`, `MSU` or `MUL`,
two cycles before others do (R185). -/
def Bank.accSeen (k : Bank) (w : Nat) : Int × Bool :=
  let n := field w 26 25
  match (if opOf w ≤ 4 then k.accWay.find? fun e => decide (e.2.1 = n) && e.2.2.2 else none) with
  | some e => e.2.2.1
  | none => k.acc.getD n (0, false)

/-- A syllable writes an accumulator, to be seen two cycles later (R185). -/
def Bank.setAcc (k : Bank) (cyc w : Nat) (v : Int × Bool) : Bank :=
  { k with accWay := k.accWay ++ [(cyc + 2, field w 26 25, v, decide (opOf w ≤ 6))] }

/-- Accumulator effects of both lanes; lanes naming one accumulator are summed exactly first (R179). -/
def Bank.macs (k : Bank) (cyc w0 w1 : Nat) : Bank :=
  let k0 := k
  let one (k : Bank) (w : Nat) (other : Option Int) : Bank :=
    match k0.adds w with
    | some p =>
      let r := accumulate (k0.accSeen w) (p + other.getD 0)
      { k.setAcc cyc w r.1 with accov := k.accov || r.2 }
    | none =>
      match opOf w with
      | 5 => k.setAcc cyc w (k0.product w, false)
      | 6 => k.setAcc cyc w (k0.product w, false)
      | 7 => k.setAcc cyc w (0, false)
      | 8 => k.setAcc cyc w (k0.pair (field w 24 20) * 2 ^ field w 14 9, false)
      | _ => k
  if field w0 26 25 = field w1 26 25 ∧ (k0.adds w0).isSome ∧ (k0.adds w1).isSome then one k w0 (k0.adds w1)
  else one (one k w0 none) w1 none

/-- Words of a 64-bit value for registers `d` and `d` + 1. -/
def pairWords (lat cyc d : Nat) (v : Int) : List (Nat × Nat × Word) :=
  [(cyc + lat, d, lo64 (BitVec.ofInt 64 v)), (cyc + lat, d + 1, hi64 (BitVec.ofInt 64 v))]

/-- Register writes of a MAC syllable. -/
def Bank.extracts (k : Bank) (cyc w : Nat) : List (Nat × Nat × Word) :=
  let a := (k.acc.getD (field w 26 25) (0, false)).1
  let d := field w 8 4
  match opOf w with
  | 10 => [(cyc + 3, d, wInt (sat32 (rnd a (field w 14 9))))]
  | 11 => pairWords 3 cyc d (sat64 (rnd a (field w 14 9)))
  | 12 => [(cyc + 3, d, wInt (sat32 (rnd a ((k.reg (field w 19 15)).toNat % 64))))]
  | _ => []

/-- The memory syllable: the bank after it and its register writes. -/
def Bank.memory (mem exch : Nat → Word) (k : Bank) (cyc w : Nat) : Bank × List (Nat × Nat × Word) :=
  let op := opOf w
  let imm := field w 17 0
  let n := field w 26 23
  let d := field w 22 18
  let g := k.ag.getD n {}
  let post (k : Bank) : Bank := if imm % 2 = 1 then { k with ag := k.ag.set n g.step } else k
  match op with
  | 1 => (post k, [(cyc + 3, d, k.load mem (g.ea 4))])
  | 2 => (post k, [(cyc + 3, d, k.load mem (g.ea 8)), (cyc + 3, d + 1, k.load mem (g.ea 8 + 4))])
  | 3 => (post { k with stores := (g.ea 4, k.reg d) :: k.stores }, [])
  | 4 => (post { k with stores := (g.ea 8 + 4, k.reg (d + 1)) :: (g.ea 8, k.reg d) :: k.stores }, [])
  | 5 =>
    let gy := k.ag.getD (field w 22 19) {}
    ({ k with ag := (k.ag.set n g.step).set (field w 22 19) gy.step },
      [(cyc + 3, field w 18 14, k.load mem (g.ea 4)), (cyc + 3, field w 13 9, k.load mem (gy.ea 4))])
  | 6 =>
    let gy := k.ag.getD (field w 22 19) {}
    let x := field w 18 14
    let y := field w 13 9
    ({ k with ag := (k.ag.set n g.step).set (field w 22 19) gy.step },
      [(cyc + 3, x, k.load mem (g.ea 8)), (cyc + 3, x + 1, k.load mem (g.ea 8 + 4)),
       (cyc + 3, y, k.load mem (gy.ea 8)), (cyc + 3, y + 1, k.load mem (gy.ea 8 + 4))])
  | 7 =>
    let r := if field imm 12 12 = 1 then (k.reg (field imm 17 13)).toNat % 256 else imm % 256
    let e := if r ≤ 139 then 8 * r + 2 * field imm 9 8 else 0
    (k, if r ≤ 139 then [(cyc + 3, d, exch e), (cyc + 3, d + 1, exch (e + 1))]
      else [(cyc + 3, d, 0), (cyc + 3, d + 1, 0)])
  | 8 =>
    let b := imm % 2 ^ 17 + (if field imm 17 17 = 1 then (k.reg 30).toNat else 0)
    ({ k with ag := k.ag.set n { g with base := b % 2 ^ 17 } }, [])
  | 9 =>
    ({ k with ag := k.ag.set n (if g.len = 0 then { g with len := imm } else { g with next := some imm }) }, [])
  | 10 => ({ k with ag := k.ag.set n { g with stride := wrapN 16 imm } }, [])
  | 11 => ({ k with ag := k.ag.set n { g with ptr := k.reg d } }, [])
  | 12 => (k, [(cyc + 1, d, g.ptr)])
  | _ => (k, [])

/-- The control syllable: the bank after it and its register writes. -/
def Bank.control (k : Bank) (cyc w : Nat) : Bank × List (Nat × Nat × Word) :=
  let z := field w 26 22
  let x := field w 21 17
  let y := field w 16 12
  let c := field w 11 7
  let sh := field w 6 0
  let put (v : Word) : Bank × List (Nat × Nat × Word) := (k, [(cyc + 1, z, v)])
  let a := k.reg x
  let b := k.reg y
  match opOf w with
  | 1 => put (a + b)
  | 2 => put (a - b)
  | 3 => put (wInt (sat32 (a.toInt + b.toInt)))
  | 4 => put (wInt (sat32 (a.toInt - b.toInt)))
  | 5 => (k, pairWords 1 cyc z (wrap64 (k.pair x + k.pair y)))
  | 6 => (k, pairWords 1 cyc z (wrap64 (k.pair x - k.pair y)))
  | 7 => put (if a.toInt ≤ b.toInt then a else b)
  | 8 => put (if a.toInt ≤ b.toInt then b else a)
  | 9 => put (wInt (sat32 a.toInt.natAbs))
  | 0x0A => put (if k.sreg c < 0 then a else b)
  | 0x0B => (k, pairWords 1 cyc z (if k.sreg c < 0 then k.pair x else k.pair y))
  | 0x0C => put (a &&& b)
  | 0x0D => put (a ||| b)
  | 0x0E => put (a ^^^ b)
  | 0x0F => put (w32 (a.toNat * 2 ^ sh))
  | 0x10 => put (w32 (a.toNat / 2 ^ sh))
  | 0x11 => put (wInt (a.toInt / (2 ^ sh : Nat)))
  | 0x12 => (k, pairWords 1 cyc z (k.pair x / (2 ^ sh : Nat)))
  | 0x13 => put (wInt (wrapN 16 (field w 15 0)))
  | 0x14 => put (setBits (k.reg z) 31 16 (field w 15 0))
  | 0x15 => put (k.input.getD x 0)
  | 0x16 =>
    (if z ≤ 3 then { k with out := k.out.set z a } else { k with pub := k.pub.set (z - 8) (some a) }, [])
  | _ => (k, [])

/-- Register writes that have become visible by a cycle, in the order of their cycles. -/
def Bank.retire (k : Bank) (cyc : Nat) : Bank :=
  let due := k.way.filter fun e => decide (e.1 ≤ cyc)
  let at_ (c : Nat) (d : List Word) : List Word :=
    due.foldl (fun d e => if e.1 = c then d.set e.2.1 e.2.2 else d) d
  { k with
    d := at_ cyc (at_ (cyc - 1) (at_ (cyc - 2) k.d))
    acc := (k.accWay.filter fun e => decide (e.1 ≤ cyc)).foldl (fun a e => a.set e.2.1 e.2.2.1) k.acc
    accWay := k.accWay.filter fun e => decide (cyc < e.1)
    way := k.way.filter fun e => decide (cyc < e.1) }

/-- Issue one bundle: every syllable reads before any writes. -/
def Bank.issue (mem exch : Nat → Word) (k : Bank) (cyc : Nat) (b : Bundle) : Bank :=
  let k := k.retire cyc
  let m := k.memory mem exch cyc b.mem
  let c := k.control cyc b.ctl
  let x := k.extracts cyc b.mac0 ++ k.extracts cyc b.mac1
  let k' := { m.1 with out := c.1.out, pub := c.1.pub, way := k.way ++ x ++ m.2 ++ c.2 }
  let a := k.macs cyc b.mac0 b.mac1
  { k' with accWay := a.accWay, accov := a.accov }

/-- A bank as a dispatch leaves it: cleared, with the presets and `IN` (R175). -/
def Bank.dispatch (slot period param : Nat) (input : List Word) : Bank :=
  { d := ((((List.replicate 32 0).set 28 (w32 slot)).set 29 (w32 period)).set 30 (w32 (param * 64))).set 31
      (w32 (period % 8))
    input := input }

/-- Run a kernel's bundles on a dispatched bank, to the drain of the last write. -/
def runBundles (mem exch : Nat → Word) (bs : List Bundle) (k : Bank) : Bank :=
  let r := (issueOrder id bs (bs.length + 1) 0 bs.length).foldl
    (fun (x : Bank × Nat) i =>
      match bs[i]? with
      | some b => (x.1.issue mem exch x.2 b, x.2 + 1)
      | none => x) (k, 0)
  (((r.1.retire r.2).retire (r.2 + 1)).retire (r.2 + 2)).retire (r.2 + 3)

/-- What a bank commits (R176). -/
def Bank.commit (k : Bank) : Commit := { stores := k.stores.reverse, out := k.out, pub := k.pub, accov := k.accov }

/-! ### Kernel memory (R191 to R193) -/

/-- A byte run of an engine's kernel memory. -/
def State.kmem (s : State) (le o n : Nat) : Bytes := s.leRun le (0x20000 + o) n

/-- A directory entry: identifier and header offset in bytes. -/
def State.dirEntry (s : State) (le i : Nat) : Nat × Nat :=
  let e := s.kmem le (4 * i) 4
  (Bytes.num e 0 2, Bytes.num e 2 2 * 16)

/-- The directory entries in use, in directory order. -/
def State.directory (s : State) (le : Nat) : List (Nat × Nat) :=
  ((List.range 64).map (s.dirEntry le)).filter fun e => decide (e.1 ≠ 0)

/-- The body of a kernel. -/
def State.kernelBody (s : State) (le hdr : Nat) : List Bundle :=
  (List.range (Bytes.num (s.kmem le hdr 32) 4 2)).map fun i => Bundle.read (s.kmem le (hdr + 32 + 16 * i) 16)

/-- Bytes that header and body of an entry cover. -/
def State.kernelSpan (s : State) (le hdr : Nat) : Nat := 32 + 16 * Bytes.num (s.kmem le hdr 32) 4 2

/-- A header with its body is in order for a stop (R192). -/
def State.kernelOk (s : State) (le kernel hdr : Nat) (urgent seals : Bool) : Bool :=
  let h := s.kmem le hdr 32
  let n := Bytes.num h 4 2
  let flags := Bytes.num h 8 2
  decide (0x100 ≤ kernel ∧ kernel ≤ 0x7FFF ∧ 0x100 ≤ hdr ∧ hdr ≤ 0x7FE0)
    && decide (Bytes.num h 0 2 = 0xB7E1 ∧ Bytes.num h 2 2 = kernel ∧ 1 ≤ n ∧ n ≤ 2030 ∧ flags < 8)
    && decide (h.drop 20 = zeros 12) && decide (hdr + 32 + 16 * n ≤ 0x8000)
    && decide (crc32 (s.kmem le (hdr + 32) (16 * n)) = Bytes.num h 12 4)
    && (let bs := s.kernelBody le hdr
        let c := issueCount bs (bs.length + 1) 0 bs.length
        bs.all Bundle.ok && (match bs.getLast? with | some b => b.isEnd | none => false)
          && (bs.dropLast).all (fun b => !b.isEnd) && loopsOk bs && latencyOk bs
          && decide (c.2 ≤ 64 ∧ 7 + c.1 + (c.2 + 15) / 16 ≤ Bytes.num h 6 2)
          && (!urgent || (Nat.testBit flags 2 && bs.all (fun b => !b.isRepeat))))
    && (!seals || Nat.testBit flags 0)

/-- The header of a custom kernel with exactly one directory entry. -/
def State.kernelHdr (s : State) (le kernel : Nat) : Option Nat :=
  match (s.directory le).filter fun e => decide (e.1 = kernel) with
  | [e] => some e.2
  | _ => none

/-- The header of the custom kernel of a stop: the one that its build found (R192), before a build the one of the
directory. -/
def State.hdrOf (s : State) (le : Nat) (r : StopRec) : Option Nat :=
  if r.hdr = 0 then s.kernelHdr le r.kernel else some r.hdr

/-- ROM kernels (R190): worst case in cycles, block bytes, writes `OUT`, usable by urgent stops. -/
def romKernel : Nat → Option (Nat × Nat × Bool × Bool)
  | 0x0001 => some (60, 64, false, false)
  | 0x0002 => some (96, 128, false, false)
  | 0x0010 => some (60, 64, false, false)
  | 0x0020 => some (60, 192, false, false)
  | 0x0021 => some (120, 256, false, false)
  | 0x0022 => some (90, 64, false, false)
  | 0x0030 => some (40, 64, false, false)
  | 0x0031 => some (60, 192, false, false)
  | 0x0032 => some (80, 192, false, false)
  | 0x0033 => some (72, 128, false, false)
  | 0x0034 => some (44, 64, false, false)
  | 0x0040 => some (40, 64, true, false)
  | 0x0041 => some (40, 64, true, false)
  | 0x0042 => some (24, 64, true, false)
  | 0x0043 => some (32, 64, true, false)
  | 0x0050 => some (52, 128, false, false)
  | 0x0060 => some (56, 64, false, true)
  | 0x0070 => some (48, 64, false, false)
  | 0x0071 => some (32, 64, false, false)
  | _ => none

/-- Worst case of a stop's kernel. -/
def State.wcet (s : State) (le : Nat) (r : StopRec) : Nat :=
  match romKernel r.kernel with
  | some q => q.1
  | none => match s.hdrOf le r with
    | some h => Bytes.num (s.kmem le h 32) 6 2
    | none => 0

/-- Time that a run takes, T of R174: the listed time of a ROM kernel. -/
def State.runTime (s : State) (le : Nat) (r : StopRec) : Nat :=
  match romKernel r.kernel with
  | some q => q.1
  | none => match s.hdrOf le r with
    | some h =>
      let bs := s.kernelBody le h
      let c := issueCount bs (bs.length + 1) 0 bs.length
      7 + c.1 + (c.2 + 15) / 16
    | none => 0

/-- Cycles that the commit of a stop takes: ceil(S ÷ 16). S of a ROM kernel is not stated (free, log 6). -/
def State.commitTime (s : State) (le : Nat) (r : StopRec) : Nat :=
  match romKernel r.kernel with
  | some _ => min 4 (Config.num r.kernel)
  | none => match s.hdrOf le r with
    | some h =>
      let bs := s.kernelBody le h
      ((issueCount bs (bs.length + 1) 0 bs.length).2 + 15) / 16
    | none => 0

/-- Unused code-area bundles and entries in use (R193, R198). -/
def State.kernelFree (s : State) (le : Nat) : Nat :=
  let spans := (s.directory le).map fun e => (e.2, e.2 + s.kernelSpan le e.2)
  ((List.range 2032).filter fun i =>
    spans.all fun r => decide (0x100 + 16 * i + 16 ≤ r.1 ∨ r.2 ≤ 0x100 + 16 * i)).length

/-- `LE[n].KMEM` as it reads. -/
def State.kmemView (s : State) (le : Nat) : Word :=
  w32 (s.kernelFree le + 65536 * (s.directory le).length)

end Sys2Proof.Machine
end

