-- ==== Sys2Proof/Machine/Trig.lean ====
section
/-!
DEFINITION. The tables and constants that the ROM kernels hold: sine quarter wave (R205), arc tangents
(R233), and real expressions of π rounded exactly (R245).
-/
namespace Sys2Proof.Machine

/-- π × 2^128, rounded down. -/
def piFix : Nat := 0x3243F6A8885A308D313198A2E03707344

/-- A product of two numbers scaled by 2^128. -/
def fmul (a b : Int) : Int := a * b / 2 ^ 128

/-- Terms of the sine series from term `k` on: `t` is the present term, `x2` the squared argument. -/
def sinTerms (x2 : Int) : Nat → Nat → Int → Int
  | 0, _, _ => 0
  | n + 1, k, t => t + sinTerms x2 n (k + 1) (-(fmul t x2) / (((2 * k + 2) * (2 * k + 3) : Nat) : Int))

/-- T[i] of R205. -/
def sinTab (i : Nat) : Int :=
  let x : Int := (piFix * i / 2048 : Nat)
  min (2 ^ 31 - 1) (rnd (sinTerms (fmul x x) 24 0 x) 97)

/-- sin32 of R205. -/
def sin32 (th : Nat) : Int :=
  let th := th % 2 ^ 32
  let q := th / 2 ^ 30
  let r0 := th % 2 ^ 30
  let r := if q = 1 ∨ q = 3 then 2 ^ 30 - r0 else r0
  let i := r / 2 ^ 20
  let f : Int := (r / 16 % 65536 : Nat)
  let j := min (i + 1) 1024
  let v := sinTab i + rnd ((sinTab j - sinTab i) * f) 16
  if 2 ≤ q then -v else v

/-- cos32 of R205. -/
def cos32 (th : Nat) : Int := sin32 (th + 2 ^ 30)

/-- The arc tangent series at 2^-i from term `k` on, scaled by 2^128. -/
def atanTerms (i : Nat) : Nat → Nat → Int
  | 0, _ => 0
  | n + 1, k =>
    let t : Int := (2 ^ 128 / 2 ^ (i * (2 * k + 1)) / (2 * k + 1) : Nat)
    (if k % 2 = 0 then t else -t) + atanTerms i n (k + 1)

/-- A[i] of R233. -/
def atanTab (i : Nat) : Nat :=
  if i = 0 then 0x20000000 else (rndDiv (atanTerms i 66 0 * 2 ^ 32) (2 * piFix)).toNat

/-- The rotations of atan2_32 from step `i` (R233). -/
def atanGo : Nat → Nat → Int → Int → Int → Int
  | 0, _, _, _, ang => ang
  | n + 1, i, x, y, ang =>
    let p : Int := (2 ^ i : Nat)
    if 0 ≤ y then atanGo n (i + 1) (x + y / p) (y - x / p) (ang + atanTab i)
    else atanGo n (i + 1) (x - y / p) (y + x / p) (ang - atanTab i)

/-- atan2_32 of R233. -/
def atan2 (y x : Int) : Nat :=
  toU 32 (if x < 0 then atanGo 28 0 (-x) (-y) (2 ^ 31) else atanGo 28 0 x y 0)

end Sys2Proof.Machine
end

