-- ==== Sys2Proof/Machine/Loops.lean ====
section
/-!
DEFINITION. The servo kernels: position, velocity, current, modulation and trim (chapter 08, R199 to
R217).
-/
namespace Sys2Proof.Machine

/-- A run of a kernel: engine, slot, parameter block, period number and the input words `IN0` to `IN7`. -/
structure Call where
  le : Nat
  slot : Nat
  param : Nat
  period : Nat
  input : List Word
  urgent : Bool := false

/-! ### Axis state block (R199, R200) -/

/-- Address of a field of a slot's axis state block. -/
def axbAt (slot o : Nat) : Nat := (0x10000 + slot * 256 + o) % 2 ^ 17

/-- Fields of the axis state block of the slot of a call. -/
def State.axbW (s : State) (c : Call) (o : Nat) : Word := s.leWord c.le (axbAt c.slot o)
def State.axbI (s : State) (c : Call) (o : Nat) : Int := (s.axbW c o).toInt
def State.axbU (s : State) (c : Call) (o : Nat) : Nat := (s.axbW c o).toNat
def State.axb64 (s : State) (c : Call) (o : Nat) : Int := (cat64 (s.axbW c (o + 4)) (s.axbW c o)).toInt

/-- Stores to the axis state block. -/
def put32 (c : Call) (o : Nat) (v : Int) : List (Nat × Word) := [(axbAt c.slot o, wInt v)]
def put64 (c : Call) (o : Nat) (v : Int) : List (Nat × Word) :=
  [(axbAt c.slot o, lo64 (BitVec.ofInt 64 v)), (axbAt c.slot (o + 4), hi64 (BitVec.ofInt 64 v))]

/-- `SAT` with one bit replaced. -/
def satBit (w : Nat) (n : Nat) (v : Bool) : Nat :=
  if Nat.testBit w n then (if v then w else w - 2 ^ n) else (if v then w + 2 ^ n else w)

/-! ### Parameter blocks (R199, R214, R215) -/

/-- The kernel block of a call. -/
def Call.key (c : Call) : Nat := c.le * 2048 + c.param

/-- A parameter as last written into the block of the call's stop. -/
def State.bp (s : State) (c : Call) (idx : Nat) : BitVec 64 := Map.get (fun _ => 0) (s.blk c.key).params idx
def State.bpI (s : State) (c : Call) (idx : Nat) : Int := (s.bp c idx).toInt
def State.bpU (s : State) (c : Call) (idx : Nat) : Nat := (s.bp c idx).toNat

/-- Run-to-run words of a block: 0 to 3 the velocity, d, q and trim integrators; 10 to 17 the biquad
states; 20 to 24 `STEP_GEN`; 30 on other kernels. -/
def State.kw (s : State) (c : Call) (i : Nat) : Int := Map.get (fun _ => 0) (s.blk c.key).words i
def State.setKw (s : State) (c : Call) (i : Nat) (v : Int) : State :=
  s.onBlk c.key fun b => { b with words := Map.set (fun _ => 0) b.words i v }

/-! ### Number forms and gains (R201 to R204) -/

/-- A velocity word (R201). -/
def v32 (x : Int) : Int := sat32 (rnd x 28)

/-- abs32() of the chapter. -/
def abs32 (x : Int) : Int := min (x.natAbs : Int) (2 ^ 31 - 1)

/-- clamp() of the chapter. -/
def clampAbs (x l : Int) : Int := max (min x l) (-l)

/-- A gain: mantissa and exponent (R202). -/
structure Gain where
  m : Nat
  e : Nat

def gainOf (v : BitVec 64) : Gain := ⟨v.toNat % 2 ^ 32, v.toNat / 2 ^ 32 % 32⟩

/-- gmul() of R202. -/
def gmul (g : Gain) (x : Int) : Int := rnd ((g.m : Int) * x) (31 - g.e)

/-- integ() of R203: the new integrator and whether acc72() limited. -/
def integ (i : Int) (g : Gain) (x : Int) : Int × Bool :=
  let v := i + (g.m : Int) * x * 2 ^ (g.e + 1)
  let a := clampI (-2 ^ 71) (2 ^ 71 - 1) v
  (sat64 a, decide (a ≠ v))

/-! ### Gain scheduling (R213) -/

/-- wt() of R213. -/
def schedWt (x edge : Int) (k : Nat) : Int :=
  rnd (min (max (x - edge + 2 ^ k) 0) (2 ^ (k + 1)) * 2 ^ 30) (k + 1)

/-- The mantissas of one current band blended over the speed edges. -/
def schedSpeed (sp : Int) (tab : Nat → Int) (edge : Nat → Int) (n w : Nat) : Int :=
  (List.range n).foldl (fun m j =>
    m + rnd (schedWt sp (edge (j + 1)) w * (tab (j + 1) - tab j)) 30) (tab 0)

/-- A gain under the schedule: `bit` of `GS_EN` selects it, `tab` is its first set (R213). -/
def State.sched (s : State) (c : Call) (base : Nat) (loop tab : Nat) : Gain :=
  let g := gainOf (s.bp c base)
  let cfg := s.axbU c 0x7C
  if !Nat.testBit cfg (25 + loop) then g
  else
    let sp := abs32 (v32 (s.axb64 c 0x08))
    let t (j : Nat) : Int := ((s.bpU c (tab + j)) % 2 ^ 32 : Nat)
    let edge (j : Nat) : Int := (s.axbU c (0x68 + 4 * j) : Nat)
    let n := min 3 (Sys2Proof.field cfg 7 0)
    let w := Sys2Proof.field cfg 15 8
    let m0 := schedSpeed sp t edge n w
    let r := if Nat.testBit cfg 24 then
        let m1 := schedSpeed sp (fun j => t (4 + j)) edge n w
        m0 + rnd (schedWt (s.axbU c 0x64 : Nat) (s.axbU c 0x78 : Nat) (Sys2Proof.field cfg 23 16) * (m1 - m0)) 30
      else m0
    ⟨(clampI 0 (2 ^ 32 - 1) r).toNat, g.e⟩

/-! ### Position and velocity loops (R206, R207) -/

/-- `POS_LOOP`. -/
def posLoop (c : Call) (s : State) : Commit × State :=
  let e := sat32 (wrap64 (s.axb64 c 0x10 - s.axb64 c 0x00) / 256)
  let kp := s.sched c 0x400 2 0x530
  let u := sat64 (gmul kp e + gmul (gainOf (s.bp c 0x401)) (v32 (s.axb64 c 0x18)) + s.axbI c 0x5C * 2 ^ 28)
  let ref := clampAbs u ((s.bpU c 0x402 : Nat) * 2 ^ 28)
  ({ stores := put64 c 0x28 ref ++ put32 c 0x68 (satBit (s.axbU c 0x68) 0 (decide (ref ≠ u)) : Nat) }, s)

/-- A biquad section: first coefficient index `k`, first state word `z` (R207). -/
def biquad (c : Call) (k z : Nat) (x : Int) (s : State) : Int × State :=
  let y := sat32 (rnd (s.bpI c k * x + s.bpI c (k + 1) * s.kw c z + s.bpI c (k + 2) * s.kw c (z + 1)
    - s.bpI c (k + 3) * s.kw c (z + 2) - s.bpI c (k + 4) * s.kw c (z + 3)) 30)
  let s' := (s.setKw c (z + 1) (s.kw c z)).setKw c z x
  (y, (s'.setKw c (z + 3) (s.kw c (z + 2))).setKw c (z + 2) y)

/-- `VEL_LOOP`. -/
def velLoop (c : Call) (s : State) : Commit × State :=
  let ev := sat32 (v32 (s.axb64 c 0x28) - v32 (s.axb64 c 0x08))
  let imax := s.bpI c 0x202
  let vint := s.kw c 0
  let kp := s.sched c 0x311 1 0x520
  let ki := s.sched c 0x312 1 0x528
  let u := gmul kp ev + rnd vint 32 + gmul (gainOf (s.bp c 0x300)) (sat32 (rnd (s.axb64 c 0x20) 32))
    + s.axbI c 0x60
  let u1 := clampAbs u imax
  let en := s.bpU c 0x310
  let a := if Nat.testBit en 0 then biquad c 0x301 10 u1 s else (u1, s)
  let b := if Nat.testBit en 1 then biquad c 0x306 14 a.1 a.2 else a
  let u2 := clampAbs b.1 imax
  let lim := decide (u1 ≠ u ∨ u2 ≠ b.1)
  let i := integ vint ki ev
  let s' := if lim then b.2 else b.2.setKw c 0 i.1
  ({ stores := put32 c 0x44 u2 ++ put32 c 0x68 (satBit (s.axbU c 0x68) 1 lim : Nat),
     accov := !lim && i.2 }, s')

/-! ### Current loops (R208, R210, R211) -/

/-- KTH of R208 for the axis period of a slot. -/
def State.kTh (s : State) (slot : Nat) : Int :=
  let t := s.tBase * s.rateM slot
  min (rndDiv ((s.pn slot 0x105 * 2 ^ 60 * t : Nat) : Int) (s.pn slot 0x103 * 10 ^ 9)) (2 ^ 63 - 1)

/-- The two-axis current control of `CUR_3PH` and `CUR_2PH` on stator currents `ial`, `ibe`. -/
def curVector (c : Call) (ial ibe : Int) (s : State) : Commit × State :=
  let th := (s.axbU c 0x30 + s.bpU c 0x20A) % 2 ^ 32
  let sn := sin32 th
  let cs := cos32 th
  let id := sat32 (rnd (ial * cs + ibe * sn) 31)
  let iq := sat32 (rnd (ibe * cs - ial * sn) 31)
  let w := v32 (s.axb64 c 0x08)
  let fd := -gmul (gainOf (s.bp c 0x206)) (sat32 (rnd (w * iq) 31))
  let fq := gmul (gainOf (s.bp c 0x205)) (sat32 (rnd (w * id) 31)) + gmul (gainOf (s.bp c 0x207)) w
  let vmax := max (sat32 (rnd (s.axbI c 0x40 * (s.bpU c 0x204 : Nat)) 31)) 0
  let iqRef := s.axbI c 0x44
  let ed := sat32 (s.axbI c 0x48 - id)
  let eq := sat32 (iqRef - iq)
  let kp := s.sched c 0x200 0 0x510
  let ki := s.sched c 0x201 0 0x518
  let ud := gmul kp ed + rnd (s.kw c 1) 32 + fd
  let vd := clampAbs ud vmax
  let uq := gmul kp eq + rnd (s.kw c 2) 32 + fq
  let vq := clampAbs uq (vmax - abs32 vd / 2)
  let dl := decide (vd ≠ ud)
  let ql := decide (vq ≠ uq)
  let di := integ (s.kw c 1) ki ed
  let qi := integ (s.kw c 2) ki eq
  let sat := s.axbU c 0x68
  let dth := if Nat.testBit sat 8 then 0 else wrap32 (rnd (w * s.kTh c.slot) 32)
  let tho := toU 32 ((th : Int) + rnd (dth * (s.bpU c 0x208 : Nat)) 24)
  let s2 := sin32 tho
  let c2 := cos32 tho
  let s' := if dl then s else s.setKw c 1 di.1
  let s' := if ql then s' else s'.setKw c 2 qi.1
  ({ stores := put32 c 0x54 (sat32 (rnd (vd * c2 - vq * s2) 31)) ++ put32 c 0x58 (sat32 (rnd (vd * s2 + vq * c2) 31))
       ++ put32 c 0x34 (s.axbI c 0x30) ++ put32 c 0x50 id ++ put32 c 0x4C iq ++ put32 c 0x64 (abs32 iqRef)
       ++ put32 c 0x68 (satBit (satBit (satBit sat 2 dl) 3 ql) 8 false : Nat)
     accov := (!dl && di.2) || (!ql && qi.2) }, s')

/-- `CUR_3PH`: the Clarke transform first. -/
def cur3ph (c : Call) (s : State) : Commit × State :=
  let k1 : Int := 0x49E69D16
  curVector c (s.axbI c 0x38) (sat32 (rnd (k1 * s.axbI c 0x38 + 2 * k1 * s.axbI c 0x3C) 31)) s

/-- `CUR_2PH`. -/
def cur2ph (c : Call) (s : State) : Commit × State := curVector c (s.axbI c 0x38) (s.axbI c 0x3C) s

/-- `CUR_DC`. -/
def curDc (c : Call) (s : State) : Commit × State :=
  let iqRef := s.axbI c 0x44
  let ia := s.axbI c 0x38
  let e := sat32 (iqRef - ia)
  let kp := s.sched c 0x200 0 0x510
  let ki := s.sched c 0x201 0 0x518
  let u := gmul kp e + rnd (s.kw c 2) 32 + gmul (gainOf (s.bp c 0x207)) (v32 (s.axb64 c 0x08))
  let v := clampAbs u (max (sat32 (rnd (s.axbI c 0x40 * (s.bpU c 0x204 : Nat)) 31)) 0)
  let lim := decide (v ≠ u)
  let i := integ (s.kw c 2) ki e
  ({ stores := put32 c 0x54 v ++ put32 c 0x58 0 ++ put32 c 0x4C ia ++ put32 c 0x50 0 ++ put32 c 0x64 (abs32 iqRef)
       ++ put32 c 0x34 (s.axbI c 0x30) ++ put32 c 0x68 (satBit (satBit (s.axbU c 0x68) 3 lim) 8 false : Nat),
     accov := !lim && i.2 }, if lim then s else s.setKw c 2 i.1)

/-! ### Modulation (R209 to R211) -/

/-- The scaled demands ma and mb of `MOD_3PH`. -/
def State.modScale (s : State) (c : Call) : Int × Int :=
  let rcp : Int := (s.bpU c 0x209 : Nat)
  let n := min (max (rnd (s.axbI c 0x40 * rcp) 31) (2 ^ 29)) (3 * 2 ^ 29)
  let r1 := 2 ^ 31 - n
  let r2 := rnd (r1 * (2 ^ 31 - rnd (n * r1) 30)) 30
  let f (v : Int) : Int := sat32 (rnd (sat32 (rnd (v * rcp) 30) * r2) 30)
  (f (s.axbI c 0x54), f (s.axbI c 0x58))

/-- A duty word and whether it was limited. -/
def duty (x : Int) : Int × Bool := let d := min (max x 0) (2 ^ 31 - 1); (d, decide (d ≠ x))

/-- The commit of a modulation kernel from its four outputs. -/
def modOut (c : Call) (s : State) (d : List (Int × Bool)) : Commit × State :=
  ({ stores := put32 c 0x68 (satBit (s.axbU c 0x68) 4 (d.any Prod.snd) : Nat), out := d.map fun x => wInt x.1 }, s)

/-- `MOD_3PH`. -/
def mod3ph (c : Call) (s : State) : Commit × State :=
  let m := s.modScale c
  let k3 : Int := 0x6ED9EBA1
  let ua := m.1
  let ub := sat32 (rnd (-(2 ^ 30) * m.1 + k3 * m.2) 31)
  let uc := sat32 (rnd (-(2 ^ 30) * m.1 - k3 * m.2) 31)
  let z := -rnd (max ua (max ub uc) + min ua (min ub uc)) 1
  modOut c s [duty (2 ^ 30 + ua + z), duty (2 ^ 30 + ub + z), duty (2 ^ 30 + uc + z), (0, false)]

/-- A full bridge from one demand. -/
def bridge (m : Int) : List (Int × Bool) := [duty (2 ^ 30 + rnd m 1), duty (2 ^ 30 - rnd m 1)]

/-- `MOD_2PH`. -/
def mod2ph (c : Call) (s : State) : Commit × State :=
  let m := s.modScale c
  modOut c s (bridge m.1 ++ bridge m.2)

/-- `MOD_DC`: a half bridge for a voice coil, else a full bridge. -/
def modDc (c : Call) (s : State) : Commit × State :=
  let m := s.modScale c
  let d := if s.axisType c.slot = 5 then [duty (2 ^ 30 + m.1), (0, false)] else bridge m.1
  modOut c s (d ++ [(0, false), (0, false)])

/-! ### Trim loop (R212) -/

/-- `TRIM`. -/
def trimLoop (c : Call) (s : State) : Commit × State :=
  let x := (c.input.getD (s.bpU c 0x441) 0).toInt
  let e := sat32 (s.bpI c 0x442 - x)
  let u := gmul (gainOf (s.bp c 0x443)) e + rnd (s.kw c 3) 32
  let y := clampAbs u (s.bpI c 0x445)
  let mode := s.bpU c 0x440
  let i := integ (s.kw c 3) (gainOf (s.bp c 0x444)) e
  let adv := decide (y = u)
  let s' := s.setKw c 3 (if mode = 0 then 0 else if adv then i.1 else s.kw c 3)
  ({ stores := put32 c 0x5C (if mode = 1 then y else 0) ++ put32 c 0x60 (if mode = 2 then y else 0),
     accov := adv && i.2 }, s')

/-! ### Firmware's writes into blocks (R214, R215, R556) -/

/-- The blocks of the slot's stops in the active tables. -/
def State.slotBlocks (s : State) (slot : Nat) : List Nat :=
  s.active.filterMap fun e =>
    if e.2.flags % 4 ≠ 0 ∧ e.2.slot = slot then some (e.1 / 512 * 2048 + e.2.param) else none

/-- The engine that computes a slot. -/
def State.slotLe (s : State) (slot : Nat) : Nat := s.pn slot 1

/-- Write a word of a slot's axis state block. -/
def State.setAxb (s : State) (slot o : Nat) (v : Word) : State := s.setLeWord (s.slotLe slot) (axbAt slot o) v

/-- Write a 64-bit field of a slot's axis state block. -/
def State.setAxb64 (s : State) (slot o : Nat) (v : Int) : State :=
  (s.setAxb slot o (lo64 (BitVec.ofInt 64 v))).setAxb slot (o + 4) (hi64 (BitVec.ofInt 64 v))

/-- Fields of a slot's axis state block. -/
def State.axWord (s : State) (slot o : Nat) : Word := s.leWord (s.slotLe slot) (axbAt slot o)
def State.ax64 (s : State) (slot o : Nat) : Int := (cat64 (s.axWord slot (o + 4)) (s.axWord slot o)).toInt

/-- The indices of ranges 0x0200 to 0x0500. -/
def loopIndices : List Nat :=
  (params02 ++ params03 ++ params04 ++ params05).flatMap fun d => (List.range d.count).map (d.first + ·)

/-- Write parameters in force into the blocks of a slot's stops. -/
def writeBlocks (slot : Nat) (idx : List Nat) (s : State) : State :=
  (s.slotBlocks slot).foldl (fun s k =>
    s.onBlk k fun b =>
      { b with params := idx.foldl (fun m i => Map.set (fun _ => 0) m i (s.par slot i)) b.params }) s

/-- Copy the schedule fields into the axis state block (R214). -/
def writeSchedule (slot : Nat) (s : State) : State :=
  let s := (List.range 3).foldl (fun s j => s.setAxb slot (0x6C + 4 * j) (w32 (s.pn slot (0x502 + j)))) s
  let s := s.setAxb slot 0x78 (w32 (s.pn slot 0x507))
  s.setAxb slot 0x7C (w32 (s.pn slot 0x501 + 2 ^ 8 * s.pn slot 0x505 + 2 ^ 16 * s.pn slot 0x508
    + 2 ^ 24 * s.pn slot 0x506 + 2 ^ 25 * s.pn slot 0x500))

/-- Zero run-to-run words of the blocks of a slot's stops. -/
def zeroWords (slot : Nat) (ws : List Nat) (s : State) : State :=
  (s.slotBlocks slot).foldl (fun s k =>
    s.onBlk k fun b => { b with words := ws.foldl (fun m i => Map.set (fun _ => 0) m i 0) b.words }) s

/-- The loops at the boundary at which `ENABLE` takes hold (R214). -/
def enableLoops (slot : Nat) (s : State) : State :=
  let s := writeSchedule slot (writeBlocks slot loopIndices s)
  let s := s.setAxb slot 0x48 (wInt (s.pi slot 0x203))
  let s := s.setAxb64 slot 0x28 0
  let s := [0x44, 0x5C, 0x60, 0x64].foldl (fun s o => s.setAxb slot o 0) s
  zeroWords slot [0, 1, 2, 3, 10, 11, 12, 13, 14, 15, 16, 17] (s.setAxb slot 0x68 0x100)

end Sys2Proof.Machine
end

