-- ==== Sys2Proof/Machine/FbKernels.lean ====
section
/-!
DEFINITION. The feedback, observer and stepper kernels (R224, R233 to R245, R349).
-/
namespace Sys2Proof.Machine

/-! ### Axis flags (R24, R299) -/

def State.setHomed (s : State) (n : Nat) (v : Bool) : State := s.onAxis n fun a => { a with homed := v }
def State.setUncertain (s : State) (n : Nat) (v : Bool) : State := s.onAxis n fun a => { a with uncertain := v }

/-! ### Raw data (R223, R371) -/

/-- A sample as the feedback kernels read it. -/
structure Raw where
  in0 : Word
  in1 : Word
  sn : Int
  cs : Int
  ia : Word
  ib : Word
  udc : Word
  st : Word

/-- The sample of a call: the ring record for `FBK_SRC` 0, else the local record. -/
def State.raw (s : State) (c : Call) : Raw :=
  let w (i : Nat) : Word := c.input.getD i 0
  if s.fbkSrc c.slot = 0 then
    ⟨w 0, w 1, (w 2 &&& 0xFFFF0000).toInt, wrapN 16 (bits (w 2) 15 0) * 65536, w 3, w 4, w 6, w 7⟩
  else ⟨w 0, w 1, (w 2).toInt, (w 3).toInt, w 4, w 5, w 6, w 7⟩

/-- Stores of `IA`, `IB` and `UDC`. -/
def Raw.currents (r : Raw) (c : Call) : List (Nat × Word) :=
  [(axbAt c.slot 0x38, r.ia), (axbAt c.slot 0x3C, r.ib), (axbAt c.slot 0x40, r.udc)]

/-- Where kernel and kind, or kind and the local channel's mode, do not match (R224). -/
def State.fbMismatch (s : State) (c : Call) (sincos : Bool) : Bool :=
  let kind := s.pn c.slot 0x100
  let m := if s.fbkCh c.slot < 16 then (s.fb (s.fbkCh c.slot)).mode else 0
  decide ((kind = 2) ≠ (sincos = true)) ||
    (decide (s.fbkSrc c.slot = 1 ∨ s.fbkSrc c.slot = 2) &&
      !(match kind with | 0 => decide (m = 1) | 1 => decide (m = 2 ∨ m = 3) | _ => decide (m = 4)))

/-- A run on a mismatch: every word that the kernel writes is free (R224). -/
def fbUndefined (c : Call) (s : State) : Commit × State :=
  let words := [0x80, 0x84, 0x88, 0x8C, 0x90, 0x94, 0x98, 0x9C, 0xA0, 0x30, 0x38, 0x3C, 0x40]
  ({ stores := words.map fun o => (axbAt c.slot o, Config.mismatch o c.period c.input) }, s)

/-! ### Sin/cos correction and calibration (R233 to R235) -/

/-- The corrected signals of R233: s1, c1, c2 and c3. -/
def State.scSignals (s : State) (slot : Nat) (r : Raw) : Int × Int × Int × Int :=
  let s1 := sat32 (r.sn - s.pi slot 0x10A)
  let c1 := sat32 (r.cs - s.pi slot 0x10B)
  let c2 := sat32 (rnd (c1 * s.pi slot 0x10C) 30)
  (s1, c1, c2, sat32 (rnd (c2 * s.pi slot 0x10D - s1 * s.pi slot 0x10E) 30))

/-- Take one value into a pair of extremes. -/
def extreme (ext : List Int) (i : Nat) (v : Int) : List Int :=
  (ext.set (2 * i) (max (ext.getD (2 * i) v) v)).set (2 * i + 1) (min (ext.getD (2 * i + 1) v) v)

/-- Take the values of a good sample into a calibration window (R235). -/
def Calib.take (k : Calib) (vs : List Int) : Calib :=
  if k.ext.isEmpty then { k with ext := vs.flatMap fun v => [v, v], samples := 1 }
  else { k with ext := (vs.zip (List.range vs.length)).foldl (fun e x => extreme e x.2 x.1) k.ext,
                samples := k.samples + 1 }

/-- Extremes of quantity `i` of a window: s1, c2, s1 + c2, s1 - c2, s1 and c1 before offset. -/
def Calib.hi (k : Calib) (i : Nat) : Int := k.ext.getD (2 * i) 0
def Calib.lo (k : Calib) (i : Nat) : Int := k.ext.getD (2 * i + 1) 0
def Calib.range (k : Calib) (i : Nat) : Int := k.hi i - k.lo i

/-- The window qualifies: the first four quantities have reached both signs. -/
def Calib.qualifies (k : Calib) : Bool := (List.range 4).all fun i => decide (k.lo i < 0 ∧ 0 < k.hi i)

/-- The proposals of a window (R235), the square root of 1 - σ² being 2pq ÷ (p² + q²). -/
def Calib.propose (k : Calib) (g : Int) : List Int :=
  let p := k.range 2
  let q := k.range 3
  let d := (2 * p * q).toNat
  [ rndDiv (k.hi 4 + k.lo 4) 2, rndDiv (k.hi 5 + k.lo 5) 2, rndDiv (k.range 4 * g) (k.range 5).toNat,
    rndDiv (2 ^ 30 * (p * p + q * q)) d, rndDiv (2 ^ 30 * (p * p - q * q)) d ]

/-- A proposal as its parameter holds it; one beyond 32 bits is a value that the spec does not state. -/
def holdI32 (v : Int) : Int := if sat32 v = v then v else (lo64 (Config.beyond v)).toInt

/-- The proposals due now replace 0x010A to 0x010E when `FB_SC_AUTO` is 1 (R235). -/
def calibAdopt (slot k : Nat) (s : State) : State :=
  let a := s.axis slot
  if a.calib.due ≠ some k then s
  else
    let s := s.setAxis slot { a with calib := { a.calib with due := none } }
    if s.pn slot 0x10F = 1 then
      (List.range 5).foldl (fun s i =>
        s.setPar slot (0x10A + i) (BitVec.ofInt 64 (a.calib.proposals.getD i 0))) s
    else s

/-- A calibration window ends at a boundary whose number is a multiple of 65,536 (R235). -/
def calibBoundary (slot k : Nat) (s : State) : State :=
  let s := calibAdopt slot k s
  if k % 65536 ≠ 0 then s
  else
    let c := (s.axis slot).calib
    if !c.qualifies then s.onAxis slot fun a => { a with calib := { a.calib with ext := [], samples := 0 } }
    else
      s.onAxis slot fun a =>
        { a with calib := { proposals := (c.propose (s.pi slot 0x10C)).map holdI32, due := some (k + 65536) } }

/-! ### The feedback kernels (R236 to R243) -/

/-- Bits of `FB_FLAGS`. -/
structure FbFlags where
  init : Bool
  bad : Bool
  initNow : Bool
  idxValid : Bool
  fault : Bool
  mismatch : Bool
  run : Nat

def FbFlags.of (w : Nat) : FbFlags :=
  ⟨w.testBit 0, w.testBit 1, w.testBit 2, w.testBit 3, w.testBit 4, w.testBit 5, field w 15 8⟩

def FbFlags.word (f : FbFlags) : Nat :=
  b2n f.init + 2 * b2n f.bad + 4 * b2n f.initNow + 8 * b2n f.idxValid + 16 * b2n f.fault + 32 * b2n f.mismatch
    + 256 * f.run

/-- The words that a feedback run works on. -/
structure FbRun where
  pos : Int
  turn : Int
  rawPrev : Nat
  flags : FbFlags
  idxExp : Nat
  idxDev : Int
  theta : Nat

/-- Fine counts of a revolution. -/
def State.turnSpan (s : State) (slot : Nat) : Int := (s.pn slot 0x103 * 2 ^ 24 : Nat)

/-- A change under `FB_DIR`. -/
def State.dirSign (s : State) (slot : Nat) (d : Int) : Int := if s.pn slot 0x101 = 1 then -d else d

/-- The raw value of a sample as `RAW_PREV` holds it: kind 2 takes the angle `a` (R237). -/
def State.rawWord (s : State) (slot : Nat) (r : Raw) (a : Nat) : Nat :=
  match s.pn slot 0x100 with
  | 0 => r.in0.toNat
  | 1 => (r.in1.toNat * 2 ^ 32 + r.in0.toNat) % 2 ^ s.pn slot 0x102
  | _ =>
    let dq : Int := ((a / 2 ^ 30 : Nat) - (r.in0.toNat : Int)) % 4
    let dq := if 2 ≤ dq then dq - 4 else dq
    toU 32 ((r.in0.toNat : Int) + dq) * 2 ^ 32 + a % 2 ^ 30

/-- The change in fine counts between two raw words, before `FB_DIR` (R237). -/
def State.rawChange (s : State) (slot : Nat) (new old : Nat) : Int :=
  match s.pn slot 0x100 with
  | 0 => wrap32 ((new : Int) - old) * 2 ^ 24
  | 1 => wrapN (s.pn slot 0x102) ((new : Int) - old) * 2 ^ 24
  | _ =>
    (wrap32 ((new / 2 ^ 32 : Nat) - (old / 2 ^ 32 : Nat)) * 2 ^ 30 + (new % 2 ^ 30 : Nat) - (old % 2 ^ 30 : Nat))
      * 2 ^ (s.pn slot 0x104 - 8)

/-- Turns of an absolute axis with a multi-turn channel: the quarter of a single-turn value, and the turns
that a quarter count gives (R243). -/
def State.mtQuarter (s : State) (slot : Nat) (st : Nat) : Nat :=
  (((st : Int) - s.pn slot 0x114) % s.pn slot 0x103).toNat * 4 / s.pn slot 0x103
def State.mtTurns (s : State) (slot : Nat) (st : Nat) (qt : Int) : Int :=
  let dq := ((s.mtQuarter slot st : Int) - qt) % 4
  let dq := if 2 ≤ dq then dq - 4 else dq
  (qt + dq) / 4

/-- A multi-turn channel is named (R243). -/
def State.mtNamed (s : State) (slot : Nat) : Bool :=
  decide (s.pn slot 0x100 = 1) && decide (s.pn slot 0x113 ≠ 255)

/-- `POS_MEAS` without the home offset and `TURN_POS` at initialisation (R238, R243). -/
def State.initPos (s : State) (slot raw : Nat) : Int × Int :=
  if s.pn slot 0x100 ≠ 1 then (0, 0)
  else
    let st := raw % s.pn slot 0x103
    let turn : Int := if s.pn slot 0x106 = 0 then 0 else (st * 2 ^ 24 : Nat)
    match (if s.mtNamed slot then (s.axis slot).mtQt else none) with
    | some qt => (wrap64 ((s.mtTurns slot st qt * s.pn slot 0x103 + st) * 2 ^ 24), turn)
    | none => (wrap64 (raw * 2 ^ 24 : Nat), turn)

/-- What initialisation does to the axis: `HOMED`, and `POS_UNCERTAIN` for an invalid channel (R243, R299). -/
def fbInitAxis (slot : Nat) (s : State) : State :=
  let invalid := s.mtNamed slot && (s.axis slot).mtQt.isNone
  let s := if invalid then s.setUncertain slot true else s
  s.setHomed slot (decide (s.pn slot 0x100 = 1 ∧ s.pn slot 0x706 = 1) && !invalid)

/-- The index check and correction (R240). -/
def State.indexCheck (s : State) (slot : Nat) (x : Word) (f : FbRun) : FbRun :=
  if !f.flags.idxValid then { f with idxExp := x.toNat, flags := { f.flags with idxValid := true } }
  else
    let kind0 := decide (s.pn slot 0x100 = 0)
    let c : Int := if kind0 then (s.pn slot 0x103 : Int) else (s.pn slot 0x103 * 4 / 2 ^ s.pn slot 0x104 : Nat)
    let dev := wrap32 ((x.toNat : Int) - f.idxExp) % c
    let dev := if c ≤ 2 * dev then dev - c else dev
    if dev.natAbs ≤ s.pn slot 0x112 then { f with idxExp := x.toNat }
    else
      let cfg := s.pn slot 0x110
      let f := { f with idxDev := dev, flags := { f.flags with mismatch := true } }
      if cfg.testBit 1 ∧ dev.natAbs ≤ s.pn slot 0x111 then
        let k : Int := if kind0 then 1 else 2 ^ (s.pn slot 0x104 - 2)
        let d := s.dirSign slot (-dev * k * 2 ^ 24)
        { f with pos := wrap64 (f.pos + d), turn := (f.turn + d) % s.turnSpan slot, idxExp := x.toNat }
      else
        { f with idxExp := toU 32 ((x.toNat : Int) - dev),
                 flags := { f.flags with fault := f.flags.fault || cfg.testBit 2 } }

/-- Travel from the index edge to the sample (R238). -/
def State.indexTravel (s : State) (slot : Nat) (r : Raw) (raw : Nat) : Int :=
  let d : Int := if s.pn slot 0x100 = 0 then wrap32 ((r.in0.toNat : Int) - r.in1.toNat) * 2 ^ 24
    else (wrap32 ((raw / 2 ^ 32 : Nat) - (r.in1.toNat : Int)) * 2 ^ 30 + (raw % 2 ^ 30 : Nat)) * 2 ^ (s.pn slot 0x104 - 8)
  s.dirSign slot d

/-- Homing takes the position of the first index that is checked while it waits for one (R293). -/
def homeIndex (slot : Nat) (pos : Int) (s : State) : State :=
  s.onAxis slot fun a =>
    if a.homing.outcome = 1 ∧ a.homing.phase = 4 ∧ a.homing.method ≠ 6 ∧ !a.homing.idxSeen then
      { a with homing := { a.homing with idxSeen := true, refPos := wrap64 pos } }
    else a

/-- A good sample: initialise or advance, then the index and the angle. Word 30 of the kernel's block says
that no index has been checked since initialisation. -/
def fbGood (c : Call) (r : Raw) (a : Nat) (f : FbRun) (s : State) : FbRun × State :=
  let raw := s.rawWord c.slot r a
  let x : FbRun × State :=
    if f.flags.init then
      let d := s.dirSign c.slot (s.rawChange c.slot raw f.rawPrev)
      ({ f with pos := wrap64 (f.pos + d), turn := (f.turn + d) % s.turnSpan c.slot, rawPrev := raw }, s)
    else
      let i := s.initPos c.slot raw
      ({ f with pos := wrap64 (i.1 + s.pi c.slot 0x705), turn := i.2, rawPrev := raw,
                flags := { f.flags with init := true, initNow := true } },
        fbInitAxis c.slot (s.setKw c 30 1))
  let f := x.1
  let s := x.2
  let y : FbRun × State :=
    if s.pn c.slot 0x110 % 2 = 1 ∧ s.pn c.slot 0x100 ≠ 1 ∧ bit r.st 0 then
      let f := s.indexCheck c.slot r.in1 f
      let f := if s.pn c.slot 0x106 = 2 ∧ s.kw c 30 = 1 then { f with turn := s.indexTravel c.slot r raw % s.turnSpan c.slot } else f
      (f, homeIndex c.slot (f.pos - s.indexTravel c.slot r raw) (s.setKw c 30 0))
    else (f, s)
  let f := y.1
  ({ f with theta := toU 32 (f.turn * s.pn c.slot 0x105 * 2 ^ 8 / s.pn c.slot 0x103) }, y.2)

/-- A feedback run on a sample that is `bad` or good, with the angle `a` of sin/cos. -/
def fbRun (c : Call) (r : Raw) (bad : Bool) (a : Nat) (s : State) : Commit × State :=
  let f0 := FbFlags.of (s.axbU c 0x98)
  let f0 := { f0 with initNow := false, init := f0.init && !bit r.st 5 }
  let f : FbRun :=
    { pos := s.axb64 c 0x80, turn := s.axb64 c 0x88, rawPrev := toU 64 (s.axb64 c 0x90), flags := f0,
      idxExp := s.axbU c 0x9C, idxDev := s.axbI c 0xA0, theta := s.axbU c 0x30 }
  let x : FbRun × State :=
    if bad then
      let run := min 255 (f0.run + 1)
      ({ f with flags := { f0 with bad := true, run := run, fault := f0.fault || decide (s.pn c.slot 0x107 ≤ run) } }, s)
    else fbGood c r a { f with flags := { f0 with bad := false, run := 0, fault := false } } s
  let g := x.1
  let qt : List (Nat × Word) :=
    if g.flags.initNow ∧ s.mtNamed c.slot then put32 c 0xA4 (s.axis c.slot).mtAt else []
  ({ stores := put64 c 0x80 g.pos ++ put64 c 0x88 g.turn ++ put64 c 0x90 g.rawPrev ++ put32 c 0x98 g.flags.word
       ++ put32 c 0x9C g.idxExp ++ put32 c 0xA0 g.idxDev ++ put32 c 0x30 g.theta ++ qt ++ r.currents c }, x.2)

/-- `FB_DIGITAL`. -/
def fbDigital (c : Call) (s : State) : Commit × State :=
  if s.fbMismatch c false then fbUndefined c s
  else
    let r := s.raw c
    fbRun c r (bit r.st 1) 0 s

/-- `FB_SINCOS`. -/
def fbSincos (c : Call) (s : State) : Commit × State :=
  if s.fbMismatch c true then fbUndefined c s
  else
    let r := s.raw c
    let x := s.scSignals c.slot r
    let m := rnd (x.1 * x.1 + x.2.2.2 * x.2.2.2) 31
    let bad := bit r.st 1 || decide (m < s.pn c.slot 0x108 ∨ (s.pn c.slot 0x109 : Int) ≤ m)
    let s1 := x.1
    let c2 := x.2.2.1
    let vs := [s1, c2, s1 + c2, s1 - c2, s1 + s.pi c.slot 0x10A, x.2.1 + s.pi c.slot 0x10B]
    let s' := if bad then s else s.onAxis c.slot fun a => { a with calib := a.calib.take vs }
    fbRun c r bad (atan2 s1 x.2.2.2) s'

/-! ### Tracking observer (R245) -/

/-- B of R245 in Hz for an axis period of `t` ns. -/
def obsBand (bw t : Nat) : Nat := min bw (5 * 10 ^ 8 * 2 ^ 128 / (2 * piFix * t))

/-- M of l1, M of l2, and KT. -/
def obsGains (bw t : Nat) : Nat × Nat × Nat :=
  let b := obsBand bw t
  ((rndDiv ((4 * piFix * b * t * 2 ^ 24 : Nat) : Int) (10 ^ 9 * 2 ^ 128)).toNat,
   (rndDiv ((4 * piFix * piFix * b * b * t * 2 ^ 16 : Nat) : Int) (10 ^ 9 * 2 ^ 256)).toNat,
   (rndDiv ((t * 2 ^ 44 : Nat) : Int) (10 ^ 9)).toNat)

/-- Published words: 64-bit values in pairs, from word 0 or word 4. -/
def pubPair (first : Nat) (a b : Int) : List (Option Word) :=
  let w (v : Int) : List (Option Word) := [some (lo64 (BitVec.ofInt 64 v)), some (hi64 (BitVec.ofInt 64 v))]
  List.replicate first none ++ w a ++ w b ++ List.replicate (4 - first) none

/-- `OBSERVER`. -/
def observer (c : Call) (s : State) : Commit × State :=
  let g := obsGains (s.pn c.slot 0x118) (s.tBase * s.rateM c.slot)
  let f := FbFlags.of (s.axbU c 0x98)
  let vel := s.axb64 c 0x08
  let meas := s.axb64 c 0x80
  let pred := wrap64 (s.axb64 c 0x00 + rnd (vel * g.2.2) 52)
  let err := if f.bad then 0 else sat32 (wrap64 (meas - pred) / 256)
  let pos := if f.initNow then meas else wrap64 (pred + gmul ⟨g.1, 7⟩ err * 256)
  let vel := if f.initNow then 0 else sat64 (vel + gmul ⟨g.2.1, 31⟩ err)
  ({ stores := put64 c 0x00 pos ++ put64 c 0x08 vel, pub := pubPair 0 pos vel }, s)

/-! ### Stepper (R349, R350) -/

/-- An open-loop stepper (R288). -/
def State.openLoop (s : State) (slot : Nat) : Bool :=
  decide (s.outKind slot = 3 ∨ (s.axisType slot = 3 ∧ s.fbkSrc slot = 3))

/-- A hard stop holds the electrical angle: an immediate stop has taken hold, or has left a velocity in a slot that is
off (R288). -/
def State.angleHeld (s : State) (slot : Nat) : Bool :=
  let a := s.axis slot
  s.openLoop slot && ((match a.stop with | .immediate _ => true | _ => false) || (!a.state.on && decide (s.ax64 slot 0xB8 ≠ 0)))

/-- `STEP_GEN`; run-to-run words 20 `S_PREV`, 21 `S_REM`, 22 `TH_ACC`, 23 8 - `MS`, 24 `REST`. -/
def stepGen (c : Call) (s : State) : Commit × State :=
  let p (i : Nat) : Nat := s.pn c.slot i
  let fl := FbFlags.of (s.axbU c 0x98)
  let pos := s.axb64 c 0x10
  let sPrev := if fl.init then s.kw c 20 else pos
  let rem := if fl.init then s.kw c 21 else 0
  let t := if s.angleHeld c.slot then rem else rem + wrap64 (pos - sPrev) * 2 ^ 30
  let den : Int := (p 0xA00 * 2 ^ 24 : Nat)
  let n := t / den
  let old := s.kw c 22
  let th := wrap64 (old + n)
  let qp : Int := 2 ^ (30 - p 0xA08)
  let ms : Nat := 8 - (s.kw c 23).toNat
  let f := (s.axb64 c 0x18).natAbs
  let u := p 0xA05 * p 0xA00 * 2 ^ 32
  let t1 := if p 0xA06 < ms ∧ u * 2 ^ (8 - ms) ≤ f then ms - 1 else ms
  let t2 := if ms < 8 ∧ f < u * 2 ^ (7 - ms) - u * 2 ^ (7 - ms) * p 0xA07 / 256 ∧ t1 = ms then ms + 1 else t1
  let tgt := if ms < p 0xA06 then ms + 1 else t2
  let ms := if (th - 2 ^ 29) / 2 ^ 30 ≠ (old - 2 ^ 29) / 2 ^ 30 then tgt else ms
  let q : Int := 2 ^ (30 - ms)
  let rest := if n ≠ 0 then 0 else min (s.kw c 24 + 1) 65535
  let s' := ((((s.setKw c 20 pos).setKw c 21 (t - n * den)).setKw c 22 th).setKw c 23 (8 - ms : Nat)).setKw c 24 rest
  let fl' := { fl with init := true, initNow := !fl.init }
  ({ stores := put32 c 0x30 (2 ^ 29 + (th - 2 ^ 29) / q * q)
       ++ put32 c 0x48 (if rest < p 0xA03 then p 0xA01 else p 0xA02 : Nat) ++ put32 c 0x44 0
       ++ put64 c 0x80 pos ++ put32 c 0x98 fl'.word ++
       [(axbAt c.slot 0x38, c.input.getD 4 0), (axbAt c.slot 0x3C, c.input.getD 5 0), (axbAt c.slot 0x40, c.input.getD 6 0)],
     out := [wInt (sat32 (th / qp - old / qp)), 0, 0, 0] }, if fl.init then s' else fbInitAxis c.slot s')

end Sys2Proof.Machine
end

