-- ==== Sys2Proof/Machine/Planner.lean ====
section
/-!
DEFINITION. Plans of legs with their offsets, and the planner of single-axis moves (chapter 10, R255 to
R267; chapter 11, R287).
-/
namespace Sys2Proof.Machine

/-! ### Sums of floors -/

/-- Sum of floor((a i + b) / m) over i = 0 to n - 1, for m > 0, by Euclid's steps. -/
def floorSumGo : Nat → Nat → Nat → Nat → Nat → Nat
  | 0, _, _, _, _ => 0
  | fuel + 1, n, m, a, b =>
    let whole := n * (n - 1) / 2 * (a / m) + n * (b / m)
    let top := a % m * n + b % m
    if top < m then whole else whole + floorSumGo fuel (top / m) (a % m) m (top % m)

/-- Sum of floor(i r / n) over i = 1 to k. -/
def floorSum (k n : Nat) (r : Int) : Int :=
  r / n * (k * (k + 1) / 2 : Nat) + floorSumGo (2 * Nat.log2 (n + 1) + 4) (k + 1) n (r % n).toNat 0

/-! ### Plans (R256, R263, R266) -/

/-- A set-point state in u: position, velocity and acceleration. -/
structure PState where
  p : Int
  v : Int
  a : Int

/-- `n` steps of R256 with jerk `j` and no offsets. -/
def PState.run (x : PState) (j : Int) (n : Nat) : PState :=
  ⟨x.p + n * x.v + x.a * (n * (n + 1) / 2 : Nat) + j * (n * (n + 1) * (n + 2) / 6 : Nat),
   x.v + n * x.a + j * (n * (n + 1) / 2 : Nat), x.a + n * j⟩

/-- The state after `n` steps along legs; steps beyond them have no jerk. -/
def legsAfter (x : PState) : List Leg → Nat → PState
  | [], n => x.run 0 n
  | l :: r, n => if n ≤ l.len then x.run l.jerk n else legsAfter (x.run l.jerk l.len) r (n - l.len)

/-- What a spread has added after `n` steps, and the sum of that over those steps. -/
def Spread.sum (d : Spread) (n : Nat) : Int := (min (n - d.start) d.len : Nat) * d.total / d.len
def Spread.sum2 (d : Spread) (n : Nat) : Int :=
  let k := min (n - d.start) d.len
  floorSum k d.len d.total + (n - d.start - k : Nat) * d.total

/-- Number of steps of a plan. -/
def Plan.len (p : Plan) : Nat := (p.legs.map Leg.len).sum

/-- The jerk of step `n` (1, 2, …). -/
def legJerk : List Leg → Nat → Int
  | [], _ => 0
  | l :: r, n => if n ≤ l.len then l.jerk else legJerk r (n - l.len)

/-- Jerk, velocity offset and position offset of step `n`. -/
def Plan.at_ (p : Plan) (n : Nat) : Int × Int × Int :=
  (legJerk p.legs n, (p.vel.map fun d => d.sum n - d.sum (n - 1)).sum,
   (p.pos.map fun d => d.sum n - d.sum (n - 1)).sum)

/-- The state after `n` steps of a plan from `x`. -/
def Plan.after (p : Plan) (x : PState) (n : Nat) : PState :=
  let y := legsAfter x p.legs n
  { y with
    p := y.p + (p.vel.map fun d => d.sum2 n).sum + (p.pos.map fun d => d.sum n).sum
    v := y.v + (p.vel.map fun d => d.sum n).sum }

/-- The state at the end of a plan. -/
def Plan.finish (p : Plan) (x : PState) : PState := p.after x p.len

/-- Add legs to a plan. -/
def Plan.add (p : Plan) (legs : List Leg) : Plan := { p with legs := p.legs ++ legs }

/-! ### Limits (R257, R277) -/

/-- Limits in u per period and the planning values. -/
structure Lims where
  vu : Int
  au : Int
  du : Int
  ju : Int
  r : Int

def Lims.vp (l : Lims) : Int := l.vu - 1
def Lims.ap (l : Lims) : Int := l.au - l.r
def Lims.dp (l : Lims) : Int := l.du - l.r
def Lims.jp (l : Lims) : Int := l.ju - l.r
def Lims.amax (l : Lims) : Int := max l.au l.du

/-- The planning values allow a move (R278). -/
def Lims.ok (l : Lims) : Bool :=
  decide (1 ≤ l.vp ∧ 1 ≤ l.ap ∧ 1 ≤ l.dp ∧ 1 ≤ l.jp ∧ l.jp ≤ l.ap ∧ l.jp ≤ l.dp)

/-- The axis period of a slot in ns. -/
def State.ta (s : State) (slot : Nat) : Nat := s.tBase * s.rateM slot

/-- Limits from velocity, acceleration, deceleration and jerk parameters for an axis period. -/
def limsOf (v a d j t : Nat) : Lims :=
  let au : Nat := a * 2 ^ 24 * t ^ 2 / 10 ^ 18
  let du : Nat := d * 2 ^ 24 * t ^ 2 / 10 ^ 18
  let ju : Nat := j * 2 ^ 32 * t ^ 3 / 10 ^ 27
  ⟨(v * 2 ^ 44 * t / 10 ^ 9 : Nat), au, du, ju, if ju = 0 then 2 else (max au du / ju + 2 : Nat)⟩

/-- The limits of range 0x0600, with values `v` of the parameters. -/
def limsWith (v : Nat → Nat) (t : Nat) : Lims :=
  limsOf (v 0x600) (v 0x601) (if v 0x602 = 0 then v 0x601 else v 0x602) (v 0x603) t

/-- The limits of a slot. -/
def State.lims (s : State) (slot : Nat) : Lims := limsWith (s.pn slot) (s.ta slot)

/-- The limits of the offset component (R311). -/
def State.ofsLims (s : State) (slot : Nat) : Lims :=
  limsOf (s.pn slot 0x802) (s.pn slot 0x803) (s.pn slot 0x803) (s.pn slot 0x804) (s.ta slot)

/-! ### Blocks (R265, R266) -/

/-- A velocity block: signed jerk, lengths and velocity shortfall. -/
structure Block3 where
  j : Int
  n1 : Nat
  n2 : Nat
  rho : Int

def Block3.n (b : Block3) : Nat := 2 * b.n1 + b.n2

/-- The least `n` of 1 or more with `j n² ≥ d`. -/
def leastSq (j d : Nat) : Nat :=
  let m := (d + j - 1) / j
  let r := isqrt m
  max 1 (if r * r < m then r + 1 else r)

/-- The block from `vs` to `ve` (R265). -/
def rampOf (l : Lims) (vs ve : Int) : Block3 :=
  let jp := max 1 l.jp.toNat
  let peak := if vs.natAbs < ve.natAbs then l.ap.toNat else l.dp.toNat
  let d := (ve - vs).natAbs
  let na := peak / jp
  let n : Nat × Nat :=
    if d ≤ jp * na ^ 2 then (leastSq jp d, 0)
    else
      let na := max 1 na
      (na, (d + jp * na - 1) / (jp * na) - na)
  let t := n.1 * (n.1 + n.2)
  let j := sgn (ve - vs) * (d / t : Nat)
  ⟨j, n.1, n.2, ve - vs - j * t⟩

/-- Append a block to a plan. -/
def Plan.block (p : Plan) (b : Block3) : Plan :=
  { p with
    legs := p.legs ++ [⟨b.j, b.n1⟩, ⟨0, b.n2⟩, ⟨-b.j, b.n1⟩]
    vel := p.vel ++ [⟨p.len, b.n, b.rho⟩] }

/-- The distance that a block covers from velocity `vs`. -/
def Block3.dist (b : Block3) (vs : Int) : Int := (Plan.finish (Plan.block {} b) ⟨0, vs, 0⟩).p

/-- The legs that bring the acceleration `a` to zero (R264 step 1). -/
def zeroLegs (l : Lims) (a : Int) : List Leg :=
  let jp := max 1 l.jp
  let m := a.natAbs / jp.toNat
  let rest := (a.natAbs : Int) - m * jp
  (if m = 0 then [] else [⟨-sgn a * jp, m⟩]) ++ (if rest = 0 then [] else [⟨-sgn a * rest, 1⟩])

/-! ### The cruise speed (R264 step 3) -/

/-- Every step from step `n` keeps the limits: `k` steps are left, `ap` and `vp` are the present state and
`acc` is the acceleration of the step before. -/
def stepsOk (l : Lims) (p : Plan) : Nat → Nat → Int → Int → Int → Bool
  | 0, _, _, _, _ => true
  | k + 1, n, ap, vp, acc =>
    let x := p.at_ n
    let ap := ap + x.1
    let new := ap + x.2.1
    let vp := vp + new
    decide (vp.natAbs ≤ l.vu ∧ (vp + x.2.2).natAbs ≤ l.vu ∧ new.natAbs ≤ l.amax ∧ (new - acc).natAbs ≤ l.ju)
      && stepsOk l p k (n + 1) ap vp new

/-- A cruise at speed `c` in direction `sg` after the plan `pre`, which ends at velocity `v1` with `dist` to
go; the last block ends at velocity `sg * ve`. -/
structure Cruise where
  lims : Lims
  start : PState
  pre : Plan
  v1 : Int
  sg : Int
  dist : Nat
  ve : Nat
  preOk : Bool     -- the steps of `pre` keep the limits without position offsets
  preMax : Nat     -- a bound of the speeds of `pre`

def Cruise.b1 (q : Cruise) (c : Nat) : Block3 := rampOf q.lims q.v1 (q.sg * c)
def Cruise.b2 (q : Cruise) (c : Nat) : Block3 := rampOf q.lims (q.sg * c) (q.sg * q.ve)

/-- What the two blocks cover. -/
def Cruise.covers (q : Cruise) (c : Nat) : Int :=
  q.sg * ((q.b1 c).dist q.v1 + (q.b2 c).dist (q.sg * c))

/-- The plan with cruise speed `c`: n4 is the largest count that leaves a shortfall of 0 or more. -/
def Cruise.plan (q : Cruise) (c : Nat) : Plan :=
  let rest := (q.dist - q.covers c).toNat
  let p := ((q.pre.block (q.b1 c)).add [⟨0, rest / c⟩]).block (q.b2 c)
  { p with pos := [⟨0, p.len, q.sg * (rest % c : Nat)⟩] }

/-- The two conditions on a cruise speed. -/
def Cruise.good (q : Cruise) (c : Nat) : Bool :=
  decide (q.covers c ≤ q.dist) && stepsOk q.lims (q.plan c) (q.plan c).len 1 q.start.a q.start.v q.start.a

/-- Bounds that decide `good` without looking at each step: `some true` when every step keeps the limits
with the largest offset that can meet it, `some false` when the blocks cover too much or the steps at the
cruise speed exceed V_u with the least offset that they carry. -/
def Cruise.quick (q : Cruise) (c : Nat) : Option Bool :=
  let x := q.covers c
  if q.dist < x then some false
  else
    let b1 := q.b1 c
    let b2 := q.b2 c
    let p := q.plan c
    let rest := (q.dist - x).toNat % c
    let up (a b : Nat) : Nat := (a + b - 1) / b
    let e0 : Nat := (q.pre.vel.map fun d => up d.total.natAbs d.len).sum
    let e1 := up b1.rho.natAbs b1.n
    let e2 := up b2.rho.natAbs b2.n
    if q.lims.vu < c + rest / p.len then some false
    else if max (max (max q.preMax q.v1.natAbs) q.ve) c + up rest p.len ≤ q.lims.vu
        ∧ b1.j.natAbs * b1.n1 + e1 ≤ q.lims.amax ∧ b2.j.natAbs * b2.n1 + e2 ≤ q.lims.amax
        ∧ max b1.j.natAbs b2.j.natAbs + e0 + e1 + e2 + 1 ≤ q.lims.ju then some true
    else none

/-- The largest `i` below `2^n` from `i` on for which `f` holds, `f` being true up to some number. -/
def upTo (f : Nat → Bool) : Nat → Nat → Nat
  | 0, i => i
  | n + 1, i => if f (i + 2 ^ n) then upTo f n (i + 2 ^ n) else upTo f n i

/-- How many speeds from `c` downward surely fail, when `c` does: the blocks cover too much for all of
them, or the offset that the shortfall asks for exceeds V_u for all of them. -/
def Cruise.skip (q : Cruise) (c : Nat) : Nat :=
  let av := q.v1.natAbs
  let x := q.covers c
  let n1 (c : Nat) : Nat := (q.b1 c).n
  let n2 (c : Nat) : Nat := (q.b2 c).n
  if q.dist < x then
    if c ≤ av ∧ q.ve = 0 then
      let slack := 2 * (av + n1 0 + n2 c)
      1 + upTo (fun i => decide (i < c ∧ 2 * q.dist + slack < n1 c * (av + c - i) + n2 (c - i) * (c - i)))
        (Nat.log2 c + 1) 0
    else 1
  else if c ≤ max av q.ve then 1
  else
    let b1 := q.b1 c
    let n4 := (q.dist - x).toNat / c
    let nf := q.pre.len + n1 c + n4 + n2 c
    -- twice an upper bound of what the blocks cover at this speed and below, and of the margin
    let ub : Int := n1 c * (av + c) + 2 * ((q.ve : Int) - av) + n2 c * (c + q.ve) + (q.b2 c).n1 * ((q.b2 c).n1 + (q.b2 c).n2)
    let m : Int := 2 * q.dist - ub - 2 * n4 * c - 2 * nf * (q.lims.vu - c)
    let i1 := (m / (2 * (q.pre.len + n1 c + n2 c) : Nat)).toNat
    -- no further cruise step fits at any of these speeds
    let slack := 2 * av + b1.n1 * (b1.n1 + b1.n2) + 2 * (n1 c + n2 c)
    let i2 := upTo (fun i => decide (i < c - max av q.ve ∧ (2 * q.dist + slack : Nat) <
      2 * (n4 + 1) * (c - i) + 2 * q.ve + (n1 (c - i) * (av + c - i) + n2 (c - i) * (c - i + q.ve)))) (Nat.log2 c + 1) 0
    1 + min i1 i2

/-- An upper bound of the cruise speed: what the blocks cover is at least half of the times-speeds sum less
a slack that grows with the speed. -/
def Cruise.bound (q : Cruise) : Nat → Nat → Nat
  | 0, c => c
  | fuel + 1, c =>
    let av := q.v1.natAbs
    let lo := max av q.ve
    if c ≤ lo then c
    else
      let b1 := q.b1 c
      let slack := 2 * av + b1.n1 * (b1.n1 + b1.n2) + 2 * (b1.n + (q.b2 c).n)
      let x := lo + upTo (fun i => decide (lo + i ≤ c ∧
        (q.b1 (lo + i)).n * (av + lo + i) + (q.b2 (lo + i)).n * (lo + i + q.ve) ≤ 2 * q.dist + slack))
        (Nat.log2 c + 1) 0
      if x = c then c else q.bound fuel x

/-- The largest good speed of `c` or less; 0 when there is none. -/
def Cruise.search (q : Cruise) : Nat → Nat → Nat
  | 0, _ => 0
  | fuel + 1, c =>
    if c = 0 then 0
    else match q.quick c with
      | some true => c
      | some false => q.search fuel (c - q.skip c)
      | none => if q.good c then c else q.search fuel (c - 1)

/-- The cruise speed of R264 step 3: the largest from 1 to V_p; 0 when there is none, as where the plan
before the cruise already leaves the limits. -/
def Cruise.speed (q : Cruise) : Nat :=
  if !q.preOk then 0
  else
    let top := q.bound 12 q.lims.vp.toNat
    q.search (top + 1) top

/-! ### Plans of moves (R264) -/

/-- One position step of the distance left (R264 step 4). -/
def Plan.jump (p : Plan) (d : Int) : Plan :=
  { p.add [⟨0, 1⟩] with pos := p.pos ++ [⟨p.len, 1, d⟩] }

/-- A difference of positions in u; positions wrap at 2^64 fine counts (R255). -/
def wrapU (x : Int) : Int := wrapN 88 x

/-- The plan to a target in fine counts from state `x` (R264). -/
def planPos (l : Lims) (x : PState) (target : Int) : Plan :=
  let pre : Plan := { legs := zeroLegs l x.a }
  let y := pre.finish x
  let d := wrapU (target * 2 ^ 24 - y.p)
  let stop := rampOf l y.v 0
  let s := stop.dist y.v
  let z : Plan × PState :=
    if y.v ≠ 0 ∧ (sgn d ≠ sgn y.v ∨ d.natAbs < s.natAbs) then
      let p := pre.block stop
      (p, p.finish x)
    else (pre, y)
  let d := wrapU (target * 2 ^ 24 - z.2.p)
  if d = 0 ∧ z.2.v = 0 then z.1
  else
    let q : Cruise :=
      { lims := l, start := x, pre := z.1, v1 := z.2.v, sg := sgn d, dist := d.natAbs, ve := 0
        preOk := stepsOk l z.1 z.1.len 1 x.a x.v x.a, preMax := max x.v.natAbs y.v.natAbs }
    let c := q.speed
    if 0 < c then q.plan c
    else
      let p := if z.2.v = 0 then z.1 else z.1.block (rampOf l z.2.v 0)
      p.jump (wrapU (target * 2 ^ 24 - (p.finish x).p))

/-- The plan to a velocity: step 1, a stop first when the sense changes, and one block (R264, R265). -/
def planVel (l : Lims) (x : PState) (v : Int) : Plan :=
  let pre : Plan := { legs := zeroLegs l x.a }
  let y := pre.finish x
  if y.v ≠ 0 ∧ v ≠ 0 ∧ sgn y.v ≠ sgn v then (pre.block (rampOf l y.v 0)).block (rampOf l 0 v)
  else pre.block (rampOf l y.v v)

/-- The plan of a quick stop at Q_u (R287). -/
def planQuick (q : Nat) (x : PState) : Plan :=
  let sv := sgn x.v
  if x.v = 0 then { legs := [⟨-x.a, 1⟩] }
  else
    let n := (x.v.natAbs + q - 1) / q
    { legs := [⟨-sv * q - x.a, 1⟩, ⟨0, n - 1⟩, ⟨sv * q, 1⟩]
      vel := [⟨0, n, sv * ((n * q : Nat) - (x.v.natAbs : Int))⟩] }

/-- Q_u of a slot (R287, R301). -/
def State.qu (s : State) (slot : Nat) : Nat :=
  let d := if s.pn slot 0x907 ≠ 0 then s.pn slot 0x907
    else if s.pn slot 0x602 ≠ 0 then s.pn slot 0x602 else s.pn slot 0x601
  max 1 (d * 2 ^ 24 * s.ta slot ^ 2 / 10 ^ 18)

/-- A quotient for which the spec gives no rounding (DESIGN CHOICE, log 29). -/
def openDiv (a : Int) (b : Nat) : Int := a / b + (if a % b ≠ 0 ∧ Config.quotUp a b then 1 else 0)

/-- A velocity word of Q32.32 increments per second in u per period (R255, R310). -/
def State.velU (s : State) (slot : Nat) (v : Int) : Int := openDiv (v * (2 ^ 16 * s.ta slot : Nat)) (10 ^ 9)

end Sys2Proof.Machine
end

