-- ==== Sys2Proof/Machine/Effects.lean ====
section
/-!
DEFINITION. Status codes (R136) and the end of staged effects: what their replies then say (R116 to R119,
R131 to R133).
-/
namespace Sys2Proof.Machine

/-! ### Status codes (R136) -/

def ST.ok : Nat := 0x0000
def ST.badOpcode : Nat := 0x0101
def ST.badTarget : Nat := 0x0102
def ST.version : Nat := 0x0103
def ST.absentUnit : Nat := 0x0104
def ST.badLength : Nat := 0x0105
def ST.badFlags : Nat := 0x0106
def ST.badParam : Nat := 0x0107
def ST.badValue : Nat := 0x0108
def ST.readOnly : Nat := 0x0109
def ST.badFormat : Nat := 0x010A
def ST.imageCheck : Nat := 0x010B
def ST.signature : Nat := 0x010C
def ST.rollback : Nat := 0x010D
def ST.devState : Nat := 0x0201
def ST.axisState : Nat := 0x0202
def ST.notHomed : Nat := 0x0203
def ST.posUncertain : Nat := 0x0204
def ST.inUse : Nat := 0x0205
def ST.notBuilt : Nat := 0x0206
def ST.busy : Nat := 0x0301
def ST.noMemory : Nat := 0x0302
def ST.capacity : Nat := 0x0303
def ST.noEntry : Nat := 0x0304
def ST.limit : Nat := 0x0401
def ST.limitSwitch : Nat := 0x0402
def ST.softLimit : Nat := 0x0403
def ST.timeout : Nat := 0x0404
def ST.safetyLocked : Nat := 0x0501
def ST.checkMismatch : Nat := 0x0502
def ST.safeStop : Nat := 0x0503
def ST.auth : Nat := 0x0504
def ST.homeLimit : Nat := 0x0601
def ST.homeChatter : Nat := 0x0602
def ST.homeNotFound : Nat := 0x0603
def ST.following : Nat := 0x0604
def ST.feedback : Nat := 0x0605
def ST.drive : Nat := 0x0606
def ST.link : Nat := 0x0607
def ST.accov : Nat := 0x0608
def ST.quickStop : Nat := 0x0609
def ST.drops : Nat := 0x060A
def ST.nameplate : Nat := 0x060B
def ST.sramUe : Nat := 0x060C
def ST.limitHit : Nat := 0x060D

/-- The codes of the table (R136). -/
def statusCodes : List Nat :=
  ST.ok :: ([(1, 13), (2, 6), (3, 4), (4, 4), (5, 4), (6, 13)].flatMap fun c => (List.range (c.2 + 1)).map (256 * c.1 + ·))

/-- The step of R134 to which a status belongs. -/
def ST.step (st : Nat) : Nat :=
  if st / 256 = 1 then 7 else if st = ST.devState then 8
  else if st / 256 = 2 ∨ st = ST.safetyLocked ∨ st = ST.safeStop then 9
  else if st / 256 = 3 then 10 else if st / 256 = 4 then 11 else 12

/-! ### Replies of staged effects (R131 to R133) -/

/-- The 4 bytes of result of a failed command (R132). -/
def detail (d : Nat) : Bytes := leBytes 2 d ++ [0, 0]

/-- The reply of a command once its effect is settled (R133). -/
def setReply (ses : Nat) (seq : Word) (g : Reply → Reply) (s : State) : State :=
  s.onSes ses fun x =>
    { x with replies := x.replies.map fun r => if r.seq = seq then { r with reply := g r.reply, due := true } else r }

/-- A staged effect is the one of a command. -/
def Staged.is (t : Staged) (ses : Nat) (seq : Word) : Bool := decide (t.ses = ses ∧ t.pkt.hdr.seq = seq)

/-- Remove a staged effect. -/
def unstage (t : Staged) (s : State) : State :=
  { s with staged := s.staged.filter fun x => !x.is t.ses t.pkt.hdr.seq }

/-- The effect took hold in period `k`. -/
def tookHold (t : Staged) (k : Nat) (late : Bool) (s : State) : State :=
  setReply t.ses t.pkt.hdr.seq (fun r => { r with effect := w32 k, epv := true, late := late }) (unstage t s)

/-- The effect does not take hold (R133, R290) for want of slot `n`, which `DETAIL` names for a group or device
target (R132). -/
def failedAt (t : Staged) (n status : Nat) (s : State) : State :=
  let d := if t.pkt.hdr.target.toNat < 128 then 0 else n
  setReply t.ses t.pkt.hdr.seq (fun r => { r with status := status, result := detail d, effect := 0, epv := false })
    (unstage t s)

/-- The effect does not take hold, for no slot of its own. -/
def failed (t : Staged) (status : Nat) (s : State) : State := failedAt t 0 status s

/-- Effects that move a slot: moves, streams and path segments. -/
def isMove (op : Nat) : Bool := decide (op = 0x0401 ∨ op = 0x0402 ∨ op = 0x0403 ∨ op = 0x0404 ∨ op = 0x0408 ∨ op = 0x0507)

/-- Staged moves of a slot, in retirement order. -/
def State.movesOf (s : State) (slot : Nat) : List Staged :=
  s.staged.filter fun t => isMove t.pkt.op && decide (slot ∈ t.slots)

/-- Put an updated staged effect in its place. -/
def restage (t : Staged) (s : State) : State :=
  { s with staged := s.staged.map fun x => if x.is t.ses t.pkt.hdr.seq then t else x }

end Sys2Proof.Machine
end

