-- ==== Sys2Proof/Machine/Motion.lean ====
section
/-!
DEFINITION. The motion queue, the prediction of set-points, and the set-point kernels for single-axis moves,
streams, dovetails and cams (chapters 10 and 12, R256 to R269, R303 to R315).
-/
namespace Sys2Proof.Machine

/-! ### Set-point state (R255) -/

def listLims (l : List Int) : Lims := ⟨l.getD 0 0, l.getD 1 0, l.getD 2 0, l.getD 3 0, l.getD 4 0⟩
def Lims.list (l : Lims) : List Int := [l.vu, l.au, l.du, l.ju, l.r]
def listState (l : List Int) : PState := ⟨l.getD 0 0, l.getD 1 0, l.getD 2 0⟩
def PState.list (x : PState) : List Int := [x.p, x.v, x.a]

/-- The set-point position in fine counts. -/
def PState.fine (x : PState) : Int := wrap64 (x.p / 2 ^ 24)

/-- The set-point state of a slot in u, from its axis state block. -/
def State.setState (s : State) (slot : Nat) : PState :=
  ⟨s.ax64 slot 0x10 * 2 ^ 24 + (s.axWord slot 0xC0).toNat, s.ax64 slot 0xB8, s.ax64 slot 0xB0⟩

/-- Completed runs since the plan took hold: `PLAN_K` without its wrap (R255, R263). -/
def State.planK (s : State) (slot : Nat) : Nat :=
  let r := (s.axis slot).runs
  (r + wrap32 ((s.axWord slot 0xC4).toNat - r)).toNat

/-- Write `PLAN_K`. -/
def State.putK (s : State) (slot k : Nat) : State :=
  (s.setAxb slot 0xC4 (w32 k)).onAxis slot fun a => { a with runs := k }

/-- The set-point rests: `VP` and `AP` are 0. -/
def PState.rests (x : PState) : Bool := decide (x.v = 0 ∧ x.a = 0)

/-! ### Streamed points (R268) -/

/-- One step towards a point under V_p, A_p and J_p; the Boolean says that the limits held it back. -/
def streamStep (l : Lims) (x : PState) (target : Int) : PState × Bool :=
  let aw := wrapU (target * 2 ^ 24 - x.p) - x.v
  let a1 := min (max aw (x.a - l.jp)) (x.a + l.jp)
  let a1 := min (max a1 (-l.ap)) l.ap
  let rj : Int := if l.jp = 0 then Config.rj else Int.fdiv (2 ^ 64) (2 * l.jp)
  let vb := x.v + a1 + sgn a1 * (a1 * a1 * rj / 2 ^ 64)
  let a1 := if l.vp < vb then max (x.a - l.jp) (-l.ap) else if vb < -l.vp then min (x.a + l.jp) l.ap else a1
  let a1 := min (max (x.v + a1) (-l.vp)) l.vp - x.v
  (⟨x.p + x.v + a1, x.v + a1, a1⟩, decide (a1 ≠ aw))

/-- The plan of a halt: under the limits when they allow a move, else a quick stop (R261). -/
def planHalt (l : Lims) (q : Nat) (x : PState) : Plan :=
  if l.ok then
    let pre : Plan := { legs := zeroLegs l x.a }
    pre.block (rampOf l (pre.finish x).v 0)
  else planQuick q x

/-! ### Prediction (R263, R267, R557) -/

/-- The motion of a slot as far as its retired commands fix it. -/
structure Track where
  st : PState
  k : Int              -- completed runs since the plan took hold
  plan : Plan
  base : Int           -- `k` at which `plan` began, and the state there
  origin : PState
  inSeg : Bool
  queue : List Seg
  n : Nat              -- stream points consumed
  lims : Lims
  qu : Nat

def State.track (s : State) (slot : Nat) : Track :=
  let a := s.axis slot
  { st := s.setState slot, k := s.planK slot, plan := a.plan, base := a.base, origin := listState a.origin,
    inSeg := a.inSeg, queue := a.queue, n := (s.axWord slot 0xD0).toNat, lims := s.lims slot, qu := s.qu slot }

/-- Steps after which a segment completes: a velocity segment as soon as the velocity is its target and the
acceleration 0 (R258), any other at the end of its plan. -/
def Seg.steps (q : Seg) : Nat :=
  match q.kind, q.plan.vel.getLast?, q.plan.legs.getLast? with
  | .vel _, some d, some g =>
    if g.jerk ≠ 0 ∨ 0 < d.total then q.plan.len
    else if d.total = 0 then d.start
    else d.start + d.len * (d.total.natAbs - 1) / d.total.natAbs + 1
  | _, _, _ => q.plan.len

/-- The entry continues a stream. -/
def Seg.streams (q : Seg) : Bool := match q.kind with | .stream _ => true | _ => false

/-- Begin a plan here. -/
def Track.take (t : Track) (p : Plan) : Track := { t with plan := p, base := t.k, origin := t.st }

/-- Begin the first entry of the queue. -/
def Track.begin_ (t : Track) (q : Seg) : Track := { t.take q.plan with inSeg := true, n := 0 }

/-- `n` runs along the plan. -/
def Track.coast (t : Track) (n : Nat) : Track :=
  { t with k := t.k + n, st := t.plan.after t.origin (t.k + n - t.base).toNat }

/-- The first entry completes. -/
def Track.pop (t : Track) : Track := { t with inSeg := false, queue := t.queue.drop 1 }

/-- One run of a stream; the last point with no stream behind it is an underrun, which halts the slot (R269). -/
def Track.streamRun (t : Track) (q : Seg) (points : List Int) : Track :=
  let r := streamStep (listLims q.lim) t.st (points.getD t.n 0)
  let t := { t with st := r.1, k := t.k + 1, n := t.n + 1 }
  if t.n < points.length then t
  else
    let t := t.pop
    if t.queue.head?.any Seg.streams then t else { t with queue := [] }.take (planHalt t.lims t.qu t.st)

/-- `n` runs. -/
def Track.runs : Nat → Nat → Track → Track
  | 0, _, t => t
  | fuel + 1, n, t =>
    if n = 0 then t
    else match t.queue with
      | [] => t.coast n
      | q :: _ =>
        if !t.inSeg then Track.runs fuel n (t.begin_ q)
        else match q.kind with
          | .stream points => Track.runs fuel (n - 1) (t.streamRun q points)
          | _ =>
            let r := max 1 (q.steps - (t.k - t.base).toNat)
            if n < r then t.coast n else Track.runs fuel (n - r) (t.coast r).pop

/-- Run until the queue is empty. -/
def Track.drain : Nat → Track → Track
  | 0, t => t
  | fuel + 1, t =>
    match t.queue with
    | [] => t
    | q :: _ =>
      if !t.inSeg then Track.drain fuel (t.begin_ q)
      else match q.kind with
        | .stream points => Track.drain fuel (t.streamRun q points)
        | _ => Track.drain fuel (t.coast (max 1 (q.steps - (t.k - t.base).toNat))).pop

/-- Steps that draining a queue can take. -/
def Track.fuel (t : Track) : Nat :=
  (t.queue.map fun q => match q.kind with | .stream p => p.length + 2 | _ => 2).sum + 2

/-- Run to `k` runs since the plan took hold. -/
def Track.to_ (t : Track) (k : Int) : Track := let n := (k - t.k).toNat; t.runs (n + t.fuel) n

/-- A replacement: the plan and the queue are the segment's. -/
def Track.replace (t : Track) (q : Seg) : Track := { t with k := 0, queue := [q] }.begin_ q

/-- A stop: the queue is emptied and a plan follows from here. -/
def Track.stop (t : Track) (p : Plan) : Track :=
  { t with k := 0, queue := [], inSeg := false }.take p

/-- Due periods of a slot below period `x`. -/
def State.dueBelow (s : State) (slot x : Nat) : Nat := (x + s.rateM slot - 1 - s.pn slot 3) / s.rateM slot

/-- A slot's motion at a boundary: the track, the number of its runs since the plan at a boundary, and that
boundary. -/
structure Ahead where
  t : Track
  k : Int
  at_ : Nat

/-- Move ahead to boundary `e`. -/
def Ahead.to_ (s : State) (slot : Nat) (x : Ahead) (e : Nat) : Ahead :=
  let k := x.k + (s.dueBelow slot e - s.dueBelow slot x.at_ : Nat)
  ⟨x.t.to_ k, k, max e x.at_⟩

/-- Apply one staged effect of the slot. -/
def Ahead.effect (s : State) (slot : Nat) (x : Ahead) (d : Staged) : Ahead :=
  let y := if d.waiting then x else x.to_ s slot (max d.eff (s.tmu.period + 1))
  if d.cut then x
  else match d.seg with
    | some q =>
      if d.append then { y with t := { y.t with queue := y.t.queue ++ [q] } }
      else if d.waiting then ⟨(x.t.to_ d.switchK).replace q, x.k - d.switchK, x.at_⟩
      else ⟨y.t.replace q, 0, y.at_⟩
    | none =>
      if d.pkt.op = 0x0405 then ⟨y.t.stop (planHalt y.t.lims y.t.qu y.t.st), 0, y.at_⟩
      else if d.pkt.op = 0x0406 then ⟨y.t.stop (planQuick y.t.qu y.t.st), 0, y.at_⟩
      else if d.pkt.op = 0x0409 then { y with t := { y.t with queue := if y.t.inSeg then y.t.queue.take 1 else [] } }
      else y

/-- The slot's motion at boundary `e`, every staged effect before it having taken hold; a slot's records take
hold in retirement order (R119). -/
def State.ahead (s : State) (slot e : Nat) : Ahead :=
  let x : Ahead := ⟨s.track slot, (s.axis slot).snapK, s.tmu.period⟩
  ((s.staged.filter fun d => decide (slot ∈ d.slots)).foldl (Ahead.effect s slot) x).to_ s slot e

/-- The end position of the motion that a move follows (R557). -/
def Ahead.endPos (x : Ahead) (append : Bool) : Int :=
  match (if append then x.t.queue.getLast? else x.t.queue.head?) with
  | some q => q.endPos
  | none => x.t.st.fine

/-- Plan a segment that takes hold at boundary `e`, and its `SWITCH_K` when it replaces (R263, R267). -/
def State.planSeg (s : State) (slot e : Nat) (append : Bool) (kind : SegKind) : Seg × Nat :=
  let x := s.ahead slot e
  let l := s.lims slot
  let st := if append then (x.t.drain x.t.fuel).st else x.t.st
  let p := match kind with
    | .pos g => planPos l st g
    | .path g => planPos l st g
    | .vel v => planVel l st (clampI (-l.vp) l.vp v)
    | .stream _ => {}
  let q : Seg := ⟨kind, p, 0, l.list⟩
  let g := match kind with
    | .pos g => g
    | .path g => g
    | .vel _ => (p.after st (max 1 q.steps)).fine
    | .stream points => points.getLast?.getD st.fine
  ({ q with endPos := g }, x.k.toNat)

/-! ### One step (R256) -/

/-- tq() of R256. -/
def tq (x : Int) (n : Nat) : Int := sgn x * (x.natAbs / 2 ^ n : Nat)

/-- KV, KA and KF for an axis period (R256, R307). -/
def kV (ta : Nat) : Int := (2 ^ 16 * 10 ^ 9 / ta : Nat)
def kA (ta : Nat) : Int := (2 ^ 8 * 10 ^ 18 / ta ^ 2 : Nat)
def kF (ta : Nat) : Int := (2 ^ 24 * 10 ^ 9 / ta : Nat)

/-- Stores of `AP`, `VP`, `PF`, `POS_SET`, `VEL_SET` and `ACC_SET` with the words published. -/
def setpoint (c : Call) (ap vp : Int) (pf : Nat) (pos vel acc : Int) : Commit :=
  { stores := put64 c 0xB0 ap ++ put64 c 0xB8 vp ++ put32 c 0xC0 pf ++ put64 c 0x10 pos ++ put64 c 0x18 vel
      ++ put64 c 0x20 acc
    pub := pubPair 4 (wrap64 pos) vel }

/-- A step with jerk `j` and offsets `e` and `f` (R256). -/
def setStep (c : Call) (s : State) (j e f : Int) : Commit × PState :=
  let x := s.setState c.slot
  let ap := x.a + j
  let vp := x.v + ap + e
  let p := x.p + vp + f
  let ta := s.ta c.slot
  (setpoint c ap vp (p % 2 ^ 24).toNat (wrap64 (p / 2 ^ 24)) (tq (vp * kV ta) 32) (tq ((ap + e) * kA ta) 32), ⟨p, vp, ap⟩)

/-- A 64-bit field that an exact value does not fit holds a free value (log 30), the same on any device (R17). -/
def fit64 (v : Int) : Int := if sat64 v = v then v else (Config.beyond v).toInt

/-! ### Queue and plan in a run (R258 to R260, R267, R269) -/

/-- Follow another plan from the present state. -/
def State.takePlan (s : State) (slot : Nat) (p : Plan) : State :=
  let x := s.setState slot
  let k := s.planK slot
  s.onAxis slot fun a => { a with plan := p, base := k, origin := x.list }

/-- `PLAN_K` restarts. -/
def State.restartK (s : State) (slot : Nat) : State :=
  (s.putK slot 0).onAxis slot fun a => { a with snapK := 0 }

/-- Set or clear a bit of `SFLAGS`. -/
def State.sflag (s : State) (slot n : Nat) (v : Bool) : State := s.setAxb slot 0xCC (setBit (s.axWord slot 0xCC) n v)

/-- The staged replacements of a slot that no quick stop has displaced, in retirement order. -/
def State.replacements (s : State) (slot : Nat) : List Staged := (s.movesOf slot).filter fun d => d.seg.isSome && !d.append && !d.cut

/-- `SFLAGS` [0] and `SWITCH_K` show the staged plan that takes hold next (R255, R267). -/
def State.showStaged (slot : Nat) (s : State) : State :=
  match s.replacements slot with
  | d :: _ => (s.setAxb slot 0xC8 (w32 d.switchK)).sflag slot 0 true
  | [] => s.sflag slot 0 false

/-- Begin the first entry of the queue. -/
def State.beginSeg (s : State) (slot : Nat) (q : Seg) : State :=
  let s := (s.takePlan slot q.plan).onAxis slot fun a => { a with inSeg := true }
  let s := s.setAxb slot 0xD0 0
  s.sflag slot 2 (match q.kind with | .stream _ => true | _ => false)

/-- A replacement that precedes `d` waits for its switch run. -/
def State.held (s : State) (slot : Nat) (d : Staged) : Bool :=
  ((s.movesOf slot).takeWhile fun t => !t.is d.ses d.pkt.hdr.seq).any fun t => t.waiting && !t.append && !t.cut

/-- A staged plan whose switch run this is takes hold (R267); a segment that waits behind it then joins. -/
def switchPlan (slot k : Nat) (s : State) (d : Staged) : State :=
  match d.seg with
  | some q =>
    if d.waiting && d.append && !d.cut then
      if s.held slot d then s
      else
        let s := if d.pkt.op = 0x0404 then s else s.sflag slot 1 false
        tookHold d k (d.late || decide (0 < s.dueBelow slot k - s.dueBelow slot d.eff))
          (s.onAxis slot fun a => { a with queue := a.queue ++ [q] })
    else if d.waiting && !d.append && !d.cut && !s.held slot d && decide (s.planK slot = d.switchK) then
      let s := s.restartK slot
      let s := s.onAxis slot fun a => { a with queue := [q] }
      let s := if d.pkt.op = 0x0404 then s else s.sflag slot 1 false
      let s := s.beginSeg slot q
      let late := d.late || decide (0 < s.dueBelow slot k - s.dueBelow slot d.eff)
      tookHold d k late s
    else s
  | none => s

/-- The switch, and the next entry of the queue when none is in progress. -/
def prepareRun (slot k : Nat) (s : State) : State :=
  let s := (s.movesOf slot).foldl (switchPlan slot k) s
  let s := s.showStaged slot
  let a := s.axis slot
  match a.queue with
  | q :: _ => if a.inSeg then s else s.beginSeg slot q
  | [] => s

/-- The first entry of the queue completes. -/
def State.popSeg (s : State) (slot : Nat) : State :=
  s.onAxis slot fun a => { a with inSeg := false, queue := a.queue.drop 1 }

/-- The axis state follows queue and set-point; a halt or a plain quick stop ends at rest (R260, R261,
R291). -/
def followState (slot : Nat) (rests : Bool) (s : State) : State :=
  let a := s.axis slot
  let idle := a.queue.isEmpty && rests && decide (a.gear.kind = 0 ∧ a.homing.outcome ≠ 1)
  match a.state with
  | .enabled => if idle then s else s.onAxis slot fun a => { a with state := .moving }
  | .moving => if idle then s.onAxis slot fun a => { a with state := .enabled } else s
  | .stopping =>
    if !rests then s
    else match a.stop with
      | .halt => s.onAxis slot fun a => { a with state := .enabled, stop := .none }
      | .quick none false => s.onAxis slot fun a => { a with state := .enabled, stop := .none }
      | _ => s
  | _ => s

/-- The state part of a run of plan or stream after its step: completion of the segment, underrun. `x` is
the state after the step. -/
def afterRun (slot : Nat) (x : PState) (limited : Bool) (s : State) : State :=
  let a := s.axis slot
  let k := s.planK slot
  let s := s.putK slot (k + 1)
  let s := if limited then s.sflag slot 1 true else s
  match a.queue with
  | [] => s
  | q :: rest =>
    match q.kind with
    | .stream points =>
      let n := (s.axWord slot 0xD0).toNat + 1
      let s := s.setAxb slot 0xD0 (w32 n)
      if n < points.length then s
      else
        let s := (s.popSeg slot).sflag slot 2 false
        if rest.head?.any Seg.streams then s
        else
          let s := s.sflag slot 1 true
          s.onAxis slot fun a =>
            { a with plan := planHalt (s.lims slot) (s.qu slot) x, base := k + 1, origin := x.list, queue := []
                     state := .stopping, stop := .halt, reg := { a.reg with ended := true } }
    | _ => if q.steps ≤ k + 1 - a.base then s.popSeg slot else s

/-- A run of a slot that follows its own plan. -/
def planRun (c : Call) (s : State) : Commit × State :=
  let s := prepareRun c.slot c.period s
  let a := s.axis c.slot
  let k := s.planK c.slot
  let now := s.setState c.slot
  let stp : (Int × Int × Int) × Bool := match a.inSeg, a.queue with
    | true, ⟨.stream points, _, _, lim⟩ :: _ =>
      let r := streamStep (listLims lim) now (points.getD (s.axWord c.slot 0xD0).toNat 0)
      ((r.1.a - now.a, 0, 0), r.2)
    | _, _ => (a.plan.at_ (k + 1 - a.base), false)
  let r := setStep c s stp.1.1 stp.1.2.1 stp.1.2.2
  (r.1, followState c.slot r.2.rests (afterRun c.slot r.2 stp.2 s))

/-! ### Masters (R303 to R305) -/

/-- Position and velocity of a master as a follower sees it: exchange words and the lead in ns. -/
def State.masterView (s : State) (slot m : Nat) : Int × Int × Nat :=
  let lead (own : Nat) : Nat := if s.pn slot 0x801 = 0xFFFFFFFF then own else s.pn slot 0x801
  if m < 0x80 then
    let w := if s.pn slot 0x800 = 0 then 4 else 0
    (s.exch64 m w, s.exch64 m (w + 2), lead (s.ta m))
  else if m < 0x200 then (s.exch64 (128 + (m - 0x100)) 0, s.exch64 (128 + (m - 0x100)) 2, lead s.tBase)
  else (s.exch64 (136 + (m - 0x200)) 0, s.exch64 (136 + (m - 0x200)) 2, lead s.tBase)

/-- M of R303 and the record's velocity. -/
def State.masterAt (s : State) (slot m : Nat) : Int × Int :=
  let x := s.masterView slot m
  (wrap64 (x.1 + rnd (x.2.1 * rndDiv ((x.2.2 * 2 ^ 44 : Nat) : Int) (10 ^ 9)) 52), x.2.1)

/-! ### The offset component (R311) -/

/-- One offset step: the words of R255 after it, the offset position, and the step in fine counts. -/
def offsetStep (s : State) (slot : Nat) : PState × Int × Nat × Int :=
  let a := s.axis slot
  let pf := (s.axWord slot 0xC0).toNat
  let x : PState := ⟨a.ofs.pos * 2 ^ 24 + pf, s.ax64 slot 0xB8, s.ax64 slot 0xB0⟩
  let l := s.ofsLims slot
  let y := (streamStep l x a.ofs.tgt).1
  (y, wrap64 (y.p / 2 ^ 24), (y.p % 2 ^ 24).toNat, y.p / 2 ^ 24 - x.p / 2 ^ 24)

/-- Write back what a geared run leaves: the offset position and the gearing words. -/
def geared (c : Call) (y : PState) (pf : Nat) (pos vel acc ofs : Int) (g : Gear) (s : State) : Commit × State :=
  let k := s.planK c.slot
  let s := (s.putK c.slot (k + 1)).onAxis c.slot fun a =>
    { a with gear := g, ofs := { a.ofs with pos := ofs } }
  (setpoint c y.a y.v pf pos (fit64 vel) (fit64 acc), followState c.slot false s)

/-! ### Dovetails (R307) -/

/-- A run of a linked slot. -/
def dovetailRun (c : Call) (s : State) : Commit × State :=
  let g := (s.axis c.slot).gear
  let ta := s.ta c.slot
  let m := s.masterAt c.slot g.master
  let dm := if g.relead then 0 else wrap64 (m.1 - g.gPrev)
  let den : Int := (max 1 g.den : Nat)
  let t := g.gRem + dm * g.num
  let n := t / den
  let vg := m.2 * g.num / den
  let ag := tq ((vg - (if g.fresh then vg else g.vgPrev)) * kF ta) 32
  let o := offsetStep s c.slot
  geared c o.1 o.2.2.1 (wrap64 (s.ax64 c.slot 0x10 + n + o.2.2.2)) (vg + tq (o.1.v * kV ta) 32)
    (ag + tq (o.1.a * kA ta) 32) o.2.1
    { g with gPrev := m.1, gRem := t - n * den, vgPrev := vg, fresh := false, relead := false } s

/-! ### Cams (R312 to R314) -/

/-- Point `i` of the table engaged by a slot, from the engine's data memory; P[N] is P[0] + RISE. -/
def State.camPoint (s : State) (le : Nat) (g : Gear) (i : Nat) : Int :=
  let w (i : Nat) : Int :=
    let o := 0xC000 + 8 * ((g.camAt + i) % 2048)
    (cat64 (s.leWord le (o + 4)) (s.leWord le o)).toInt
  if i < g.camN then w i else w 0 + g.camRise

/-- S of R314. -/
def Gear.span (g : Gear) : Int := (max 1 g.camSpan * 2 ^ 24 : Nat)

/-- y of R314 at a phase, and the difference of the points about it. -/
def State.camAt (s : State) (le : Nat) (g : Gear) (ph : Int) : Int × Int :=
  let q := ph * g.camN
  let i := q / g.span
  let r := (q - i * g.span) * 2 ^ 32 / g.span
  let d := s.camPoint le g (i.toNat + 1) - s.camPoint le g i.toNat
  (s.camPoint le g i.toNat + rnd (d * r) 32, d)

/-- A run of an engaged slot. -/
def camRun (c : Call) (s : State) : Commit × State :=
  let g := (s.axis c.slot).gear
  let ta := s.ta c.slot
  let m := s.masterAt c.slot g.master
  let dm := if g.relead then 0 else wrap64 (m.1 - g.gPrev)
  let h := g.ph + dm
  let cyc := g.cyc + h / g.span
  let ph := h % g.span
  let y := s.camAt c.le g ph
  let vc := m.2 * y.2 * g.camN / g.span
  let ac := tq ((vc - (if g.fresh then vc else g.vgPrev)) * kF ta) 32
  let o := offsetStep s c.slot
  geared c o.1 o.2.2.1 (wrap64 (g.base + cyc * g.camRise + y.1 + o.2.1)) (vc + tq (o.1.v * kV ta) 32)
    (ac + tq (o.1.a * kA ta) 32) o.2.1
    { g with gPrev := m.1, ph := ph, cyc := cyc, vgPrev := vc, fresh := false, relead := false } s

/-- `PROFILE` and `CAM`. -/
def profile (c : Call) (s : State) : Commit × State :=
  match (s.axis c.slot).gear.kind with
  | 0 => planRun c s
  | 1 => dovetailRun c s
  | _ => camRun c s

/-- A follower stops following and keeps its total set-point state (R310). -/
def ungear (slot : Nat) (s : State) : State :=
  let a := s.axis slot
  if a.gear.kind = 0 then s
  else
    let s := s.setAxb64 slot 0xB8 (s.velU slot a.gear.vgPrev + s.ax64 slot 0xB8)
    s.onAxis slot fun a => { a with gear := {}, ofs := {} }

/-! ### Virtual masters and shaft channels (R306, R328) -/

/-- `VMASTER`: word 0 of the block the virtual master, word 1 the bound slot, which another engine's stop
reads as it stood at the boundary (R158). -/
def vmaster (c : Call) (s : State) : Commit × State :=
  let slot := (s.leWord c.le (c.param * 64 + 4)).toNat
  if s.slotLe slot = c.le then ({ pub := pubPair 0 (s.ax64 slot 0x10) (s.ax64 slot 0x18) }, s)
  else ({ pub := pubPair 0 (s.exch64 slot 4) (s.exch64 slot 6) }, s)

/-- `SHAFT_RX`: word 0 of the block the channel, words 2 and 3 KE. -/
def shaftRx (c : Call) (s : State) : Commit × State :=
  let ch := (s.leWord c.le (c.param * 64)).toNat % 4
  let ke := (cat64 (s.leWord c.le (c.param * 64 + 12)) (s.leWord c.le (c.param * 64 + 8))).toInt
  let v := s.exch64 (136 + ch) 6
  ({ pub := pubPair 0 (wrap64 (s.exch64 (136 + ch) 4 + rnd (v * ke) 52)) v }, s)

end Sys2Proof.Machine
end

