-- ==== Sys2Proof/Machine/Latch.lean ====
section
/-!
DEFINITION. The roles of a pair as the other units see them, the latch inputs and registration (chapter 12,
R316 to R324).
-/
namespace Sys2Proof.Machine

/-! ### Roles of a pair (R389 to R391) -/

def State.pairPhase (s : State) : Nat := s.field Reg.pairState 3 1
/-- This device is the Active of a pair. -/
def State.active? (s : State) : Bool := bit (s.reg Reg.pairState) 0
/-- It is single, or the Active. -/
def State.leads (s : State) : Bool := !s.paired || s.active?
/-- It is a device of a pair whose Standby is in step. -/
def State.inStep (s : State) : Bool := s.paired && decide (s.pairPhase = 4)
/-- It is the Standby in step. -/
def State.standby (s : State) : Bool := s.inStep && !s.active?

/-- Send a message over the pair link when it is up. -/
def pairSend (cls kind : Nat) (body : List Nat) (s : State) : State :=
  if bit (s.reg Reg.pairLink) 0 then s.emit (.pair cls kind body) else s

/-! ### Interpolation (R318) -/

/-- Network time of a stamp in 2^-32 ns. -/
def stampTime (t : Stamp) : Nat := (t.sec * 10 ^ 9 + t.ns) * 2 ^ 32 + t.frac

/-- The sample offset of a slot: that of its ring port, or the local one. -/
def State.slotOfs (s : State) (slot : Nat) : Int := if s.fbkSrc slot = 0 then s.smpOfs (s.pn slot 5) else s.smpOfs 8

/-- interp() of R318. -/
def State.interp (s : State) (slot : Nat) (t : Stamp) : Int :=
  let ts : Int := ((t.sec * 10 ^ 9 + t.ns) * 2 ^ 8 + t.frac / 2 ^ 24 : Nat)
  let at_ : Int := ((Map.get (fun _ => 0) s.exchAt slot * s.tBase : Nat) + s.slotOfs slot) * 2 ^ 8
  wrap64 (s.exch64 slot 0 + rnd (s.exch64 slot 2 * sat32 (ts - at_) * 72057594) 72)

/-! ### Latch inputs (R316 to R319) -/

/-- C of R318, in ns: at least 1.000 µs in a pair. -/
def State.cut (s : State) : Nat := (let c := s.field Reg.latCfg 7 0; if s.paired then max c 25 else c) * 40

/-- Room for another stamp; without it the stamp is lost (R317). -/
def latchFull (n : Nat) (s : State) : State := (s.countUp (Reg.latChLost n) 15 0 1).event Reg.latStat n

/-- An accepted stamp goes to the queue that takes it: to registration when one is bound, for the edge of
`REGISTER_CFG`, else to the host FIFO, for the edges of `LATCH_ARM` (R317, R321; DEDUCED, log 31).
Registration ignores the window, so its first stamp disarms a single-shot input. -/
def latchStamp (n : Nat) (falling : Bool) (t : Stamp) (s : State) : State :=
  let l := s.latch n
  let r : LatchRec := { falling := falling, stamp := t, ref := l.slot }
  let l := { l with first := some (l.first.getD r), latest := some r }
  let s := s.setLatch n l
  match l.slot, l.bound with
  | none, _ => s
  | some _, some slot =>
    if falling ≠ (s.axis slot).reg.falling then s
    else if 8 ≤ l.reg.length then latchFull n s
    else s.setLatch n { l with reg := l.reg ++ [r], slot := if l.mode.getLsbD 2 then l.slot else none }
  | some _, none =>
    if !l.mode.getLsbD (if falling then 1 else 0) then s
    else if 32 ≤ l.host.length then latchFull n s
    else s.setLatch n { l with host := l.host ++ [r] }

/-- LATCH_EDGE (R316): an edge of a latch ball, with its stamp. The device that leads uses it, and sends it
to its partner; the Standby keeps it for 2 ms (R399). -/
def execLatchEdge (n : Nat) (level : Bool) (t : Stamp) (s : State) : Host.Outcome State Fault Refusal :=
  let l := s.latch n
  let q := stampTime t / 2 ^ 30
  let cfg := s.reg (Reg.latChCfg n)
  let t := { t with frac := t.frac / 2 ^ 30 * 2 ^ 30 }
  let falling := level == bit cfg 8
  let dead := match l.last with
    | some a => decide (q < a + bits cfg 7 0 * 160)
    | none => false
  done (
    if 32 ≤ n ∨ l.level = level then s
    else
      let s := s.setLatch n { l with level := level }
      if !s.answers 0x0E 0 || dead then s
      else
        let s := s.onLatch n fun l => { l with last := some q }
        let s := s.setReg (Reg.latChEdges n) (s.reg (Reg.latChEdges n) + 1)
        let s := acqLatch n falling (t.sec * 10 ^ 9 + t.ns) s
        if s.leads then
          let s := if s.active? then pairSend 1 3 [n, b2n falling, t.sec, t.ns, t.frac] s else s
          latchStamp n falling t s
        else s.onLatch n fun l =>
          { l with own := (l.own ++ [({ falling := falling, stamp := t } : LatchRec)]).filter fun r => decide (q < stampTime r.stamp / 2 ^ 30 + 8000000) })

/-- LATCH_STAMP_TRANSFER (R399): a stamp of the Active arrives on its partner. -/
def execLatchStampTransfer (n : Nat) (falling : Bool) (t : Stamp) (s : State) :
    Host.Outcome State Fault Refusal :=
  done (if n < 32 ∧ s.paired ∧ ¬ s.active? ∧ s.answers 0x0E 0 then latchStamp n falling t s else s)

/-- The stamp lies at or before a boundary less C. -/
def State.eligible (s : State) (ns : Nat) (t : Stamp) : Bool := decide (stampTime t + s.cut * 2 ^ 32 ≤ ns * 2 ^ 32)

/-- A host record lies inside the window of its input (R319). -/
def Latch.inside (l : Latch) (t : Stamp) (pos : Int) : Bool :=
  if l.winStart = l.winEnd then true
  else if l.mode.getLsbD 3 then
    decide (l.winStart.toInt * 2 ^ 32 ≤ stampTime t ∧ (stampTime t : Int) < l.winEnd.toInt * 2 ^ 32)
  else decide (toU 64 (pos - l.winStart.toInt) < toU 64 (l.winEnd.toInt - l.winStart.toInt))

/-- Complete the oldest incomplete record of an input if it is eligible at boundary `ns`, over the slot that
was its reference at the stamp (R318, R319). The record that disarms a single-shot input leaves no stamp
behind it (DEDUCED, log 31). -/
def latchComplete (ns n : Nat) (s : State) : State :=
  let l := s.latch n
  let old := l.host.takeWhile fun r => r.pos.isSome
  match l.host.drop old.length with
  | r :: rest =>
    if !s.eligible ns r.stamp then s
    else
      let pos := s.interp (r.ref.getD 0) r.stamp
      if !l.inside r.stamp pos then
        (s.setLatch n { l with host := old ++ rest }).countUp (Reg.latChLost n) 31 16 1
      else
        let rec' := old ++ [{ r with pos := some pos }]
        if l.mode.getLsbD 2 then s.setLatch n { l with host := rec' ++ rest }
        else s.setLatch n { l with host := rec', slot := none }
  | [] => s

/-- The registration of a slot runs: the slot is on, and no stop has ended it (R321, R324). -/
def State.regOn (s : State) (slot : Nat) : Bool := s.axOn slot && !(s.axis slot).reg.ended

/-- What the boundary at `ns` does to one input: host records complete; registration stamps are discarded
while their target is not on or its registration has ended (R318, R321, R324). -/
def latchInput (ns : Nat) (s : State) (n : Nat) : State :=
  let s := (List.range 32).foldl (fun s _ => latchComplete ns n s) s
  match (s.latch n).bound with
  | some slot =>
    if s.regOn slot then s else s.onLatch n fun l => { l with reg := [] }
  | none => s

/-- The latch inputs at the boundary at `ns`, before their edges of the new period. -/
def latchBoundary (ns : Nat) (s : State) : State := (List.range 32).foldl (latchInput ns) s

/-- The first edges since the last boundary are forgotten, once the switches have been sampled (R281). -/
def latchForget (s : State) : State :=
  (s.latches.map Prod.fst).foldl (fun s n => s.onLatch n fun l => { l with first := none, latest := none }) s

/-- On a change of the Active role, this device's own stamps replace those of the partner beyond the
cut-off of the last boundary (R408, R412; DEDUCED, log 31). -/
def latchOwn (s : State) : State :=
  let ns := s.tmu.period * s.tBase
  (List.range 32).foldl (fun s n =>
    let l := s.latch n
    let s := s.setLatch n { l with
      host := l.host.filter (fun r => r.pos.isSome || s.eligible ns r.stamp)
      reg := l.reg.filter (fun r => s.eligible ns r.stamp), own := [] }
    (l.own.filter fun r => !s.eligible ns r.stamp).foldl (fun s r => latchStamp n r.falling r.stamp s) s) s

/-- The 24 bytes of a completed record that `LATCH_READ` returns, and the FIFO after it. -/
def Latch.fill (l : Latch) : Word := w32 (l.reg.length + l.host.length * 2 ^ 16)

/-! ### Registration (R321 to R324) -/

/-- The oldest registration stamp of an input that is eligible at `ns` for a target (R322, R324). -/
def State.regStamp (s : State) (slot n ns : Nat) : Option LatchRec :=
  match (s.latch n).reg with
  | r :: _ => if s.regOn slot && s.eligible ns r.stamp then some r else none
  | [] => none

/-- `IN0` to `IN7` of a stop that a latch stamp triggers (R175). -/
def LatchRec.words (r : LatchRec) (n : Nat) : List Word :=
  [w32 r.stamp.sec, w32 r.stamp.ns, w32 r.stamp.frac,
   w32 (n + 256 * b2n r.falling + r.stamp.sec / 2 ^ 32 % 65536 * 65536), 0, 0, 0, 0]

/-- An error of the registration, corrected (R323): what the run writes into the target's block. -/
def State.regCorrect (s : State) (eps : Int) (w : RegWrite) : RegWrite :=
  let w := { w with err := eps }
  if s.pn w.slot 0x81B < eps.natAbs then { w with rejected := (w.rejected + 1) % 65536 }
  else
    let c := eps * s.pi w.slot 0x816 / (max 1 (s.pn w.slot 0x817) : Nat)
    let c := clampAbs (rnd (c * s.pn w.slot 0x818) 31) (s.pn w.slot 0x81A * 2 ^ 24 : Nat)
    { w with tgt := if s.pn w.slot 0x819 ≤ c.natAbs then wrap64 (w.tgt + c) else w.tgt
             applied := (w.applied + 1) % 65536 }

/-- The words of a slot's block that `REG_LATCH` works on. -/
def State.regWords (s : State) (slot : Nat) : RegWrite :=
  let a := s.axis slot
  { slot := slot, x1 := a.reg.x1, have1 := a.reg.have1, err := a.reg.err, applied := a.reg.applied,
    rejected := a.reg.rejected, tgt := a.ofs.tgt }

/-- A run of `REG_LATCH` is written into its target's block. -/
def putReg (s : State) (w : RegWrite) : State :=
  s.onAxis w.slot fun a => { a with
    reg := { a.reg with x1 := w.x1, have1 := w.have1, err := w.err, applied := w.applied, rejected := w.rejected }
    ofs := { a.ofs with tgt := w.tgt } }

/-- `REG_LATCH` (R323). -/
def regLatch (c : Call) (s : State) : Commit × State :=
  let w (i : Nat) : Nat := (c.input.getD i 0).toNat
  let x := s.interp (s.pn c.slot 0x810) ⟨w 0 + w 3 / 65536 * 2 ^ 32, w 1, w 2⟩
  let r := s.regWords c.slot
  let r' :=
    if s.pn c.slot 0x811 = 0 then
      let pitch : Int := (max 1 (s.pn c.slot 0x812) : Nat)
      let ph := wrap64 (x - s.pi c.slot 0x813) % pitch
      s.regCorrect (if pitch ≤ 2 * ph then ph - pitch else ph) r
    else
      let d := wrap64 (x - r.x1)
      if !r.have1 || decide (d < 0 ∨ (s.pn c.slot 0x815 : Int) < d) then { r with x1 := x, have1 := true }
      else s.regCorrect (d - s.pi c.slot 0x814) { r with have1 := false }
  ({ regs := [r'] }, s)

end Sys2Proof.Machine
end

