-- ==== Sys2Proof/Machine/Path.lean ====
section
/-!
DEFINITION. Coordination groups and the `PATH` kernel (R270 to R276). What the spec leaves to the planner is
fixed here: where a plan is remade, how its roots are rounded and how an arc blends (DESIGN CHOICE, log 32).
-/
namespace Sys2Proof.Machine

/-! ### Geometry of a segment (R272) -/

def listAt (l : List Int) (m : Nat) : Int := l.getD m 0

/-- Angle of an arc at coordinate `x`: θ0 ± rnd(Δθ x ÷ L). -/
def PathSeg.theta (g : PathSeg) (x : Int) : Nat :=
  let d := rndDiv (g.dth * x) (max 1 g.len)
  toU 32 (if g.cw then g.th0 - d else g.th0 + d)

/-- Position of member `m` at segment coordinate `x`. -/
def PathSeg.pos (g : PathSeg) (m : Nat) (x : Int) : Int :=
  if g.len ≤ x then listAt g.ends m
  else match g.kind with
    | 0 => listAt g.start m + rndDiv ((listAt g.ends m - listAt g.start m) * x) (max 1 g.len)
    | 1 =>
      if m = g.px then g.cx + rnd (g.rad * cos32 (g.theta x)) 31
      else if m = g.py then g.cy + rnd (g.rad * sin32 (g.theta x)) 31
      else listAt g.start m
    | _ => listAt g.ends m

/-- Direction of member `m` at the start or the end of the segment, in 2^-62. -/
def PathSeg.dir (g : PathSeg) (m : Nat) (atEnd : Bool) : Int :=
  match g.kind with
  | 0 => (listAt g.ends m - listAt g.start m) * 2 ^ 86 / (max 1 g.len : Nat)
  | 1 =>
    let th := g.theta (if atEnd then g.len else 0)
    let sg : Int := if g.cw then -(2 ^ 31) else 2 ^ 31
    if m = g.px then -sin32 th * sg else if m = g.py then cos32 th * sg else 0
  | _ => 0

/-- √ of a sum of squares. -/
def norm (l : List Int) : Nat := isqrt (l.map fun d => d.natAbs ^ 2).sum

/-- Angle of a vector of any size; the arguments of `atan2` are brought into 31 bits. -/
def angleOf (y x : Int) : Nat :=
  let k := Nat.log2 (max y.natAbs x.natAbs) + 1 - 30
  atan2 (y / (2 ^ k : Nat)) (x / (2 ^ k : Nat))

/-- An arc whose end is its start is a full circle, or none: the spec does not say (free, log 32). -/
def PathSeg.full (g : PathSeg) : Bool := Config.arcFull (listAt g.start g.px) (listAt g.start g.py) g.cx g.cy

/-- Fix the length of a segment and the angles of an arc. -/
def PathSeg.measure (g : PathSeg) : PathSeg :=
  match g.kind with
  | 0 => { g with len := norm ((List.range g.ends.length).map fun m => listAt g.ends m - listAt g.start m) * 2 ^ 24 }
  | 1 =>
    let sx := listAt g.start g.px - g.cx
    let sy := listAt g.start g.py - g.cy
    let rad := norm [sx, sy]
    let t0 := angleOf sy sx
    let t1 := angleOf (listAt g.ends g.py - g.cy) (listAt g.ends g.px - g.cx)
    let d := toU 32 (if g.cw then (t0 : Int) - t1 else (t1 : Int) - t0)
    let d := if d = 0 ∧ g.full then 2 ^ 32 else d
    { g with rad := rad, th0 := t0, dth := d, len := (rnd (rad * d * piFix : Nat) 159).toNat * 2 ^ 24 }
  | _ => g

/-! ### Limits (R273) -/

/-- √ and ∛ rounded down. -/
def cbrt (n : Nat) : Nat := upTo (fun i => decide (i ^ 3 ≤ n)) (Nat.log2 n / 3 + 1) 0

/-- A_path-like acceleration parameter in u per period² (as in R257). -/
def accU (a t : Nat) : Nat := a * 2 ^ 24 * t ^ 2 / 10 ^ 18

/-- The least of the planning values of lead and members over their direction components, as limits whose
planning values they are. -/
def State.segLims (s : State) (members : List Nat) (g : PathSeg) : Lims :=
  let lead := members.headD 0
  let l := s.lims lead
  let share (val : Lims → Int) (v : Int) : Int :=
    ((List.range members.length).map fun m => (m, members.getD m 0)).foldl (fun v e =>
      match g.kind with
      | 0 =>
        let d := (listAt g.ends e.1 - listAt g.start e.1).natAbs
        if d = 0 then v else min v (val (s.lims e.2) * (g.len / 2 ^ 24 : Nat) / d)
      | 1 => if e.1 = g.px ∨ e.1 = g.py then min v (val (s.lims e.2)) else v
      | _ => v) v
  let a := share Lims.ap l.ap
  let v := share Lims.vp l.vp
  let v := if g.feed = 0 then v else min v (openDiv (g.feed * 2 ^ 44 * s.ta lead : Nat) (10 ^ 9))
  let v := if g.kind = 1 then min v (isqrt (a.toNat * g.rad * 2 ^ 24) : Nat) else v
  ⟨v + 1, a + l.r, share Lims.dp l.dp + l.r, share Lims.jp l.jp + l.r, l.r⟩

/-- Half-length of the blend between two segments, in u, and the junction speed v_j, held through the blend
(R273, R274). -/
def State.junction (s : State) (members : List Nat) (p q : PathSeg) : Nat × Nat :=
  let lead := members.headD 0
  if !p.blend || decide (p.kind = 2 ∨ q.kind = 2) then (0, 0)
  else
    let b := min (s.pn lead 0x608 * 2 ^ 48) (min (p.len / 2) (q.len / 2))
    let lp := s.segLims members p
    let lq := s.segLims members q
    let dq := norm ((List.range members.length).map fun m => p.dir m true - q.dir m false)
    let v := (min lp.vp lq.vp).toNat
    let v := if dq = 0 then v else min v (isqrt ((min lp.ap lq.ap).toNat * b * 4 * 2 ^ 62 / (3 * dq)))
    let v := if dq = 0 then v else min v (cbrt ((min lp.jp lq.jp).toNat * b ^ 2 * 2 * 2 ^ 62 / (3 * dq)))
    let arc (g : PathSeg) (v : Nat) : Nat :=
      if g.kind = 1 ∧ s.pn lead 0x60A ≠ 0 then min v (isqrt (accU (s.pn lead 0x60A) (s.ta lead) * g.rad * 2 ^ 24)) else v
    let v := arc p (arc q v)
    if b = 0 ∨ v = 0 then (0, 0) else (b, v)

/-! ### One plan in the path coordinate (R272 to R275) -/

/-- State of a group's plan before due period number `n`. -/
def Group.at_ (g : Group) (n : Nat) : PState := g.plan.after (listState g.origin) (n - g.begun)

/-- The plan of a stretch of length `dist` from state `x` that ends at speed `ve`. -/
def stretch (l : Lims) (x : PState) (dist ve : Nat) : Option Plan :=
  let pre : Plan := { legs := zeroLegs l x.a }
  let y := pre.finish x
  let left := (dist : Int) - (y.p - x.p)
  if left < 0 then none
  else if left = 0 ∧ y.v = ve then some pre
  else
    let q : Cruise :=
      { lims := l, start := x, pre := pre, v1 := y.v, sg := 1, dist := left.toNat, ve := ve
        preOk := stepsOk l pre pre.len 1 x.a x.v x.a, preMax := max x.v.natAbs y.v.natAbs }
    let c := q.speed
    if 0 < c then some (q.plan c)
    else if y.v = 0 ∧ ve = 0 then some (pre.jump left)
    else if y.v < 0 then none
    else
      -- too short for two blocks: one block at most, and the steps at the larger speed that bring the end
      let b := rampOf l y.v ve
      let d := if y.v = ve then 0 else b.dist y.v
      let top := max y.v.toNat ve
      let rest := (left - d).toNat
      if left < d then none
      else
        let p := if y.v = ve then pre.add [⟨0, max 1 ((rest + top - 1) / top)⟩]
          else if y.v < ve then (pre.block b).add [⟨0, (rest + top - 1) / top⟩]
          else (pre.add [⟨0, (rest + top - 1) / top⟩]).block b
        some { p with pos := [⟨0, p.len, dist - ((p.finish x).p - x.p)⟩] }

/-- The largest speed up to `top` from or to which a block to or from `v` fits the length; at an equal speed no
block is needed. -/
def reach (l : Lims) (v top len : Nat) (up : Bool) : Nat :=
  let fits (i : Nat) : Bool :=
    decide (i = v) || decide ((if up then (rampOf l v i).dist v else (rampOf l i v).dist i) ≤ (len : Int))
  if top ≤ v || fits top then top
  else v + upTo (fun i => decide (v + i ≤ top) && fits (v + i)) (Nat.log2 top + 1) 0

/-- Junctions of the segments of a path within the look-ahead: half-length and speed bound. -/
def State.junctions (s : State) (members : List Nat) (look : Nat) : List PathSeg → List (Nat × Nat)
  | p :: q :: r =>
    (if look ≤ 1 then (0, 0) else s.junction members p q) :: s.junctions members (look - 1) (q :: r)
  | _ => []

/-- Exit speeds from the last segment backward: each lets the path come to rest at its end. -/
def State.exits (s : State) (members : List Nat) : List PathSeg → List (Nat × Nat) → Nat → List Nat
  | p :: r, j, b0 =>
    let b1 := (j.headD (0, 0)).1
    let after := s.exits members r (j.drop 1) b1
    match r with
    | [] => [0]
    | q :: _ =>
      let nb := ((j.drop 1).headD (0, 0)).1
      let v := reach (s.segLims members q) (after.headD 0) (j.headD (0, 0)).2 (q.len - b1 - nb) false
      (if b1 = 0 then 0 else v) :: (if p.len < b0 + b1 then after.map fun _ => 0 else after)
  | [], _, _ => []

/-- Lay the plan over the segments from state `x`, `done` being the coordinate already covered of the first.
Gives the plan, the marks and the blends, or none when the first stretch cannot be planned. -/
def State.lay (s : State) (members : List Nat) : List PathSeg → List (Nat × Nat) → List Nat → PState → Int → Plan →
    Option (Plan × List (Nat × Nat) × List Nat)
  | [], _, _, _, _, p => some (p, [], [])
  | g :: r, j, e, x, done_, p =>
    let l := s.segLims members g
    let b := (j.headD (0, 0)).1
    let place (q : Plan) : Plan :=
      { legs := p.legs ++ q.legs
        vel := p.vel ++ q.vel.map fun d => { d with start := d.start + p.len }
        pos := p.pos ++ q.pos.map fun d => { d with start := d.start + p.len } }
    if g.kind = 2 then
      let p := p.add [⟨0, g.dwell⟩]
      (s.lay members r (j.drop 1) (e.drop 1) x 0 p).map fun t => (t.1, (p.len, p.len) :: t.2.1, 0 :: t.2.2)
    else
      let top := reach l x.v.toNat (e.headD 0) (g.len - done_ - b : Int).toNat true
      let ve := if b = 0 ∨ e.headD 0 = 0 then 0 else top
      let b := if ve = 0 then 0 else b
      match stretch l x (g.len - done_ - b : Int).toNat ve with
      | none => none
      | some q =>
        if (g.len : Int) - done_ - b < 0 then none
        else
          let p := place q
          let y := q.finish x
          if b = 0 then
            (s.lay members r (j.drop 1) (e.drop 1) y 0 p).map fun t => (t.1, (p.len, p.len) :: t.2.1, 0 :: t.2.2)
          else
            let n := max 1 ((2 * b + ve - 1) / ve)
            -- the last step of the blend goes on into the next segment, unless that leaves it too short
            let rest := n * ve - 2 * b
            let next := (r.headD {}).len
            let rest := if b + rest + ((j.drop 1).headD (0, 0)).1 ≤ next then rest else 0
            let q : Plan := { legs := [⟨0, n⟩], pos := [⟨0, n, 2 * b + rest - (n * ve : Nat)⟩] }
            let m := p.len
            let p := { legs := p.legs ++ q.legs, vel := p.vel, pos := p.pos ++ q.pos.map fun d => { d with start := d.start + m } }
            (s.lay members r (j.drop 1) (e.drop 1) (q.finish y) (b + rest : Nat) p).map fun t =>
              (t.1, (m, p.len) :: t.2.1, b :: t.2.2)

/-- The first legs of a list, `n` steps in all. -/
def takeLegs : List Leg → Nat → List Leg
  | [], _ => []
  | l :: r, n => if l.len ≤ n then l :: takeLegs r (n - l.len) else if n = 0 then [] else [⟨l.jerk, n⟩]

/-- The first `n` steps of a plan, which end with a segment or a blend. -/
def Plan.first (p : Plan) (n : Nat) : Plan :=
  { legs := takeLegs p.legs n, vel := p.vel.filter fun d => decide (d.start + d.len ≤ n)
    pos := p.pos.filter fun d => decide (d.start + d.len ≤ n) }

/-- The look-ahead of a group (R275). -/
def State.lookAhead (s : State) (g : Group) : Nat := max 1 (s.pn (g.members.headD 0) 0x609)

/-- Make the plan of a group anew from its state before due period number `n`; `rest` lets every segment end at rest. -/
def State.planNow (s : State) (g : Group) (n : Nat) (rest : Bool) : Option Group :=
  let x := g.at_ n
  let segs := match g.segs, g.marks with
    | d :: r, m :: _ => if d.kind = 2 then { d with dwell := m.2 - (n - g.begun) } :: r else g.segs
    | l, _ => l
  let j := s.junctions g.members (s.lookAhead g) segs
  let e := if rest then segs.map fun _ => 0 else s.exits g.members segs j 0
  (s.lay g.members segs j e x (x.p - g.base) {}).map fun r =>
    { g with segs := segs, plan := r.1, origin := x.list, begun := n, marks := r.2.1, blends := r.2.2, stale := false }

/-- Make the plan of a group anew from the end of its first `i` segments, with the blend behind them: up to there the old
plan stays. -/
def State.planBehind (s : State) (g : Group) (rest : Bool) (i : Nat) : Option Group :=
  let m := (g.marks.getD (i - 1) (0, 0)).2
  let x := g.at_ (g.begun + m)
  let segs := g.segs.drop i
  let j := (s.junctions g.members (s.lookAhead g) g.segs).drop i
  let e := if rest then segs.map fun _ => 0 else s.exits g.members segs j (g.blends.getD (i - 1) 0)
  let start := g.base + ((g.segs.take i).map PathSeg.len).sum
  (s.lay g.members segs j e x (x.p - start) (g.plan.first m)).map fun r =>
    { g with plan := r.1, marks := g.marks.take i ++ r.2.1, blends := g.blends.take i ++ r.2.2, stale := false }

/-- Make the plan of a group anew before due period number `n`: from its present state, else from behind the first segment
from which the path can take it (R274, R275), else from rest. -/
def State.replan (s : State) (g : Group) (n : Nat) : Option Group :=
  let later := (List.range g.marks.length).findSome? fun i =>
    (s.planBehind g false (i + 1)).or (s.planBehind g true (i + 1))
  ((s.planNow g n false).or later).or (if (g.at_ n).rests then s.planNow g n true else none)

/-! ### Positions -/

/-- Position of member `m` in the blend between two segments, `x` u after its start (R274). -/
def blendPos (p q : PathSeg) (b m : Nat) (x : Int) : Int :=
  let n : Int := (2 * b : Nat)
  let c2 := openDiv (2 * n * x ^ 3 - x ^ 4) (2 * (2 * b) ^ 3)
  let c1 := x - b - c2
  wrap64 (p.pos m (p.len + c1) + q.pos m c2 - listAt p.ends m)

/-- Position of member `m` at path coordinate `x`. -/
def pathPos (m : Nat) (x : Int) : List PathSeg → List Nat → Int → Int
  | [], _, _ => 0
  | p :: r, b, c =>
    let e := c + p.len
    let h := b.headD 0
    match r with
    | [] => wrap64 (p.pos m (x - c))
    | q :: _ =>
      if 0 < h ∧ e - h < x ∧ x < e + h then blendPos p q h m (x - (e - h))
      else if x ≤ e then wrap64 (p.pos m (x - c))
      else pathPos m x r (b.drop 1) e

/-- Where member `m` stands at path coordinate `x`. -/
def Group.pos (g : Group) (m : Nat) (x : Int) : Int :=
  if g.segs.isEmpty then listAt g.rest m else pathPos m x g.segs g.blends g.base

/-! ### Groups at boundaries -/

/-- The group that a slot is a member of. -/
def State.groupOf (s : State) (slot : Nat) : Option Nat :=
  (List.range 32).find? fun g => decide (slot ∈ (s.group g).members)

/-- Number of the next due period of a group, counting from 0. -/
def State.groupDue (s : State) (g : Group) : Nat := s.dueBelow (g.members.headD 0) s.tmu.period

/-- Remove the first entry of each member's queue. -/
def popMembers (g : Group) (s : State) : State := g.members.foldl (fun s m => s.popSeg m) s

/-- The segments that the path has passed leave it; the look-ahead then takes in further ones (R275). -/
def groupPass (i n : Nat) : Nat → State → State
  | 0, s => s
  | fuel + 1, s =>
    let g := s.group i
    match g.segs, g.marks with
    | p :: r, (_, e) :: ms =>
      if g.stop = 0 ∧ e ≤ n - g.begun then
        let look := s.pn (g.members.headD 0) 0x609
        let g' := { g with segs := r, marks := ms, blends := g.blends.drop 1, base := g.base + p.len, rest := p.ends
                           stale := g.stale || decide (look ≤ r.length) }
        groupPass i n fuel (popMembers g (s.setGroup i g'))
      else s
    | _, _ => s

/-- An ended stop fixes where the members rest, and its path is gone. -/
def settleStop (i : Nat) (s : State) : State :=
  let g := s.group i
  let n := s.groupDue g
  if g.stop = 0 ∨ n - g.begun < g.plan.len then s
  else
    let x := g.at_ n
    s.setGroup i { g with
      rest := (List.range g.members.length).map fun m => g.pos m x.p
      segs := [], marks := [], blends := [], plan := {}, base := 0, origin := [0, 0, 0], begun := n, stop := 0, stale := false }

/-- The work of the firmware on one group at a boundary, after the effects: passed segments leave, an ended
stop fixes where the members rest, and the plan is remade where segments have joined. -/
def groupBoundary (s : State) (i : Nat) : State :=
  let g := s.group i
  if g.members.isEmpty then s
  else
    let n := s.groupDue g
    let s := groupPass i n g.segs.length (settleStop i s)
    let g := s.group i
    let past := decide (g.plan.len ≤ n - g.begun)
    if g.stop ≠ 0 then s
    else if g.segs.isEmpty then
      let still := (List.range g.members.length).all fun m =>
        let n := g.members.getD m 0
        let x := s.setState n
        decide (n ∈ g.left) || (x.rests && decide (x.fine = listAt g.rest m))
      if still then s.setGroup i { g with rest := [], left := [], plan := {}, base := 0, origin := [0, 0, 0], begun := n, stale := false } else s
    else if past || g.stale then
      match s.replan g n with
      | some g => s.setGroup i g
      | none => s
    else s

/-- The least of Q_u of lead and members over their direction components on a segment (R287). -/
def State.segQu (s : State) (members : List Nat) (g : PathSeg) : Nat :=
  (List.range members.length).foldl (fun v m =>
    let q := s.qu (members.getD m 0)
    match g.kind with
    | 0 =>
      let d := (listAt g.ends m - listAt g.start m).natAbs
      if d = 0 then v else min v (q * (g.len / 2 ^ 24) / d)
    | 1 => if m = g.px ∨ m = g.py then min v q else v
    | _ => v) (s.qu (members.headD 0))

/-- The lesser of two sets of limits. -/
def Lims.least (a b : Lims) : Lims := ⟨min a.vu b.vu, min (a.au - a.r) (b.au - b.r) + a.r, min (a.du - a.r) (b.du - b.r) + a.r,
  min (a.ju - a.r) (b.ju - b.r) + a.r, a.r⟩

/-- The plan that stops a path from `x` under the limits of the segments that the stop reaches, `covered` u of the
path having been joined by those segments; `q` is for limits that allow no plan. -/
def State.pathStop (s : State) (members : List Nat) (q : Nat) (x : PState) : Lims → Int → List PathSeg → Plan
  | l, _, [] => planHalt l q x
  | l, covered, g :: r =>
    let p := planHalt l q x
    if (p.finish x).p ≤ covered then p else s.pathStop members q x (l.least (s.segLims members g)) (covered + g.len) r

/-- The path of a group stops: by a halt under the path's limits, or by a quick stop at the least of Q_u
(R276, R287). -/
def groupStop (i : Nat) (quick : Bool) (s : State) : State :=
  let g := s.group i
  let n := s.groupDue g
  let x := g.at_ n
  let first := g.segs.headD {}
  let blending := match g.marks, g.segs with
    | (a, _) :: _, _ :: d :: _ => if a < n - g.begun then s.segQu g.members d else s.segQu g.members first
    | _, _ => s.segQu g.members first
  let q := max 1 (min blending (s.segQu g.members first))
  let usable := g.members.all fun m => (s.lims m).ok
  let p := if quick || !usable then planQuick q x
    else s.pathStop g.members q x (s.segLims g.members first) (g.base + first.len) (g.segs.drop 1)
  let s := s.setGroup i { g with plan := p, origin := x.list, begun := n, marks := [], stale := false,
                                 stop := if quick then 2 else 1 }
  g.members.foldl (fun s m => s.onAxis m fun a => { a with queue := [], inSeg := false }) s

/-- Where a group's retired motion ends for member `m`: the last segment, the end of a stop, or rest (R557). -/
def State.groupEnd (s : State) (i m : Nat) : Int :=
  let g := s.group i
  let own := (s.setState (g.members.getD m 0)).fine
  if g.members.getD m 0 ∈ g.left then own
  else if g.stop ≠ 0 then g.pos m (g.plan.finish (listState g.origin)).p
  else match g.segs.getLast? with
    | some p => listAt p.ends m
    | none => g.rest.getD m own

/-- A path segment read from its record, from the positions `start` (R271). -/
def pathSegOf (p : Bytes) (start : List Int) : PathSeg :=
  { kind := Bytes.num p 0 1, blend := Nat.testBit (Bytes.num p 1 1) 0, cw := Nat.testBit (Bytes.num p 1 1) 1
    px := Bytes.num p 2 1, py := Bytes.num p 3 1, feed := Bytes.num p 4 4, dwell := Bytes.num p 8 4
    cx := Bytes.sint p 16 8, cy := Bytes.sint p 24 8, start := start
    ends := if Bytes.num p 0 1 = 2 then start else (List.range start.length).map fun m => Bytes.sint p (32 + 8 * m) 8 }

/-- A path segment joins its group (R258, R271). -/
def joinPath (i : Nat) (p : Bytes) (s : State) : State :=
  let start := (List.range (s.group i).members.length).map fun m => s.groupEnd i m
  let s := settleStop i s
  let g := s.group i
  let seg := (pathSegOf p start).measure
  let s := s.setGroup i { g with segs := g.segs ++ [seg], stale := true, left := [] }
  g.members.foldl (fun s m => s.onAxis m fun a =>
    { a with queue := a.queue ++ [{ kind := .path (listAt seg.ends (g.members.idxOf m)), endPos := listAt seg.ends (g.members.idxOf m) }],
             state := if a.state = .enabled then .moving else a.state }) s

/-- The segments behind the one in progress leave the queue (R261), but for those that the path needs to come to rest under
its limits (R275; DESIGN CHOICE, log 32). -/
def flushPath (i : Nat) (s : State) : State :=
  let g := s.group i
  let n := s.groupDue g
  let keep (k : Nat) : Option (Nat × Group) :=
    (s.replan { g with segs := g.segs.take k, marks := g.marks.take (k - 1), blends := g.blends.take (k - 1) } n).map fun g => (k, g)
  let r := if g.stop ≠ 0 then none else if g.marks.isEmpty then some (0, { g with segs := [], blends := [], stale := false })
    else (List.range g.segs.length).findSome? fun k => keep (k + 1)
  match r with
  | some r => g.members.foldl (fun s m => s.onAxis m fun a => { a with queue := a.queue.take r.1 }) (s.setGroup i r.2)
  | none => s

/-! ### The kernel -/

/-- The group on whose path a slot moves. -/
def State.pathOf (s : State) (slot : Nat) : Option Nat :=
  (s.groupOf slot).filter fun i =>
    let g := s.group i
    (!g.segs.isEmpty || !g.rest.isEmpty) && !decide (slot ∈ g.left)

/-- The path on which a slot moves is stopping, and has not come to its end by the slot's due period number `n`. -/
def State.pathStops (s : State) (slot n : Nat) : Bool :=
  match s.pathOf slot with
  | some i => let g := s.group i; decide (g.stop ≠ 0 ∧ n - g.begun < g.plan.len)
  | none => false

/-- `PATH`: each member's set-point is put on the path by the period number (R272); the members of a stopped group
come to rest together (R276). -/
def pathKernel (c : Call) (s : State) : Commit × State :=
  match s.pathOf c.slot with
  | none => planRun c s
  | some i =>
    let g := s.group i
    let n := s.dueBelow c.slot c.period
    let t := g.pos (g.members.idxOf c.slot) (g.at_ (n + 1)).p
    let x := s.setState c.slot
    let vp := wrapU (t * 2 ^ 24 - x.p)
    let r := setStep c s (vp - x.v - x.a) 0 0
    let s := s.putK c.slot (s.planK c.slot + 1)
    (r.1, followState c.slot (r.2.rests && !s.pathStops c.slot (n + 1)) s)

end Sys2Proof.Machine
end

