-- ==== Sys2Proof/Machine/Stops.lean ====
section
/-!
DEFINITION. Switches and limits, the ways in which an axis stops, faults, and homing (chapter 11, R279 to R299).
-/
namespace Sys2Proof.Machine

/-! ### What leaves with a stop -/

/-- What an immediate stop does beside its disabled words: an open-loop stepper makes a hard stop, other axes coast
(R286, R288, R354). The velocity of a follower is that of its total set-point state (R291, R310). -/
def hardStop (slot : Nat) (s : State) : State :=
  if !s.openLoop slot then s
  else
    let s := if s.outKind slot = 3 then s.onStp (s.pn slot 9) fun x => { x with hard := true } else s
    let g := (s.axis slot).gear
    let v := (s.setState slot).v + (if g.kind = 0 then 0 else s.velU slot g.vgPrev)
    if v = 0 then s else (s.setUncertain slot true).setHomed slot false

/-- Commands whose effect the state of the slot can end: motion, gearing, homing and registration. -/
def isMotion (op : Nat) : Bool :=
  isMove op || decide (op = 0x0501 ∨ op = 0x0502 ∨ op = 0x0503 ∨ op = 0x0505 ∨ op = 0x0506 ∨ op = 0x0601 ∨ op = 0x0704)

/-- Every staged effect of a slot that satisfies `f` fails with a status, for all of its slots (R133, R135). -/
def failStaged (slot status : Nat) (f : Staged → Bool) (s : State) : State :=
  ((s.staged.filter fun t => decide (slot ∈ t.slots) && f t).foldl (fun s t => failedAt t slot status s) s).showStaged slot

/-- The current limit that homing replaced comes back (R293). -/
def endHoming (slot outcome : Nat) (s : State) : State :=
  let h := (s.axis slot).homing
  if h.outcome ≠ 1 then s
  else
    let s := if h.method = 6 then writeBlocks slot [0x202] s else s
    s.onAxis slot fun a => { a with homing := { a.homing with outcome := outcome, halting := false, back := 0 } }

/-- A stop of any kind releases gearing and ends registration and homing (R291, R298, R324). -/
def release (slot outcome : Nat) (s : State) : State :=
  (endHoming slot outcome (ungear slot s)).onAxis slot fun a => { a with reg := { a.reg with ended := true } }

/-- A member that faults or is disabled follows its group's path no more (R276). -/
def leavePath (slot : Nat) (s : State) : State :=
  match s.pathOf slot with
  | some i => s.setGroup i { s.group i with left := adjoin slot (s.group i).left }
  | none => s

/-- The queue empties. -/
def clearQueue (slot : Nat) (s : State) : State :=
  ((s.onAxis slot fun a => { a with queue := [], inSeg := false }).sflag slot 2 false).showStaged slot

/-- The slot leaves motion for a state in which it does not move. -/
def leaveMotion (slot : Nat) (st : AxState) (s : State) : State :=
  let s := clearQueue slot (release slot (if st == .fault then 4 else 3) s)
  let s := if (s.axis slot).state.on then s.wearDisable slot else s
  leavePath slot (s.onAxis slot fun a => { a with state := st, stop := .none, plan := {} })

/-! ### Stops (R286 to R291) -/

/-- The slot's own plan of a stop; one that moves on a path stops with it and has none (R276). -/
def stopPlan (slot : Nat) (p : PState → Plan) (s : State) : State :=
  (s.restartK slot).takePlan slot (if (s.pathOf slot).isSome then {} else p (s.setState slot))

/-- A halt takes hold (R261); a stop in progress is left unchanged (R290). -/
def haltAxis (slot : Nat) (s : State) : State :=
  if !(s.axis slot).state.on || (s.axis slot).state == .stopping then s
  else
    let s := clearQueue slot (release slot 3 s)
    (stopPlan slot (planHalt (s.lims slot) (s.qu slot)) s).onAxis slot fun a => { a with state := .stopping, stop := .halt }

/-- A quick stop takes hold (R287, R290): moves that have not taken hold are displaced. One in progress runs on, and
a fault cause decides where it ends (DEDUCED, log 44). -/
def quickAxis (slot : Nat) (cause : Option Nat) (disable : Bool) (s : State) : State :=
  let a := s.axis slot
  if !a.state.on then s
  else match a.stop with
    | .quick c d => s.setAxis slot { a with stop := .quick (if c.isSome then c else cause) d }
    | .immediate _ => s
    | _ =>
      let s := clearQueue slot (release slot (if cause.isSome then 4 else 3) s)
      let st := s.staged.map fun t => if isMove t.pkt.op ∧ slot ∈ t.slots then { t with cut := true } else t
      let s := { s with staged := st }.showStaged slot
      (stopPlan slot (planQuick (s.qu slot)) s).onAxis slot fun a =>
        { a with state := .stopping, stop := .quick cause disable }

/-- The group of a slot stops with it (R276, R287). -/
def stopGroup (slot : Nat) (quick : Bool) (s : State) : State :=
  match s.groupOf slot with
  | none => s
  | some i => if (s.group i).segs.isEmpty ∨ (quick = false ∧ (s.group i).stop ≠ 0) ∨ (s.group i).stop = 2 then s else groupStop i quick s

/-- Members of a slot's group, the slot itself when it has none. -/
def State.withGroup (s : State) (slot : Nat) : List Nat :=
  match s.groupOf slot with
  | some i => (s.group i).members
  | none => [slot]

/-- `HALT` aimed at a slot: the whole group halts (R276). -/
def haltSlots (slot : Nat) (s : State) : State :=
  (s.withGroup slot).foldl (fun s m => haltAxis m s) (stopGroup slot false s)

/-- A quick stop of a slot: the whole group stops on its path (R276); `dis` says which of them are DISABLED at
rest, and the cause is the slot's own. -/
def quickSlots (slot : Nat) (cause : Option Nat) (dis : Nat → Bool) (s : State) : State :=
  (s.withGroup slot).foldl (fun s m => quickAxis m (if m = slot then cause else none) (dis m) s) (stopGroup slot true s)

/-- `QS_END` of a slot: a `QUICK_STOP` ends DISABLED (R291). -/
def State.qsEnd (s : State) (slot : Nat) : Bool := decide (s.pn slot 0x908 = 1)

/-- The slot enters FAULT; effects that have not taken hold fail with the cause (R133, R289). `hard`: by an
immediate stop (R286). -/
def enterFault (hard : Bool) (slot cause : Nat) (s : State) : State :=
  let s := (s.withGroup slot).foldl (fun s m => if m = slot then s else haltAxis m s) (stopGroup slot false s)
  let s := leaveMotion slot .fault (if hard then hardStop slot s else s)
  failStaged slot cause (fun _ => true) (s.onAxis slot fun a => { a with fault := cause })

/-- The slot becomes DISABLED; effects that ask for more fail (R133, R261), under a hold
of the island with its status (R436). `hard`: by an immediate stop (R286). -/
def enterDisabled (hard : Bool) (slot : Nat) (s : State) : State :=
  let s := leaveMotion slot .disabled (if hard then hardStop slot s else s)
  let s := failStaged slot ST.quickStop (fun t => t.cut) s
  failStaged slot (if (s.axis slot).holdKind = 0 then ST.axisState else ST.safeStop) (fun t => isMotion t.pkt.op) s

/-- `DISABLE` takes hold (R291): a moving axis stops first. One member halts its group, which loses its path
(R276). -/
def disableAxis (slot : Nat) (s : State) : State :=
  let a := s.axis slot
  let s := match s.groupOf slot with
    | some i => if (s.group i).segs.isEmpty then s else
        (s.group i).members.foldl (fun s m => if m = slot then s else haltAxis m s) (stopGroup slot false s)
    | none => s
  match a.state with
  | .moving | .stopping => if s.pn slot 0x90A = 0 then quickAxis slot none true s else enterDisabled true slot s
  | .enabled | .ready => enterDisabled false slot s
  | _ => s

/-- A quick stop whose last step has been made ends where its cause says (R289, R291). -/
def quickEnd (slot : Nat) (s : State) : State :=
  let a := s.axis slot
  match a.state, a.stop with
  | .stopping, .quick cause dis =>
    let ended := decide (a.plan.len ≤ s.planK slot - a.base) && !s.pathStops slot (s.dueBelow slot (s.tmu.period + 1))
    if !(s.setState slot).rests || !ended then s
    else match cause with
      | some c => enterFault false slot c s
      | none =>
        if dis then enterDisabled false slot s
        else failStaged slot ST.quickStop (fun t => t.cut) (s.onAxis slot fun a => { a with state := .enabled, stop := .none })
  | .enabled, _ => failStaged slot ST.quickStop (fun t => t.cut) s
  | _, _ => s

/-! ### Faults (R289, R290) -/

/-- Record a fault cause of a slot for the next sealing. -/
def State.cause (s : State) (slot c : Nat) : State := s.onAxis slot fun a => { a with causes := adjoin c a.causes }

/-- The reaction to a cause is an immediate stop. -/
def State.harsh (s : State) (slot c : Nat) : Bool :=
  decide (c ∈ [ST.feedback, ST.drive, ST.link, ST.drops, ST.accov, ST.sramUe]) || decide (s.pn slot 0x909 = 1)

/-- The least of a list of status values. -/
def least : List Nat → Nat
  | [] => 0
  | [c] => c
  | c :: r => min c (least r)

/-- The reaction to the causes that a slot has collected, at a sealing. -/
def react (slot : Nat) (s : State) : State :=
  let a := s.axis slot
  match a.causes with
  | [] => s
  | cs =>
    let s := s.onAxis slot fun a => { a with causes := [] }
    let hs := cs.filter fun c => s.harsh slot c
    match a.state with
    | .fault => s
    | .disabled | .ready => enterFault false slot (least (if hs.isEmpty then cs else hs)) s
    | _ => if hs.isEmpty then quickSlots slot (some (least cs)) (fun _ => false) s else enterFault true slot (least hs) s

/-! ### Switches (R279 to R281) -/

/-- Number of samples W of the debounce (R280). -/
def State.debounce (s : State) (slot : Nat) : Nat := (s.pn slot 0x902 * 1000 + s.tBase - 1) / max 1 s.tBase

/-- Raw active state of a source of a slot, `field` and `latch` being the levels sampled (R279). -/
def State.switchRaw (s : State) (slot src : Nat) (field latch : Word) : Bool :=
  let n := src % 256
  let inv := decide (src / 256 % 2 = 1)
  let key := s.pn slot 6 * 4 + s.pn slot 7
  if n < 0x20 then bit field n != inv
  else if n < 0x40 then bit latch (n - 0x20) != inv
  else if n < 0x44 then
    match Map.find? (s.port (s.pn slot 5)).last key with
    | some w => bit (w.getD 7 0) (8 + (n - 0x40)) != inv
    | none => inv
  else false

/-- One sample of a switch. -/
def Switch.sample (x : Switch) (w : Nat) (raw : Bool) (pos : Int) : Switch :=
  let x := { x with recent := ((raw != x.raw) :: x.recent).take (max 1 w), raw := raw }
  if raw = x.deb then { x with count := 0 }
  else
    let x := { x with count := x.count + 1, edgePos := if x.count = 0 then pos else x.edgePos }
    if w ≤ x.count then { x with deb := raw, count := 0, rose := raw } else x

/-- The raw edges within the window exceed what homing allows (R295). -/
def Switch.chatters (x : Switch) (w limit : Nat) : Bool :=
  decide (w ≠ 0) && decide (limit < (x.recent.filter id).length)

/-- Where a switch edge lies that this boundary shows for the first time (R281). -/
def State.edgePos (s : State) (slot src : Nat) : Int :=
  let n := src % 256
  match (if 0x20 ≤ n ∧ n < 0x40 then (s.latch (n - 0x20)).first else none) with
  | some r => s.interp slot r.stamp
  | none => s.ax64 slot 0

/-- Slots in use. -/
def State.slots (s : State) : List Nat := (List.range s.part.slots).filter fun a => decide (s.axisType a ≠ 0)

/-- The boundary samples the switches of one slot (R280). -/
def sampleSlot (field latch : Word) (s : State) (slot : Nat) : State :=
  let w := s.debounce slot
  let go (idx : Nat) (x : Switch) : Switch :=
    let src := s.pn slot idx
    x.sample w (s.switchRaw slot src field latch) (s.edgePos slot src)
  s.onAxis slot fun a =>
    { a with swHome := go 0x701 a.swHome, swPos := go 0x900 a.swPos, swNeg := go 0x901 a.swNeg }

/-- A debounced rise has been seen in a due period. -/
def seenRise (slot : Nat) (s : State) : State :=
  s.onAxis slot fun a =>
    { a with swPos := { a.swPos with rose := false }, swNeg := { a.swNeg with rose := false }, swHome := { a.swHome with rose := false } }

/-! ### Limits in a due period (R282, R284, R285) -/

/-- The position lies in the software limits (R284). -/
def State.inSoft (s : State) (slot : Nat) (x : Int) : Bool :=
  decide (wrap64 (x - s.pi slot 0x905) ≤ wrap64 (s.pi slot 0x904 - s.pi slot 0x905)) && decide (0 ≤ wrap64 (x - s.pi slot 0x905))

/-- e32 of R201. -/
def State.e32 (s : State) (slot : Nat) : Int := sat32 (wrap64 (s.ax64 slot 0x10 - s.ax64 slot 0) / 256)

/-- The limit causes of a slot that is on, at the sealing of a due period. -/
def limitCauses (slot : Nat) (s : State) : State :=
  let a := s.axis slot
  if !a.state.on then s
  else
    let v := (s.setState slot).v
    let hit := decide (a.homing.outcome ≠ 1) && (a.swPos.deb && decide (0 < v) || a.swNeg.deb && decide (v < 0))
    let s := if hit then s.cause slot ST.limitHit else s
    let pos := s.ax64 slot 0
    let below := decide (wrap64 (pos - s.pi slot 0x905) < 0)
    let out := decide (s.pn slot 0x903 = 1) && !s.inSoft slot pos && decide (if below then v < 0 else 0 < v)
    let s := if out then s.cause slot ST.softLimit else s
    if s.pn slot 0x906 ≠ 0 ∧ s.pn slot 0x906 < (s.e32 slot).natAbs then s.cause slot ST.following else s

/-! ### Homing (R292 to R298) -/

/-- `HOME_DIR` as a sign. -/
def State.homeDir (s : State) (slot : Nat) : Int := if s.pn slot 0x700 = 0 then 1 else -1

/-- The reference switch of a homing (R292). -/
def State.homeSw (s : State) (slot : Nat) : Switch :=
  let a := s.axis slot
  if a.homing.method = 3 ∨ a.homing.method = 4 then (if s.pn slot 0x700 = 0 then a.swPos else a.swNeg) else a.swHome

/-- A limit that homing does not search for became active (R294). -/
def State.strayLimit (s : State) (slot : Nat) : Bool :=
  let a := s.axis slot
  let own := decide (a.homing.method = 3 ∨ a.homing.method = 4)
  let pos := decide (s.pn slot 0x700 = 0)
  (a.swPos.rose && !(own && pos)) || (a.swNeg.rose && !(own && !pos))

/-- Begin a search at a speed in velocity words; a new search when `fresh` (R293, R296). -/
def homeSearch (slot word : Nat) (dir : Int) (s : State) : State :=
  let l := s.lims slot
  let x := s.setState slot
  let v := openDiv (word * 2 ^ 44 * s.ta slot : Nat) (10 ^ 9)
  let v := dir * min v l.vp
  let p := if l.ok then planVel l x v else {}
  let q : Seg := { kind := .vel v, plan := p, lim := l.list }
  let s := (s.restartK slot).takePlan slot p
  s.onAxis slot fun a =>
    { a with
      queue := [{ q with endPos := (p.after x (max 1 q.steps)).fine }], inSeg := true, state := .moving
      homing := { a.homing with start := s.ax64 slot 0x10, dir := dir, halting := false } }

/-- The halt that ends a search. -/
def homeHalt (slot : Nat) (s : State) : State :=
  let s := clearQueue slot s
  let p := planHalt (s.lims slot) (s.qu slot) (s.setState slot)
  ((s.restartK slot).takePlan slot p).onAxis slot fun a => { a with homing := { a.homing with halting := true } }

/-- Homing goes on to a phase. -/
def homePhase (slot n : Nat) (s : State) : State :=
  s.onAxis slot fun a => { a with homing := { a.homing with phase := n, halting := false } }

/-- Homing enters a phase of its table (R293). -/
def homeEnter (slot n : Nat) (s : State) : State :=
  let s := homePhase slot n s
  let d := s.homeDir slot
  match n with
  | 0 => homeSearch slot (s.pn slot 0x703) (-d) s
  | 1 => homeSearch slot (s.pn slot 0x702) d s
  | 2 => homeSearch slot (s.pn slot 0x703) (-d) s
  | 3 => homeSearch slot (s.pn slot 0x703) d s
  | 4 =>
    let s := s.onAxis slot fun a => { a with homing := { a.homing with idxSeen := false, satRun := 0 } }
    let s := if (s.axis slot).homing.method = 6 then
        (s.slotBlocks slot).foldl (fun s k => s.onBlk k fun b =>
          { b with params := Map.set (fun _ => 0) b.params 0x202 (s.par slot 0x709) }) s
      else s
    homeSearch slot (s.pn slot 0x703) d s
  | _ => s

/-- Add to words `w` and `w + 1` of both copies of an exchange record. -/
def exchShift (rec_ w : Nat) (d : Int) (s : State) : State :=
  let go (m : Map Word) : Map Word :=
    let g (i : Nat) : Word := Map.get (fun _ => 0) m (8 * rec_ + i)
    let v := BitVec.ofInt 64 ((cat64 (g (w + 1)) (g w)).toInt + d)
    Map.set (fun _ => 0) (Map.set (fun _ => 0) m (8 * rec_ + w) (lo64 v)) (8 * rec_ + w + 1) (hi64 v)
  { s with exchange := go s.exchange, exchNext := go s.exchNext }

/-- The multi-turn count of the present position (R244). -/
def mtLoad (slot : Nat) (s : State) : State :=
  if !s.mtNamed slot then s
  else
    let n := s.pn slot 0x113
    let rev : Int := (max 1 (s.pn slot 0x103) : Nat)
    let p := wrap64 (s.ax64 slot 0x80 - s.pi slot 0x705) / 2 ^ 24
    let q : Int := 4 * (p / rev) + s.mtQuarter slot (p % rev).toNat
    (s.setReg (Reg.fbkMtCount n) (wInt q)).raise (Reg.fbkMtMstat n) 1#32

/-- The virtual masters that a stop of an active table makes of a slot (R306). -/
def State.vmsOf (s : State) (slot : Nat) : List Nat :=
  (List.range 8).filter fun v => s.active.any fun e =>
    let w (i : Nat) : Nat := (s.leWord (e.1 / 512) (e.2.param * 64 + 4 * i)).toNat
    decide (e.2.flags % 4 ≠ 0 ∧ e.2.kernel = 0x71 ∧ w 0 % 8 = v ∧ w 1 = slot)

/-- The completion rule (R297): the position given to the reference, without moving any follower, be it one that
reads the slot through its virtual master. -/
def homeComplete (slot : Nat) (pos reference : Int) (s : State) : State :=
  let d := wrap64 (pos - reference)
  let add (o : Nat) (s : State) : State := s.setAxb64 slot o (wrap64 (s.ax64 slot o + d))
  let s := add 0x80 (add 0 (add 0x10 s))
  let vms := s.vmsOf slot
  let reads (m : Nat) : Bool := decide (m = slot) || vms.any fun v => decide (m = 0x100 + v)
  let s := vms.foldl (fun s v => exchShift (128 + v) 0 d s) (exchShift slot 0 d (exchShift slot 4 d s))
  let s := s.setPar slot 0x705 (BitVec.ofInt 64 (s.pi slot 0x705 + d))
  let s := s.slots.foldl (fun s n =>
    let g := (s.axis n).gear
    if g.kind ≠ 0 ∧ reads g.master then s.onAxis n fun a => { a with gear := { a.gear with gPrev := wrap64 (g.gPrev + d) } } else s) s
  let s := (List.range 8).foldl (fun s n =>
    let e := s.em n
    if (bits e.cfg 2 1 < 2 ∧ bits e.cfg 9 3 = slot) ∨ (bits e.cfg 2 1 = 2 ∧ bits e.cfg 9 3 ∈ vms) then s.setEm n { e with pPrev := wrap64 (e.pPrev + d) } else s) s
  let s := mtLoad slot ((s.setHomed slot true).setUncertain slot false)
  let s := if (s.axis slot).inSeg then s else s.takePlan slot {}
  s.onAxis slot fun a => { a with homing := { a.homing with outcome := 2, halting := false, back := 0 } }

/-- Homing aborts for a cause (R298). -/
def homeAbortFor (slot cause : Nat) (s : State) : State := (endHoming slot 4 s).cause slot cause

/-- The switches that a homing uses (R292, R294, R295): methods 5 and 6 take `HOME_SW` in a reversal. -/
def State.homeSwitches (s : State) (slot : Nat) : List Switch :=
  let a := s.axis slot
  let m := a.homing.method
  (if m = 3 ∨ m = 4 then [] else [a.swHome]) ++ [a.swPos, a.swNeg]

/-- HOMING_CHATTER_ABORT (R295). -/
def chatterAbort (slot : Nat) (s : State) : State :=
  if (s.axis slot).homing.outcome = 1 ∧
      (s.homeSwitches slot).any (fun x => x.chatters (s.debounce slot) (s.pn slot 0x708)) then
    homeAbortFor slot ST.homeChatter s
  else s

/-- HOMING_NOT_FOUND (R296): the travel of one search exceeds `HOME_MAXDIST`. -/
def notFoundAbort (slot : Nat) (s : State) : State :=
  let h := (s.axis slot).homing
  if h.outcome = 1 ∧ !h.halting ∧ h.phase < 5 ∧ s.pn slot 0x707 ≠ 0 ∧
      s.pn slot 0x707 * 2 ^ 24 < (wrap64 (s.ax64 slot 0x10 - h.start)).natAbs then
    homeAbortFor slot ST.homeNotFound s
  else s

/-- HARD_STOP_FOUND (R293, method 6): the reference has been pressed for `HOME_HS_N` due periods. -/
def hardStopFound (slot : Nat) (s : State) : State :=
  let h := (s.axis slot).homing
  if h.outcome = 1 ∧ h.method = 6 ∧ h.phase = 4 ∧ h.back = 0 ∧ s.pn slot 0x70A ≤ h.satRun then
    let s := clearQueue slot (writeBlocks slot [0x202] s)
    let s := ((s.setAxb64 slot 0x10 (s.ax64 slot 0)).setAxb slot 0xC0 0)
    let s := (s.setAxb64 slot 0xB8 0).setAxb64 slot 0xB0 0
    homePhase slot 5 ((s.restartK slot).takePlan slot {})
  else s

def execHomingChatterAbort (slot : Nat) (s : State) : Host.Outcome State Fault Refusal := done (chatterAbort slot s)
def execHomingNotFound (slot : Nat) (s : State) : Host.Outcome State Fault Refusal := done (notFoundAbort slot s)
def execHardStopFound (slot : Nat) (s : State) : Host.Outcome State Fault Refusal := done (hardStopFound slot s)

/-- Homing of a slot at the boundary of a due period, its switches having been sampled (R293, R294). Methods 5 and 6
run phase 4 alone, and so begin anew there after a reversal (DEDUCED, log 44). -/
def homeStep (slot : Nat) (s : State) : State :=
  let h := (s.axis slot).homing
  if h.outcome ≠ 1 then s
  else
    let sw := (s.homeSw slot).deb
    let rests := (s.setState slot).rests
    let stray := s.strayLimit slot
    let sub (b : Nat) (s : State) : State := s.onAxis slot fun a => { a with homing := { a.homing with back := b } }
    if stray then
      if h.reversed then homeAbortFor slot ST.homeLimit s
      else
        let s := sub 1 (homeHalt slot (if h.method = 6 then writeBlocks slot [0x202] s else s))
        s.onAxis slot fun a => { a with homing := { a.homing with reversed := true } }
    else if h.back ≠ 0 then
      match h.back with
      | 1 => if rests then sub 2 (homeSearch slot (s.pn slot 0x702) (-h.dir) s) else s
      | 2 => if sw then sub 3 s else s
      | 3 => if sw then s else sub 4 (homeHalt slot s)
      | _ => if rests then homeEnter slot (if h.method = 5 ∨ h.method = 6 then 4 else 1) (sub 0 s) else s
    else if h.halting then
      if !rests then s
      else match h.phase with
        | 0 => homeEnter slot 1 s
        | 1 => homeEnter slot 2 s
        | 2 => homeEnter slot 3 s
        | _ => homePhase slot 5 s
    else match h.phase with
      | 0 => if sw then s else homeHalt slot s
      | 1 => if sw then homeHalt slot s else s
      | 2 => if sw then s else homeHalt slot s
      | 3 =>
        if !sw then s
        else if h.method = 2 ∨ h.method = 4 then homeEnter slot 4 s
        else
          let e := (s.homeSw slot).edgePos
          homeHalt slot (s.onAxis slot fun a => { a with homing := { a.homing with refPos := e } })
      | 4 => if h.method ≠ 6 ∧ h.idxSeen then homeHalt slot s else s
      | _ => s

/-- Completion, once phase 5 is reached. -/
def homeFinish (slot : Nat) (s : State) : State :=
  let h := (s.axis slot).homing
  if h.outcome = 1 ∧ h.phase = 5 then
    let pos := s.pi slot 0x704
    homeComplete slot pos (if h.method = 7 then pos else h.refPos) s
  else s

/-- A homing begins (R292, R293). -/
def homeStart (slot method : Nat) (s : State) : State :=
  let s := s.setHomed slot false
  let s := s.onAxis slot fun a => { a with homing := { outcome := 1, method := method }, state := .moving }
  match method with
  | 5 => homeEnter slot 4 s
  | 6 => homeEnter slot 4 s
  | 7 => homePhase slot 5 s
  | _ => homeEnter slot (if (s.homeSw slot).deb then 0 else 1) s

/-- The saturation count of method 6 at the sealing of a due period. -/
def homeSat (slot : Nat) (s : State) : State :=
  let h := (s.axis slot).homing
  if h.outcome = 1 ∧ h.method = 6 ∧ h.phase = 4 ∧ h.satRun < s.pn slot 0x70A then
    let n := if bit (s.axWord slot 0x68) 1 then h.satRun + 1 else 0
    s.onAxis slot fun a => { a with homing := { a.homing with satRun := n, refPos := s.ax64 slot 0 } }
  else s

/-- Homing and switches at the boundary that begins period `k`: aborts that are due, samples, phases. Every slot's
switches are sampled, in RUN alone (R280). -/
def switchBoundary (k : Nat) (field latch : Word) (s : State) : State :=
  if !s.running then s
  else (List.range s.part.slots).foldl (fun s slot =>
    let s := hardStopFound slot (notFoundAbort slot (chatterAbort slot s))
    let s := sampleSlot field latch s slot
    if s.dueIn slot k then
      let s := homeFinish slot (homeStep slot s)
      seenRise slot s
    else s) s

/-- `HOME_STATE` (R300). -/
def Homing.word (h : Homing) : Nat := h.outcome + 16 * h.phase + 128 * b2n h.reversed

end Sys2Proof.Machine
end

