-- ==== Sys2Proof/Machine/Shafts.lean ====
section
/-!
DEFINITION. The line shaft on the chain ports (R325 to R329, R333, R406).
-/
namespace Sys2Proof.Machine

/-- Fields of `SH[c].CFG` (R333). -/
def State.shOn (s : State) (c : Nat) : Bool := bit (s.reg (Reg.chnShCfg c)) 0
def State.shOrigin (s : State) (c : Nat) : Bool := bit (s.reg (Reg.chnShCfg c)) 1
def State.shAge (s : State) (c : Nat) : Nat := s.field (Reg.chnShCfg c) 19 16
def State.shMissMax (s : State) (c : Nat) : Nat := s.field (Reg.chnShCfg c) 27 20

/-- The 32 bytes of a shaft message (R325). -/
def ShaftMsg.bytes (m : ShaftMsg) (c ticks : Nat) : Bytes :=
  leBytes 1 c ++ leBytes 1 m.hops ++ leBytes 1 m.origin ++ [0] ++ wordBytes m.period ++ leBytes 2 ticks ++ zeros 6
    ++ sleBytes 8 m.pos ++ sleBytes 8 m.vel

/-- A message read from its body, complete `ticks` after its own boundary. -/
def shaftMsgOf (b : Bytes) (ticks : Nat) : ShaftMsg :=
  { period := Bytes.word b 4, hops := Bytes.num b 1 1, origin := Bytes.num b 2 1 % 16, pos := Bytes.sint b 16 8,
    vel := Bytes.sint b 24 8, ticks := ticks }

/-- Keep a usable message; the first of two for the same period stays (R326). -/
def shaftKeep (c : Nat) (m : ShaftMsg) (s : State) : State :=
  if (s.shaft c).held.any fun x => decide (x.period = m.period) then s
  else
    let s := s.onShaft c fun x => { x with held := x.held ++ [m] }
    let s := s.setField (Reg.chnShArrival c) 15 0 (min m.ticks 0xFFFF)
    if bit (s.reg (Reg.chnShState c)) 1 then
      (s.lower (Reg.chnShState c) 2#32).onShaft c fun x => { x with misses := 0 }
    else s

/-- A shaft message on one chain port (R326): the origin of the channel discards it, whoever sent it, but for the partner of
a pair, which stands on side A's downstream and side B's upstream port (R386, R406; that `HOPS` 0 is such a message too is
DEDUCED, log 40: the Active sends 0). -/
def shaftReceive (upstream : Bool) (ticks : Nat) (b : Bytes) (s : State) : State :=
  let c := Bytes.num b 0 1 % 4
  let m := shaftMsgOf b ticks
  let fromPartner := s.paired && (upstream == s.sideB) && decide (m.hops ≤ 1)
  if s.shOn c && s.shOrigin c && !fromPartner then s.event Reg.chnStat 10
  else
    let s := if m.hops = 255 then s
      else chainSend (!upstream) 1 (({ m with hops := m.hops + 1 } : ShaftMsg).bytes c (Bytes.num b 8 2)) s
    if Bytes.num b 8 2 ≠ s.field Reg.tmuPeriod 15 0 then s.event Reg.chnStat 9
    else if s.shOn c then shaftKeep c m s else s

/-- CHAIN_MESSAGE_RECEIVE (R326, R384, R512): a message arrives on a chain port, complete `ticks` of 40 ns
after its own boundary. A bad check discards it. -/
def execChainMessageReceive (upstream : Bool) (ticks : Nat) (msg : Bytes) (s : State) :
    Host.Outcome State Fault Refusal :=
  let n := Bytes.num msg 1 1
  let body := (msg.drop 2).take n
  let good := decide (msg.length = n + 6 ∧ Bytes.num msg (n + 2) 4 = crc32 (msg.take (n + 2)))
  done (
    if !s.answers 0x12 0 || !good then s
    else if Bytes.num msg 0 1 = 1 ∧ n = 32 then shaftReceive upstream ticks body s
    else if Bytes.num msg 0 1 = 2 then chainTrigger upstream body s
    else s)

/-- CHAIN_PORT_LINK_EVT (R333, R384): a chain port trains or goes down. -/
def execChainPortLinkEvt (upstream up : Bool) (s : State) : Host.Outcome State Fault Refusal :=
  let n := if upstream then 0 else 1
  done (
    if !s.answers 0x12 0 || bit (s.reg Reg.chnLink) n == up then s
    else (s.setReg Reg.chnLink (setBit (s.reg Reg.chnLink) n up)).event Reg.chnStat 0)

/-- Source record of a channel's origin: position and velocity as current (R325). -/
def State.shaftSource (s : State) (c : Nat) : Int × Int :=
  let cfg := s.reg (Reg.chnShCfg c)
  let src := bits cfg 10 4
  match bits cfg 3 2 with
  | 0 => (s.exch64 src 4, s.exch64 src 6)
  | 1 => (s.exch64 src 0, s.exch64 src 2)
  | _ => (s.exch64 (128 + src) 0, s.exch64 (128 + src) 2)

/-- The origin of a channel sends its message of period `k` on both ports, and keeps it (R325, R406). -/
def shaftSend (k : Nat) (s : State) (c : Nat) : State :=
  if s.shOn c && s.shOrigin c && s.leads then
    let x := s.shaftSource c
    let m : ShaftMsg := { period := w32 k, origin := s.dev, pos := x.1, vel := x.2 }
    let b := m.bytes c (s.field Reg.tmuPeriod 15 0)
    let s := chainSend false 1 b (chainSend true 1 b s)
    s.onShaft c fun y => { y with held := y.held ++ [m] }
  else s

/-- Write words 4 to 7 of a channel's record, both copies. -/
def shaftPut (c : Nat) (s : State) : State :=
  let x := s.shaft c
  let ws := [lo64 (BitVec.ofInt 64 x.pos), hi64 (BitVec.ofInt 64 x.pos), lo64 (BitVec.ofInt 64 x.vel), hi64 (BitVec.ofInt 64 x.vel)]
  let o := 8 * (136 + c) + 4
  { s with exchange := Map.setRun (fun _ => 0) s.exchange o ws, exchNext := Map.setRun (fun _ => 0) s.exchNext o ws }

/-- A channel that has missed `MISS_MAX` deposits is lost: V is 0 and P is held, and its followers fault
(R327). -/
def shaftLose (c : Nat) (s : State) : State :=
  if s.shOn c && decide (0 < s.shMissMax c ∧ s.shMissMax c ≤ (s.shaft c).misses) && !bit (s.reg (Reg.chnShState c)) 1 then
    let s := (s.raise (Reg.chnShState c) 2#32).event Reg.chnStat (5 + c)
    let s := shaftPut c (s.onShaft c fun x => { x with vel := 0 })
    s.slots.foldl (fun s n =>
      let g := (s.axis n).gear
      if g.kind ≠ 0 ∧ g.master = 0x200 + c then s.cause n ST.link else s) s
  else s

/-- SHAFT_CHANNEL_LOST (R327). -/
def execShaftChannelLost (c : Nat) (s : State) : Host.Outcome State Fault Refusal := done (if c < 4 then shaftLose c s else s)

/-- The deposit of a channel at boundary `k` (R327). -/
def shaftDeposit (k : Nat) (s : State) (c : Nat) : State :=
  if !s.shOn c then s
  else
    let age := s.shAge c
    let x := s.shaft c
    let margin := if s.paired then 500 else 40
    let want := w32 (k - age)
    let usable (m : ShaftMsg) : Bool := decide (m.period = want ∧ m.ticks * 40 + margin ≤ age * s.tBase)
      && (!s.inStep || Config.partnerHolds c want)
    let keep := x.held.filter fun m => decide (0 < seqDiff m.period want)
    match x.held.find? usable with
    | some m =>
      let s := s.setShaft c { held := keep, pos := m.pos, vel := m.vel, misses := 0 }
      let st := setBits (setBits (setBit (s.reg (Reg.chnShState c)) 0 true) 9 2 m.hops) 13 10 m.origin
      shaftPut c (s.setReg (Reg.chnShState c) st)
    | none =>
      let lost := bit (s.reg (Reg.chnShState c)) 1
      let kb := rndDiv (s.tBase * 2 ^ 44 : Nat) (10 ^ 9)
      let s := s.setShaft c { x with
        held := keep, misses := x.misses + 1
        pos := if lost then x.pos else wrap64 (x.pos + rnd (x.vel * kb) 52), vel := if lost then 0 else x.vel }
      let s := (s.countUp (Reg.chnShMisses c) 15 0 1).event Reg.chnStat (1 + c)
      let before := x.pos
      let s := s.lower (Reg.chnShState c) 1#32
      if !lost && decide (0 < s.shMissMax c ∧ s.shMissMax c ≤ x.misses + 1) then
        shaftLose c (s.onShaft c fun y => { y with pos := before })
      else shaftPut c s

/-- What a device of a pair holds for boundary `k`, half a microsecond before it: bit c for channel c (R406). -/
def State.holdings (s : State) (k : Nat) : Nat :=
  ((List.range 4).map fun c => b2n (s.shOn c && (s.shaft c).held.any fun m =>
    decide (m.period = w32 (k - s.shAge c) ∧ m.ticks * 40 + 500 ≤ s.shAge c * s.tBase)) * 2 ^ c).sum

/-- The chain ports at boundary `k`: messages are sent, and deposits made, of which a device of a pair has reported what
it holds (R406). -/
def shaftBoundary (k : Nat) (s : State) : State :=
  if !s.answers 0x12 0 then s
  else
    let s := if s.paired then pairSend 1 21 [k, s.holdings k] s else s
    (List.range 4).foldl (shaftDeposit k) ((List.range 4).foldl (shaftSend k) s)

/-- Apply `SHAFT_CONFIG` (R325). -/
def shaftConfig (c : Nat) (cfg : Word) (s : State) : State :=
  ((s.setReg (Reg.chnShCfg c) cfg).setReg (Reg.chnShState c) 0).setShaft c {}

end Sys2Proof.Machine
end

