-- ==== Sys2Proof/Machine/Timetable.lean ====
section
/-!
DEFINITION. Stop records and the building of tables (chapter 06, R154, R155, R169 to R171).
-/
namespace Sys2Proof.Machine

/-! ### Ring ports (R359, R360) -/

def RingPort.topo (p : RingPort) : Nat := bits p.cfg 3 2
def RingPort.partner (p : RingPort) : Nat := bits p.cfg 6 4
/-- The port that names the ring of a port: its west end, or this device's own end of a `PAIR` ring. -/
def State.westOf (s : State) (p : Nat) : Nat := if (s.port p).topo = 2 then (s.port p).partner else p

/-! ### Stop records (R155) -/

def stopOf (p : Bytes) : StopRec :=
  { kernel := Bytes.num p 0 2, slot := Bytes.num p 2 1, flags := Bytes.num p 3 1, param := Bytes.num p 4 2,
    pred := Bytes.num p 6 2, earliest := Bytes.num p 8 2, deadline := Bytes.num p 10 2, input := Bytes.num p 12 1 }

/-- The 16 bytes of a record as read. -/
def StopRec.bytes (r : StopRec) : Bytes :=
  leBytes 2 r.kernel ++ leBytes 1 r.slot ++ leBytes 1 r.flags ++ leBytes 2 r.param ++ leBytes 2 r.pred
    ++ leBytes 2 r.earliest ++ leBytes 2 r.deadline ++ leBytes 1 r.input ++ leBytes 1 (b2n r.accov) ++ leBytes 2 r.drops

def StopRec.mode (r : StopRec) : Nat := r.flags % 4
def StopRec.urgent (r : StopRec) : Bool := r.flags.testBit 2
def StopRec.seals (r : StopRec) : Bool := r.flags.testBit 3
def StopRec.noSlot (r : StopRec) : Bool := decide (r.slot = 0xFF)

/-- The stop is due in period `k` (R150, R155). -/
def State.stopDue (s : State) (r : StopRec) (k : Nat) : Bool := r.noSlot || s.dueIn r.slot k

/-- The sealing offset S in ns (R156). -/
def State.sealNs (s : State) : Nat := s.tBase - s.guard

/-! ### Build errors (R169) -/

/-- Parameter-block bytes that a kernel uses, for build error 3. -/
def State.blockLen (s : State) (le : Nat) (r : StopRec) : Nat :=
  match romKernel r.kernel with
  | some q => q.2.1
  | none => match s.hdrOf le r with
    | some h => Bytes.num (s.kmem le h 32) 10 2
    | none => 0

/-- The kernel is one that the stop may name. -/
def State.kernelFits (s : State) (le : Nat) (r : StopRec) : Bool :=
  match romKernel r.kernel with
  | some q =>
    (!r.noSlot || decide (r.kernel = 0x70 ∨ r.kernel = 0x71)) && (!r.urgent || q.2.2.2)
  | none => match s.kernelHdr le r.kernel with
    | some h => s.kernelOk le r.kernel h r.urgent r.seals
    | none => false

/-- The input source is one that the stop may name. -/
def State.inputFits (s : State) (r : StopRec) : Bool :=
  let i := r.input
  if i = 0 then true
  else if i ≤ 8 then !r.noSlot && s.ringThere (i - 1) && !s.closedE (i - 1)
  else if i = 9 then !r.noSlot
  else if 0x20 ≤ i ∧ i ≤ 0x3F then r.urgent && s.cap 8
  else if 0x40 ≤ i ∧ i ≤ 0x47 then r.urgent && !r.noSlot && s.ringThere (i - 0x40)
  else false

/-- Worst-case ready offset of an input in ns (R169). -/
def State.readyAt (s : State) (r : StopRec) : Int :=
  if 1 ≤ r.input ∧ r.input ≤ 8 then (s.field (Reg.vlkBudget (r.input - 1)) 15 0 * 40 : Nat)
  else if r.input = 9 then s.readyBound r.slot
  else 0

/-- Every period in which `r` is due has `p` due too. -/
def State.dueWith (s : State) (r p : StopRec) : Bool :=
  (List.range 8).all fun k => !s.stopDue r k || s.stopDue p k

/-- The first error of entry `i` of a table, 0 for none. -/
def State.entryError (s : State) (le : Nat) (tab : Map StopRec) (i : Nat) (r : StopRec) : Nat :=
  let slotOk := if r.noSlot then !r.seals && decide (r.mode = 1)
    else decide (r.slot < s.part.slots) && decide (s.axisType r.slot ≠ 0) && decide (s.slotLe r.slot = le)
  if !s.kernelFits le r then 1
  else if !slotOk then 2
  else if 0x20000 < r.param * 64 + s.blockLen le r then 3
  else if r.pred ≠ 0xFFFF ∧ (i ≤ r.pred || (match Map.find? tab r.pred with
      | some p => decide (p.mode = 0) || p.urgent || !s.dueWith r p
      | none => true)) then 4
  else if r.deadline ≤ r.earliest ∨ s.sealNs < r.deadline * 40 then 5
  else if (r.earliest * 40 : Nat) < s.readyAt r then 6
  else if !s.inputFits r then 7
  else 0

/-! ### The capacity check (R170) -/

/-- wcet + 8 of the urgent stops due in phase `p` whose window overlaps [a, b). -/
def State.interference (s : State) (le : Nat) (urg : List StopRec) (p a b : Nat) : Nat :=
  ((urg.filter fun u => s.stopDue u p && decide (u.earliest * 32 < b ∧ a < u.deadline * 32)).map
    fun u => s.wcet le u + 8).sum

/-- The end of a stop that starts at `start`, with the urgent stops that may preempt it. -/
def State.settleFin (s : State) (le : Nat) (urg : List StopRec) (p start w : Nat) : Nat → Nat → Nat
  | 0, fin => fin
  | n + 1, fin =>
    let f := start + w + s.interference le urg p start fin
    if f = fin then fin else s.settleFin le urg p start w n f

/-- One phase of the worst-case schedule: the end of the last stop, or the stop that misses its deadline. -/
def State.phase (s : State) (le : Nat) (urg : List StopRec) (p : Nat) : List (Nat × StopRec) → Map Nat → Nat → Nat ⊕ Nat
  | [], _, t => .inl t
  | (i, r) :: rest, dn, t =>
    if r.urgent || !s.stopDue r p then s.phase le urg p rest ((i, t) :: dn) t
    else
      let w := s.wcet le r
      let start := max t (max (r.earliest * 32) (if r.pred = 0xFFFF then 0 else (Map.find? dn r.pred).getD 0))
      let fin := s.settleFin le urg p start w (urg.length + 1) (start + w)
      if r.deadline * 32 < fin then .inr i
      else s.phase le urg p rest ((i, fin) :: dn) fin

/-- The capacity check: `SPARE`, or the failing stop and its code. -/
def State.capacity (s : State) (le : Nat) (ents : List (Nat × StopRec)) : Nat ⊕ (Nat × Nat) :=
  let urg := (ents.filter fun e => e.2.urgent).map Prod.snd
  let seal_ := s.sealNs * 4 / 5
  let bg := s.field (Reg.ttbCfg le) 7 0 * 32
  let r := (List.range 8).foldl (fun (acc : Nat ⊕ (Nat × Nat)) p =>
    match acc with
    | .inr e => .inr e
    | .inl spare =>
      match s.phase le urg p ents [] 0 with
      | .inr i => .inr (i, 9)
      | .inl t => if seal_ < t + bg then .inr (0x1FF, 10) else .inl (min spare (seal_ - (t + bg)))) (.inl seal_)
  match r with
  | .inr e => .inr e
  | .inl spare =>
    let bad := ents.find? fun e =>
      e.2.urgent && (
        let blk := ((ents.filter fun v => v.2.urgent && decide (v.1 ≠ e.1)
          && (List.range 8).any (fun p => s.stopDue e.2 p && s.stopDue v.2 p)).map fun v => s.wcet le v.2 + 8).sum
        decide (e.2.deadline * 32 < e.2.earliest * 32 + blk + s.wcet le e.2 + 8))
    match bad with
    | some e => .inr (e.1, 11)
    | none => .inl (spare / 32)

/-- The non-empty entries of a table by index. DESIGN CHOICE (log 54): an EMPTY entry has no other content, so that
`TT_READ` of one reads zeros whatever the shadow table held there. -/
def tableOf (m : Map StopRec) (le : Nat) : Map StopRec :=
  m.filterMap fun e => if e.1 / 512 = le ∧ e.2.mode ≠ 0 then some (e.1 % 512, e.2) else none

/-- Two `SEAL` stops of one slot: the second. -/
def sealTwice : Map StopRec → List Nat → Option Nat
  | [], _ => none
  | (i, r) :: rest, seen =>
    if r.seals then (if r.slot ∈ seen then some i else sealTwice rest (r.slot :: seen)) else sealTwice rest seen

/-- A result of the check of one engine: `SPARE`, or stop, code and detail. -/
def State.buildCheck (s : State) (le : Nat) : Nat ⊕ (Nat × Nat × Nat) :=
  let tab := tableOf s.shadow le
  match List.find? (fun e => decide (s.entryError le tab e.1 e.2 ≠ 0)) tab with
  | some e => .inr (e.1, s.entryError le tab e.1 e.2, 0)
  | none =>
    let urg := tab.filter fun e => e.2.urgent
    if 8 < urg.length then .inr (((urg.drop 8).headD (0, {})).1, 8, 0)
    else match sealTwice tab [] with
      | some i => .inr (i, 13, 0)
      | none =>
        match s.slots.find? fun a => s.axOn a && decide (s.slotLe a = le) && !(tab.any fun e => e.2.seals && decide (e.2.slot = a)) with
        | some a => .inr (0x1FF, 12, a)
        | none =>
          match s.capacity le tab with
          | .inl n => .inl n
          | .inr e => .inr (e.1, e.2, le)

/-- Command status of a build error (R169). -/
def buildStatus (code : Nat) : Nat :=
  if code = 9 ∨ code = 10 ∨ code = 11 then ST.capacity else if code = 12 then ST.inUse else ST.badFormat

/-- A result of the check of an engine stands in `BUILD_ERR`; a build that failed is an event of every engine
that it included (R172). -/
def showBuild (failed : Bool) (le : Nat) (r : Nat ⊕ (Nat × Nat × Nat)) (s : State) : State :=
  let s := match r with
    | .inl _ => s.setReg (Reg.ttbBuildErr le) 0x1FF
    | .inr e => s.setReg (Reg.ttbBuildErr le) (w32 (e.1 % 512 + 4096 * e.2.1))
  if failed then s.event (Reg.ttbStat le) 4 else s

/-! ### A build takes hold (R164, R171) -/

/-- Entries of a table are replaced. -/
def setTable (m : Map StopRec) (le : Nat) (tab : Map StopRec) : Map StopRec :=
  tab.foldl (fun m e => Map.set (fun _ => {}) m (le * 512 + e.1) e.2) (m.filter fun e => decide (e.1 / 512 ≠ le))

/-- The table of one engine is unbuilt (R149). -/
def unbuild (le : Nat) (s : State) : State :=
  let s := s.lower (Reg.ttbState le) 3#32
  (s.setReg (Reg.ttbState le) (setBit (s.reg (Reg.ttbState le)) 2 true)).setReg (Reg.ttbSpare le) 0

/-- A table that passed its check becomes an engine's active table, with `SPARE` as checked. -/
def takeBuild (le spare : Nat) (table : Map StopRec) (s : State) : State :=
  let tab := table.map fun e => (e.1, { e.2 with accov := false, drops := 0 })
  let s := { s with active := setTable s.active le tab }
  let s := s.onEng le fun e => { e with index := 0, now := 0, dropped := [], completed := [], fired := [], waiting := [], inputs := [], ended := false, bg := none, bgUsed := 0 }
  let s := s.setField (Reg.leLastKernel le) 24 16 0x1FF
  let st := setBits (setBit (setBit (s.reg (Reg.ttbState le)) 0 true) 1 s.running) 25 16 tab.length
  let st := setBit st 2 (!s.running || tab.isEmpty)
  let s := ((s.setReg (Reg.ttbState le) st).setReg (Reg.ttbSpare le) (w32 spare)).event (Reg.ttbStat le) 0
  -- the axis flag goes with the flags of its stops (DEDUCED, log 44)
  (List.range s.part.slots).foldl (fun s n => if s.slotLe n = le then s.onAxis n fun a => { a with accov := false } else s) s

/-- Engines of the part. -/
def State.engines? (s : State) : List Nat := (List.range s.part.engines).filter fun n => s.capX n

end Sys2Proof.Machine
end

