-- ==== Sys2Proof/Machine/Image.lean ====
section
/-!
DEFINITION. The state word of a slot (R61) and slot images for adoption by the partner of a pair (R401,
R402).
-/
namespace Sys2Proof.Machine

/-- Axis states as `AXS` `STATE` [2:0] numbers them (R61). -/
def AxState.code : AxState → Nat
  | .disabled => 0
  | .ready => 1
  | .enabled => 2
  | .moving => 3
  | .stopping => 4
  | .fault => 5

/-- `AXS` `STATE` of a slot as its sealing writes it (R61). -/
def State.axsState (s : State) (slot : Nat) : Word :=
  let a := s.axis slot
  let lim := bit (s.axWord slot 0xCC) 1
  let mis := bit (s.axWord slot 0x98) 5
  w32 (a.state.code + 8 * b2n a.uncertain + 16 * b2n lim + 32 * b2n a.accov + 64 * b2n mis + 128 * b2n a.homed
    + 256 * b2n a.dropped + 65536 * a.fault)

/-- The stops of a slot's active table that have the slot, in index order. -/
def State.stopsOf (s : State) (slot : Nat) : List (Nat × StopRec) :=
  (tableOf s.active (s.slotLe slot)).filter fun e => decide (e.2.slot = slot ∧ e.2.mode ≠ 0)

/-- State length L of a stop's kernel (R402). -/
def State.stateLen (s : State) (le : Nat) (r : StopRec) : Nat :=
  match r.kernel with
  | 0x34 | 0x50 => 8
  | 0x32 | 0x33 | 0x60 => 16
  | 0x02 | 0x22 | 0x43 => 32
  | 0x31 => 40
  | 0x20 | 0x21 => 64
  | _ => match romKernel r.kernel with
    | some _ => 0
    | none => match s.hdrOf le r with
      | some h => Bytes.num (s.kmem le h 32) 10 2
      | none => 0

/-- Which words of a parameter block hold a ROM kernel's state, with their lengths in bytes: the spec
gives only the whole length (DESIGN CHOICE, log 39). -/
def stateWords : Nat → List (Nat × Nat)
  | 0x34 => [(2, 8)]
  | 0x50 => [(3, 8)]
  | 0x32 | 0x33 => [(1, 8), (2, 8)]
  | 0x02 => [(30, 4)]
  | 0x43 => [(20, 8), (21, 8), (22, 4), (23, 4), (24, 4)]
  | 0x31 => [(0, 8), (10, 4), (11, 4), (12, 4), (13, 4), (14, 4), (15, 4), (16, 4), (17, 4)]
  | _ => []

/-- The bytes of a stop's kernel state. -/
def State.stateBytes (s : State) (le : Nat) (r : StopRec) : Bytes :=
  let n := s.stateLen le r
  let g := (s.axis r.slot).gear
  let body := match r.kernel with
    | 0x20 | 0x21 => sleBytes 8 g.gPrev ++ sleBytes 8 g.gRem ++ sleBytes 8 g.vgPrev ++ leBytes 4 (b2n g.fresh + 2 * b2n g.relead)
        ++ zeros 4 ++ sleBytes 8 (s.axis r.slot).ofs.pos ++ sleBytes 8 (s.axis r.slot).ofs.tgt
    | 0x22 => sleBytes 8 g.ph ++ sleBytes 8 g.cyc ++ sleBytes 8 g.gPrev ++ leBytes 4 (b2n g.fresh + 2 * b2n g.relead)
    | 0x60 => let x := (s.axis r.slot).reg
      sleBytes 8 x.x1 ++ leBytes 4 (b2n x.have1 + 2 * (x.applied % 2 ^ 15) + 65536 * x.rejected) ++ sleBytes 4 x.err
    | k => if (romKernel k).isSome then
        (stateWords k).flatMap fun e => sleBytes e.2 (Map.get (fun _ => 0) (s.blk (le * 2048 + r.param)).words e.1)
      else s.leRun le (r.param * 64) n
  padTo n body

/-- Read consecutive signed words. -/
def readWords : List (Nat × Nat) → Bytes → List (Nat × Int)
  | [], _ => []
  | (k, n) :: r, b => (k, Bytes.sint b 0 n) :: readWords r (b.drop n)

/-- Install a stop's kernel state. -/
def putState (le : Nat) (r : StopRec) (b : Bytes) (s : State) : State :=
  match r.kernel with
  | 0x20 | 0x21 => s.onAxis r.slot fun a =>
      { a with
        gear := { a.gear with
          gPrev := Bytes.sint b 0 8, gRem := Bytes.sint b 8 8, vgPrev := Bytes.sint b 16 8,
          fresh := (Bytes.num b 24 4).testBit 0, relead := (Bytes.num b 24 4).testBit 1 }
        ofs := { pos := Bytes.sint b 32 8, tgt := Bytes.sint b 40 8 } }
  | 0x22 => s.onAxis r.slot fun a =>
      { a with gear := { a.gear with
          ph := Bytes.sint b 0 8, cyc := Bytes.sint b 8 8, gPrev := Bytes.sint b 16 8,
          fresh := (Bytes.num b 24 4).testBit 0, relead := (Bytes.num b 24 4).testBit 1 } }
  | 0x60 => s.onAxis r.slot fun a =>
      { a with reg := { a.reg with
          x1 := Bytes.sint b 0 8, have1 := (Bytes.num b 8 4).testBit 0, err := Bytes.sint b 12 4
          applied := (a.reg.applied + (Bytes.num b 8 2 / 2 + 2 ^ 15 - a.reg.applied % 2 ^ 15) % 2 ^ 15) % 65536
          rejected := Bytes.num b 10 2 } }
  | k =>
    if (romKernel k).isSome then
      (readWords (stateWords k) b).foldl (fun s e =>
        s.onBlk (le * 2048 + r.param) fun x => { x with words := Map.set (fun _ => 0) x.words e.1 e.2 }) s
    else s.setLe le (r.param * 64) b

/-- The image of a slot (R402). The widths of the header's three fields are the model's (log 39): u16 slot,
u32 period, u16 length. -/
def State.imageOf (s : State) (slot : Nat) : Bytes :=
  let le := s.slotLe slot
  let body := s.leRun le (axbAt slot 0) 0xD8
    ++ (s.stopsOf slot).flatMap (fun e => s.stateBytes le e.2)
    ++ (List.range 8).flatMap (fun i => wordBytes (Map.get (fun _ => 0) s.exchNext (8 * slot + i)))
    ++ ((List.range 4).flatMap fun i => wordBytes ((s.axis slot).out.getD i 0))
    ++ wordBytes (s.axsState slot)
  leBytes 2 slot ++ leBytes 4 s.tmu.period ++ leBytes 2 (body.length + 8) ++ body

/-- The output words and the `STATE` word of an image. -/
def imageOut (b : Bytes) : List Word := bytesWords ((b.drop (b.length - 20)).take 16)
def imageState (b : Bytes) : Word := Bytes.word b (b.length - 4)

/-- Install the states of a slot's stops from consecutive bytes. -/
def putStates (le : Nat) : List (Nat × StopRec) → Bytes → State → State
  | [], _, s => s
  | e :: r, b, s =>
    let n := s.stateLen le e.2
    putStates le r (b.drop n) (putState le e.2 (b.take n) s)

/-- The stop runs in period `k`, so far as the axis goes (R157 step 1). -/
def State.runsIn (s : State) (r : StopRec) (k : Nat) : Bool :=
  decide (r.mode ≠ 0) && s.stopDue r k && (r.noSlot || decide (r.mode = 1) || s.axOn r.slot)

/-- A stop that did not complete here but did on the partner: its bookkeeping of queue, plan and registration follows from
state that both devices hold, and is done here (R402; DESIGN CHOICE, log 39). -/
def missedRun (le k : Nat) (s : State) (x : Nat × StopRec) : State :=
  let e := s.eng le
  let c : Call := ⟨le, x.2.slot, x.2.param, k, Map.get (fun _ => []) e.inputs x.1, x.2.urgent⟩
  if x.1 ∈ e.completed || !s.runsIn x.2 k then s
  else match x.2.kernel with
    | 0x20 | 0x22 => (profile c s).2
    | 0x21 => (pathKernel c s).2
    | 0x60 => if x.1 ∈ e.fired then (regLatch c s).1.regs.foldl putReg s else s
    | _ => s

/-- Install an image (R401) of the period before the present one: state block, kernel states and the next exchange record. -/
def installImage (s : State) (b : Bytes) : State :=
  let slot := Bytes.num b 0 2
  let le := s.slotLe slot
  let s := (s.stopsOf slot).foldl (missedRun le (s.tmu.period - 1)) s
  let s := s.setLe le (axbAt slot 0) ((b.drop 8).take 0xD8)
  let mid := (b.drop (8 + 0xD8)).take (b.length - (8 + 0xD8 + 52))
  let s := putStates le (s.stopsOf slot) mid s
  let rec_ := bytesWords ((b.drop (b.length - 52)).take 32)
  let s := if bit (imageState b) 5 then s.onAxis slot fun a => { a with accov := true } else s
  { s with exchNext := Map.setRun (fun _ => 0) s.exchNext (8 * slot) rec_ }

/-- Every stop of the slot that runs in this period has completed, none dropped; an urgent one runs once its trigger has
fired (R401). -/
def State.slotDone (s : State) (slot : Nat) : Bool :=
  let e := s.eng (s.slotLe slot)
  !(s.axis slot).dropped
    && (s.stopsOf slot).all fun x => !s.runsIn x.2 s.tmu.period || (x.2.urgent && decide (x.1 ∉ e.fired))
      || decide (x.1 ∈ e.completed)

/-- Send a slot's image to the partner. -/
def sendImage (slot : Nat) (s : State) : State :=
  pairSend 1 6 ((s.imageOf slot).map BitVec.toNat) (s.onPair fun p => { p with requests := without slot p.requests })

/-- Answer the requests whose slot has completed (R401). -/
def answerRequests (s : State) : State :=
  s.pair.requests.foldl (fun s slot => if s.slotDone slot then sendImage slot s else s) s

end Sys2Proof.Machine
end

