-- ==== Sys2Proof/Machine/Sequencer.lean ====
section
/-!
DEFINITION. The sequencer of a loop engine in a period: visits, starts, commits, drops and urgent stops
(R157 to R167, R174 to R178, R186).
-/
namespace Sys2Proof.Machine

/-! ### Kernels -/

/-- The bank in which a stop runs: the shadow bank for an urgent stop (R175). -/
def State.bank (s : State) (le : Nat) (urgent : Bool) : Bank := if urgent then (s.eng le).shadowBank else (s.eng le).mainBank
def onBank (le : Nat) (urgent : Bool) (f : Bank → Bank) (s : State) : State :=
  s.onEng le fun e => if urgent then { e with shadowBank := f e.shadowBank } else { e with mainBank := f e.mainBank }

/-- The dispatch of a stop clears its bank and sets the presets (R175). -/
def dispatchBank (le : Nat) (r : StopRec) (input : List Word) (s : State) : State :=
  onBank le r.urgent (fun _ => Bank.dispatch r.slot s.tmu.period r.param input) s

/-- The bundles of a custom kernel run in its bank. -/
def runCustom (le : Nat) (r : StopRec) (s : State) : State :=
  match s.hdrOf le r with
  | some h =>
    onBank le r.urgent
      (runBundles (fun a => s.leWord le a) (fun i => Map.get (fun _ => 0) s.exchange i) (s.kernelBody le h)) s
  | none => s

/-- The bank after a ROM kernel: `OUT`, `PUB` and the store buffer as the kernel wrote them. Its bundles are not stated, so
its data registers, accumulators and address generators are free (DESIGN CHOICE, log 6); no dispatch keeps them. -/
def leaveBank (le : Nat) (urgent : Bool) (c : Commit) (s : State) : State :=
  let d := s.draw
  onBank le urgent (fun k => { k with
    d := (List.range 32).map (Config.bankWord d.1), acc := (List.range 4).map (Config.bankAcc d.1)
    ag := (List.range 16).map (Config.bankAg d.1), out := c.out ++ k.out.drop c.out.length
    pub := c.pub ++ k.pub.drop c.pub.length, stores := c.stores.reverse, accov := c.accov }) d.2

/-- Run-to-run words of the parameter block of a ROM kernel's stop after its run, by number: those of `State.kw`, 40 to 47
the gearing words and the offset component of a set-point stop (R305, R311), 50 to 54 those of `REG_LATCH` (R323). -/
def State.blockWords (s : State) (c : Call) (kernel : Nat) : List (Nat × Int) :=
  let a := s.axis c.slot
  match kernel with
  | 0x31 => [0, 10, 11, 12, 13, 14, 15, 16, 17].map fun i => (i, s.kw c i)
  | 0x32 | 0x33 => [1, 2].map fun i => (i, s.kw c i)
  | 0x34 => [(2, s.kw c 2)]
  | 0x43 => [20, 21, 22, 23, 24].map fun i => (i, s.kw c i)
  | 0x50 => [(3, s.kw c 3)]
  | 0x20 | 0x22 =>
    [(40, a.gear.gPrev), (41, a.gear.gRem), (42, a.gear.vgPrev), (43, a.gear.ph), (44, a.gear.cyc), (45, a.gear.base),
     (46, a.ofs.tgt), (47, a.ofs.pos)]
  | _ => []

/-- Double words as stores into the block of a ROM kernel; the spec gives no layout (DESIGN CHOICE, log 28). -/
def blockStores (kernel param : Nat) (ws : List (Nat × Int)) : List (Nat × Word) :=
  match romKernel kernel with
  | some q => ws.flatMap fun e =>
    let a := (param * 64 + 8 * (Config.blockAt kernel e.1 % (q.2.1 / 8))) % 2 ^ 17
    [(a, lo64 (BitVec.ofInt 64 e.2)), (a + 4, hi64 (BitVec.ofInt 64 e.2))]
  | none => []

/-- The set-point stop of a slot: its kernel and its parameter block. -/
def State.setpointStop (s : State) (slot : Nat) : Option StopRec :=
  ((s.stopsOf slot).find? fun e => decide (e.2.kernel = 0x20 ∨ e.2.kernel = 0x22)).map Prod.snd

/-- The stores of what a run of `REG_LATCH` writes: its own words, and `OFS_TGT` of the set-point stop (R311, R323). -/
def State.regStores (s : State) (r : StopRec) (w : RegWrite) : List (Nat × Word) :=
  blockStores r.kernel r.param [(50, w.x1), (51, b2n w.have1), (52, w.err), (53, w.applied), (54, w.rejected)]
    ++ (match s.setpointStop w.slot with
        | some p => blockStores p.kernel p.param [(46, w.tgt)]
        | none => [])

/-- The run of a stop's kernel: what it commits, and the state of the firmware's own records after it. -/
def runKernel (c : Call) (kernel : Nat) (s : State) : Commit × State :=
  match kernel with
  | 0x0001 => fbDigital c s
  | 0x0002 => fbSincos c s
  | 0x0010 => observer c s
  | 0x0020 => profile c s
  | 0x0021 => pathKernel c s
  | 0x0022 => profile c s
  | 0x0030 => posLoop c s
  | 0x0031 => velLoop c s
  | 0x0032 => cur3ph c s
  | 0x0033 => cur2ph c s
  | 0x0034 => curDc c s
  | 0x0040 => mod3ph c s
  | 0x0041 => mod2ph c s
  | 0x0042 => modDc c s
  | 0x0043 => stepGen c s
  | 0x0050 => trimLoop c s
  | 0x0060 => regLatch c s
  | 0x0070 => shaftRx c s
  | 0x0071 => vmaster c s
  | _ => ((s.bank c.le c.urgent).commit, s)

/-- The run of a stop (R174, R176): its kernel in its bank, and what it commits. The block words of a ROM kernel are among
its stores. -/
def runStop (c : Call) (r : StopRec) (s : State) : Commit × State :=
  match romKernel r.kernel with
  | none => runKernel c r.kernel (runCustom c.le r s)
  | some _ =>
    let x := runKernel c r.kernel s
    let k := { x.1 with
      stores := x.1.stores ++ blockStores r.kernel r.param (x.2.blockWords c r.kernel) ++ x.1.regs.flatMap (s.regStores r) }
    (k, leaveBank c.le r.urgent k x.2)

/-! ### Commits (R176, R178) -/

/-- The exchange record that a stop's `PUB` registers go to (R306, R328). -/
def State.pubRecord (s : State) (le : Nat) (r : StopRec) : Option Nat :=
  let w0 := (s.leWord le (r.param * 64)).toNat
  if r.kernel = 0x70 then some (136 + w0 % 4)
  else if r.kernel = 0x71 then some (128 + w0 % 8)
  else if r.noSlot then none else some r.slot

/-- Write `PUB` registers to a record's next copy. -/
def putPub (rec_ : Nat) : List (Option Word) → Nat → Map Word → Map Word
  | [], _, m => m
  | none :: r, i, m => putPub rec_ r (i + 1) m
  | some v :: r, i, m => putPub rec_ r (i + 1) (Map.set (fun _ => 0) m (8 * rec_ + i) v)

/-- Stores to data memory, in issue order. -/
def putStores (le : Nat) (st : List (Nat × Word)) (s : State) : State := st.foldl (fun s e => s.setLeWord le e.1 e.2) s

/-- Everything of a commit but the data-memory write. -/
def commitRest (le i : Nat) (r : StopRec) (c : Commit) (s : State) : State :=
  let s := if r.seals && !r.noSlot then s.onAxis r.slot fun a => { a with out := c.out, fresh := true } else s
  let s := match s.pubRecord le r with
    | some n =>
      let s := { s with exchNext := putPub n c.pub 0 s.exchNext }
      if (c.pub.headD none).isSome then { s with exchAtNext := Map.set (fun _ => 0) s.exchAtNext n s.tmu.period } else s
    | none => s
  if !c.accov then s
  else
    let s := (s.onAct (le * 512 + i) fun x => { x with accov := true }).event (Reg.ttbStat le) 2
    if r.noSlot then s
    else
      let s := s.onAxis r.slot fun a => { a with accov := true }
      if s.pn r.slot 0xE = 1 then s.cause r.slot ST.accov else s

/-- A stop's call. -/
def State.call (s : State) (le i : Nat) (r : StopRec) : Call :=
  ⟨le, r.slot, r.param, s.tmu.period, Map.get (fun _ => []) (s.eng le).inputs i, r.urgent⟩

/-- A stop has completed at offset `fin`. -/
def completed (le i : Nat) (r : StopRec) (start fin : Nat) (s : State) : State :=
  let s := s.onEng le fun e => { e with completed := i :: e.completed, busy := e.busy + (fin - start) }
  let s := s.setReg (Reg.ttbLastDone le) (w32 fin)
  let s := s.setReg (Reg.ttbMaxDone le) (w32 (max fin (s.reg (Reg.ttbMaxDone le)).toNat))
  answerRequests (s.setReg (Reg.leLastKernel le) (setBits (setBits (s.reg (Reg.leLastKernel le)) 15 0 r.kernel) 31 16 i))

/-! ### Drops (R163, R164) -/

/-- A device of a pair in step asks its partner for the slot at its first drop (R401); a slot whose local I/O is on the
partner it has asked for at the boundary (R403). -/
def askImage (slot : Nat) (s : State) : State :=
  if s.inStep && !(s.axis slot).dropped && !s.localThere slot then pairSend 0 5 [slot] s else s

/-- Stop `i` is dropped: 0 input, 1 late, 2 predecessor. -/
def drop (le i reason : Nat) (s : State) : State :=
  let r := s.act (le * 512 + i)
  let s := s.onAct (le * 512 + i) fun x => { x with drops := min 0xFFFF (x.drops + 1) }
  let s := s.onEng le fun e => { e with dropped := i :: e.dropped }
  let s := s.countUp (match reason with | 0 => Reg.ttbDropIn le | 1 => Reg.ttbDropLate le | _ => Reg.ttbDropPred le) 31 0 1
  let s := s.setReg (Reg.ttbLastDrop le) (w32 (i + 512 * reason + s.tmu.period % 65536 * 65536))
  let s := { s.event (Reg.ttbStat le) 1 with droppedStops := s.droppedStops + 1 }
  if r.noSlot then s else (askImage r.slot s).onAxis r.slot fun a => { a with dropped := true }

/-! ### Non-urgent stops (R157) -/

/-- Samples of a slot's channel from a ring port, when its segment is good. -/
def State.ringRecord (s : State) (port slot : Nat) : Option (List Word) :=
  Map.find? (s.port port).good (s.pn slot 6 * 4 + s.pn slot 7)

/-- `IN0` to `IN7` of a stop, or none when its input has not arrived. -/
def State.inputsOf (s : State) (r : StopRec) : Option (List Word) :=
  if r.input = 0 then some (List.replicate 8 0)
  else if r.input ≤ 8 then s.ringRecord (r.input - 1) r.slot
  else if r.input = 9 then
    (if s.localArrived r.slot && !s.localThere r.slot then some (s.localRecord r.slot) else none)
  else none

/-- The stop runs in this period, so far as the axis goes (R157 step 1). -/
def State.stopRuns (s : State) (r : StopRec) : Bool := s.runsIn r s.tmu.period

/-- The table of an engine runs in this period. -/
def State.engineRuns (s : State) (le : Nat) : Bool := s.running && decide (le < s.part.engines) && s.tableActive le

/-- Network time of an offset in cycles after the boundary. -/
def State.cycleNs (s : State) (c : Nat) : Nat := s.tmu.period * s.tBase + c * 5 / 4

/-- The pass over the table is over: the background stop has ended, and the island's clock is gated (R160,
R167, R78). `used` are its cycles. -/
def endTable (le used : Nat) (s : State) : State :=
  (s.onEng le fun e => { e with ended := true, bg := none, bgUsed := used }).raise (Reg.ttbState le) 4#32

/-- Cycles of queued background work. -/
def Engine.work (e : Engine) : Nat := e.bgTele + e.bgJobs

/-- The background stop has run for `used` cycles: the telemetry set first, then the other jobs (DESIGN
CHOICE, log 33). A set that did not finish is taken again, a job that did not resumes (R167, R196). -/
def spendBg (le used : Nat) (s : State) : State :=
  let tele := (s.eng le).bgTele
  let s := s.onEng le fun e => { e with bgTele := if used < tele then tele else 0, bgJobs := e.bgJobs - (used - tele) }
  if used < tele then s.event (Reg.leStat le) 4 else s

/-- The sequencer is past its last entry (R160, R167): without queued background work the clock is gated at
once; else the background stop starts, and at its next visit has run to the end of the work if that lies
before the sealing. -/
def visitBg (le : Nat) (s : State) : State :=
  let e := s.eng le
  match e.bg with
  | none => if e.work = 0 then endTable le 0 s else s.onEng le fun e => { e with bg := some e.now }
  | some b =>
    if s.sealNs * 4 / 5 < b + e.work then s
    else (endTable le e.work (spendBg le e.work s)).onEng le fun x => { x with now := b + e.work }

/-- The sealing ends the background stop (R167). -/
def sealEngine (s : State) (le : Nat) : State :=
  let e := s.eng le
  if !s.engineRuns le || e.ended then s
  else
    let used := match e.bg with
      | some b => min e.work (s.sealNs * 4 / 5 - b)
      | none => 0
    endTable le used (spendBg le used s)

/-- STOP_VISIT (R157): the sequencer takes the next entry of its table. -/
def execStopVisit (le : Nat) (s : State) : Host.Outcome State Fault Refusal :=
  let e := s.eng le
  done (
    if !s.engineRuns le || e.main.isSome || e.urgent.isSome || e.ended then s
    else match List.find? (fun x => !x.2.urgent && decide (e.index ≤ x.1)) (tableOf s.active le) with
      | none => visitBg le s
      | some (i, r) =>
        let next (t : Nat) (s : State) : State := s.onEng le fun e => { e with index := i + 1, now := t }
        if !s.stopRuns r then next (e.now + 1) s
        else
          let t := max e.now (r.earliest * 32)
          let s := s.advanceTo (s.cycleNs t)
          if r.pred ≠ 0xFFFF ∧ r.pred ∈ e.dropped then next (t + 1) (drop le i 2 s)
          else
            let s := if r.input = 9 then fbkExpire (s.fbkCh r.slot) s else s
            match s.inputsOf r with
            | none => next (t + 1) (drop le i 0 s)
            | some inp =>
              if r.deadline * 32 < t + s.wcet le r then next (t + 1) (drop le i 1 s)
              else dispatchBank le r inp (s.onEng le fun e =>
                { e with
                  index := i + 1, now := t, inputs := Map.set (fun _ => []) e.inputs i inp
                  main := some ⟨i, t, t + s.runTime le r⟩ }))

/-- What an urgent stop held for a preempted stop is written after its commit (R186), in `heldTime` cycles. -/
def flushHeld (le : Nat) (s : State) : State :=
  let e := s.eng le
  (e.heldRegs.foldl putReg (putStores le e.heldStores s)).onEng le fun e =>
    { e with heldStores := [], heldRegs := [], heldTime := 0 }

/-! ### Urgent stops (R161 to R163, R186) -/

/-- An urgent stop starts at cycle `t` with the inputs `inp`: it preempts a stop that runs, pauses a
background stop, and ends the gating of the clock (R162, R186). -/
def runUrgent (le i t : Nat) (inp : List Word) (s : State) : State :=
  let e := s.eng le
  let r := s.act (le * 512 + i)
  let preempts := e.main.isSome
  let start := if preempts then t + 2 else t
  let fin := start + s.runTime le r
  let s := s.onEng le fun e =>
    { e with
      urgent := some ⟨i, start, fin⟩, inputs := Map.set (fun _ => []) e.inputs i inp, preempted := preempts
      main := e.main.map fun m => { m with start := m.start + (fin - t), fin := m.fin + (fin - t) }
      bg := e.bg.map fun b => b + (fin - t) }
  let s := (dispatchBank le r inp s).lower (Reg.ttbState le) 4#32
  if preempts then (s.event (Reg.leStat le) 2).countUp (Reg.lePreemptCnt le) 15 0 1 else s

/-- Start an urgent stop at cycle `t`; it is dropped when its worst-case time does not fit (R163). -/
def startUrgent (le i t : Nat) (inp : List Word) (s : State) : State :=
  let r := s.act (le * 512 + i)
  let start := if (s.eng le).main.isSome then t + 2 else t
  if r.deadline * 32 < start + s.wcet le r then drop le i 1 s else runUrgent le i t inp s

/-- The triggers that waited are tried in order, until one starts its stop (R162). -/
def startWaiting (le t : Nat) : List Nat → State → State
  | [], s => s.onEng le fun e => { e with waiting := [] }
  | i :: rest, s =>
    let s := startUrgent le i t (Map.get (fun _ => []) (s.eng le).inputs i) s
    if (s.eng le).urgent.isSome then s.onEng le fun e => { e with waiting := rest } else startWaiting le t rest s

/-- The engine is free for the triggers that waited. -/
def nextUrgent (le t : Nat) (s : State) : State := startWaiting le t (s.eng le).waiting s

/-- STOP_COMPLETE (R176): the commit of the stop in the main bank ends, at or before its deadline. -/
def execStopComplete (le : Nat) (s : State) : Host.Outcome State Fault Refusal :=
  let e := s.eng le
  done (match e.main with
    | some m =>
      let r := s.act (le * 512 + m.stop)
      if !s.engineRuns le || e.preempted || decide (r.deadline * 32 < m.fin) then s
      else
        let x := runStop (s.call le m.stop r) r s
        let s := commitRest le m.stop r x.1 (x.1.regs.foldl putReg (putStores le x.1.stores x.2))
        let free := m.fin + e.heldTime
        let s := flushHeld le s
        let s := (completed le m.stop r m.start m.fin s).onEng le fun e => { e with main := none, now := free }
        nextUrgent le free (s.advanceTo (s.cycleNs free))
    | none => s)

/-- STOP_ABORT (R157, R162): the deadline of the stop in the main bank passes before its commit ends. It is
dropped and leaves no trace. DESIGN CHOICE (log 44): it has no commit, so what urgent stops held for it is written at the
abort, or with the urgent stop that runs then. -/
def execStopAbort (le : Nat) (s : State) : Host.Outcome State Fault Refusal :=
  let e := s.eng le
  done (match e.main with
    | some m =>
      let r := s.act (le * 512 + m.stop)
      if s.engineRuns le && decide (r.deadline * 32 < m.fin) then
        let free := r.deadline * 32 + (if e.urgent.isSome then 0 else e.heldTime)
        let s := drop le m.stop 1 s
        let s := if e.urgent.isSome then s else flushHeld le s
        let ran := (match e.urgent with | some u => u.fin | none => r.deadline * 32) - m.start
        let s := s.onEng le fun e => { e with main := none, preempted := false, now := max e.now free, busy := e.busy + ran }
        let s := s.advanceTo (s.cycleNs free)
        if e.urgent.isSome then s else nextUrgent le free s
      else s
    | none => s)

/-- The trigger of an urgent stop holds now: the inputs that it gives, and the state after it has been taken. A stop whose
input is no trigger never triggers. DESIGN CHOICE (log 44): the return of a port is no trigger for a slot whose segment
failed its check, which R161 leaves open: the stop then neither runs nor is dropped. -/
def urgentInputs (r : StopRec) (s : State) : Option (List Word) × State :=
  let n := r.input - 0x20
  if r.input < 0x20 then (none, s)
  else if 0x40 ≤ r.input then (s.ringRecord (s.westOf (r.input - 0x40)) r.slot, s)
  else if r.kernel = 0x60 then
    match s.regStamp r.slot n (s.tmu.period * s.tBase + r.earliest * 40) with
    | some x => (some (x.words n), s.onLatch n fun l => { l with reg := l.reg.drop 1 })
    | none => (none, s)
  else ((s.latch n).latest.map fun x => x.words n, s)

/-- A trigger at cycle `t` must wait: another urgent stop runs, or a commit is in progress (R162, R186). -/
def State.mustWait (s : State) (le t : Nat) : Bool :=
  let e := s.eng le
  e.urgent.isSome || (match e.main with
    | some m => decide (m.fin ≤ t + s.commitTime le (s.act (le * 512 + m.stop)))
    | none => false)

/-- URGENT_TRIGGER (R161, R162, R322): the trigger of an urgent stop fires. -/
def execUrgentTrigger (le i : Nat) (s : State) : Host.Outcome State Fault Refusal :=
  let r := s.act (le * 512 + i)
  let e := s.eng le
  done (
    if !s.engineRuns le || !r.urgent || !s.stopRuns r then s
    else
      let reg := decide (r.kernel = 0x60 ∧ 0x20 ≤ r.input ∧ r.input < 0x40)
      let now := (s.tmu.ns - s.tmu.period * s.tBase) * 4 / 5
      let t := if reg then r.earliest * 32 else now
      if i ∈ e.fired then (if reg then s else s.event (Reg.ttbStat le) 3)
      else if !reg && decide (t < r.earliest * 32 ∨ r.deadline * 32 ≤ t) then s.event (Reg.ttbStat le) 3
      else
        let x := urgentInputs r s
        match x.1 with
        | none => s
        | some inp =>
          let s := (x.2.advanceTo (s.cycleNs t)).onEng le fun e => { e with fired := i :: e.fired }
          if r.pred ≠ 0xFFFF ∧ r.pred ∉ e.completed then drop le i 2 s
          else if s.mustWait le t then
            s.onEng le fun e => { e with waiting := e.waiting ++ [i], inputs := Map.set (fun _ => []) e.inputs i inp }
          else startUrgent le i t inp s)

/-- URGENT_STOP_COMPLETE (R162, R186): an urgent stop's run ends. Its writes to data memory wait for the commit
of the stop that it preempted; a trigger that waited starts its stop; a pass that was over is gated again. -/
def execUrgentStopComplete (le : Nat) (s : State) : Host.Outcome State Fault Refusal :=
  let e := s.eng le
  done (match e.urgent with
    | some u =>
      if !s.engineRuns le then s
      else
        let r := s.act (le * 512 + u.stop)
        let holds := e.preempted && e.main.isSome
        let x := runStop (s.call le u.stop r) r s
        let s := commitRest le u.stop r x.1 x.2
        let s := s.onEng le fun e =>
          { e with
            heldStores := e.heldStores ++ x.1.stores, heldRegs := e.heldRegs ++ x.1.regs
            heldTime := e.heldTime + (if holds then s.commitTime le r else 0) }
        let free := u.fin + (if holds then 0 else e.heldTime)
        let s := if holds then s else flushHeld le s
        let s := (completed le u.stop r u.start u.fin s).onEng le fun e =>
          { e with urgent := none, preempted := false, now := if e.main.isSome then e.now else max e.now free }
        let s := nextUrgent le free (s.advanceTo (s.cycleNs free))
        if (s.eng le).ended && (s.eng le).urgent.isNone then s.raise (Reg.ttbState le) 4#32 else s
    | none => s)

/-- ISLAND_CLOCK_RESTART (R78): 40 ns before the next boundary the gated clock runs again; a table without
stops stays gated. -/
def execIslandClockRestart (le : Nat) (s : State) : Host.Outcome State Fault Refusal :=
  done (
    if s.engineRuns le && (s.eng le).ended && decide (s.field (Reg.ttbState le) 25 16 ≠ 0) then
      let s := s.advanceTo ((s.tmu.period + 1) * s.tBase - 40)
      s.lower (Reg.ttbState le) 4#32
    else s)

/-- The engine at a boundary: figures of the ended period, then a fresh pass over the table. Which background
work is queued is not stated (free, log 33): telemetry while `LE.CFG` allows it, and calibration jobs. -/
def engineBoundary (s : State) (le : Nat) : State :=
  let e := s.eng le
  if !s.running || !s.tableActive le then
    let s := s.setReg (Reg.ttbBgUsed le) (w32 ((e.bgUsed + 31) / 32))
    let s := s.setReg (Reg.leBusyCyc le) (setBits 0 19 0 e.busy)
    s.onEng le fun e => { e with busy := 0, bgUsed := 0 }
  else
    let d := s.draw
    let c := d.2.draw
    let s := c.2
    let tele := if bit (s.reg (Reg.leCfg le)) 0 then Config.num d.1 else 0
    let s := s.setReg (Reg.ttbBgUsed le) (w32 ((e.bgUsed + 31) / 32))
    let s := s.setReg (Reg.leBusyCyc le) (setBits 0 19 0 e.busy)
    let s := s.setEng le { writeQ := e.writeQ, mainBank := e.mainBank, shadowBank := e.shadowBank, bgTele := tele,
                           bgJobs := e.bgJobs + Config.num c.1 }
    if s.field (Reg.ttbState le) 25 16 = 0 then s.raise (Reg.ttbState le) 4#32 else s.lower (Reg.ttbState le) 4#32

/-- `LE[n].STATE` as it reads (R198). -/
def State.leView (s : State) (le : Nat) : Word :=
  let e := s.eng le
  let stop := match e.urgent, e.main with
    | some u, _ => u.stop
    | none, some m => m.stop
    | none, none => 0x1FF
  w32 (b2n (e.main.isSome || e.urgent.isSome) + 2 * b2n e.urgent.isSome
    + 4 * b2n (e.bg.isSome && e.urgent.isNone) + 8 * b2n e.preempted + 16 * stop)

end Sys2Proof.Machine
end

