-- ==== Sys2Proof/Machine/Island.lean ====
section
/-!
DEFINITION. The safety island (chapter 16, R417 to R446).
-/
namespace Sys2Proof.Machine

/-! ### The configuration image (R424 to R431, R439) -/

/-- CRC-32C of R425. -/
def crc32c (p : Bytes) : Nat := Nat.xor (crcLsb 32 0x1EDC6F41 0xFFFFFFFF p) 0xFFFFFFFF

/-- The 2,048 bytes of an image. -/
def imageBytes (m : Map Byte) : Bytes := Map.getRun (fun _ => 0) m 0 2048

/-- The configuration check value of an image (R425). -/
def imageCheck (p : Bytes) : Nat := crc32c (p.take 60 ++ zeros 4 ++ p.drop 64)

/-- A number in the committed image. -/
def State.img (s : State) (o n : Nat) : Nat := leNat (Map.getRun (fun _ => 0) s.island.committed o n)

/-- Field `o` of the record of safe axis `a`. -/
def State.axImg (s : State) (a o n : Nat) : Nat := s.img (0x40 + 48 * a + o) n
/-- Field `o` of the record of safe input `i`. -/
def State.inImg (s : State) (i o n : Nat) : Nat := s.img (0x640 + 8 * i + o) n
/-- Field `o` of the record of safe output `k`. -/
def State.outImg (s : State) (k o n : Nat) : Nat := s.img (0x6C0 + 16 * k + o) n
/-- Field `o` of the record of connection `c`. -/
def State.connImg (s : State) (c o n : Nat) : Nat := s.img (0x700 + 32 * c + o) n

/-- Safe axes that name a slot. -/
def State.safeAxes (s : State) : List Nat :=
  if s.island.valid then (List.range 32).filter fun a => decide (s.axImg a 0 1 ≠ 0xFF) else []

/-- Safe axes of group `k`. -/
def State.members (s : State) (k : Nat) : List Nat := s.safeAxes.filter fun a => decide (s.axImg a 1 1 % 4 = k)

/-- Monitored functions of axis `a`: bit `n` of `FUNC`. -/
def State.func (s : State) (a n : Nat) : Bool := (s.axImg a 7 1).testBit n

/-- The image expects a partner island. -/
def State.pairImage (s : State) : Bool := s.island.valid && decide (s.img 12 1 % 2 = 1)

/-! ### Entries -/

def State.sax (s : State) (a : Nat) : SafeAx := Map.get (fun _ => {}) s.island.axes a
def State.setSax (s : State) (a : Nat) (x : SafeAx) : State :=
  s.onIsland fun i => { i with axes := Map.set (fun _ => {}) i.axes a x }
def State.onSax (s : State) (a : Nat) (g : SafeAx → SafeAx) : State := s.setSax a (g (s.sax a))
def State.sin (s : State) (n : Nat) : SafeIn := Map.get (fun _ => {}) s.island.ins n
def State.onSin (s : State) (n : Nat) (g : SafeIn → SafeIn) : State :=
  s.onIsland fun i => { i with ins := Map.set (fun _ => {}) i.ins n (g (s.sin n)) }
def State.sout (s : State) (k : Nat) : SafeOut := Map.get (fun _ => {}) s.island.outs k
def State.onSout (s : State) (k : Nat) (g : SafeOut → SafeOut) : State :=
  s.onIsland fun i => { i with outs := Map.set (fun _ => {}) i.outs k (g (s.sout k)) }
def State.sconn (s : State) (c : Nat) : SafeConn := Map.get (fun _ => {}) s.island.conns c
def State.onSconn (s : State) (c : Nat) (g : SafeConn → SafeConn) : State :=
  s.onIsland fun i => { i with conns := Map.set (fun _ => {}) i.conns c (g (s.sconn c)) }

/-- The island is fitted and powered (R417). -/
def State.islandOn (s : State) : Bool := s.part.optS && !s.island.testBad && s.power.mode != .dormant

/-- A bit of `SAFE.STAT` is set, with its event record (R521). -/
def safeEvent (n sev unit : Nat) (s : State) : State := (s.event Reg.safeStat n).log (0x0700 + n) sev unit 0 0

/-- A word of one bit per entry of a list. -/
def bitsWord (f : Nat → Bool) (n : Nat) : Nat := ((List.range n).map fun i => b2n (f i) * 2 ^ i).sum

/-- Show the island in `SAFE` (R446). -/
def safeShow (s : State) : State :=
  let i := s.island
  let s := s.setReg Reg.safeState (w32 (i.st + 8 * b2n s.pairImage + 256 * i.fcode))
  let s := s.setReg Reg.safeCheck (w32 (if i.st = 1 then 0 else s.img 60 4))
  let s := s.setReg Reg.safeBist (w32 i.bist)
  let s := s.setReg Reg.safeOutputs (w32 (bitsWord (fun k => (s.sout k).on) 4 + 16 * bitsWord s.ballH 4 + 256 * bitsWord s.ballL 4
    + 4096 * bitsWord (fun k => (s.sout k).fault) 4 + 65536 * bitsWord (fun k => (s.sout k).interlock) 4))
  let s := s.setReg Reg.safeInputs (w32 (bitsWord (fun n => (s.sin n).value) 16 + 65536 * bitsWord (fun n => (s.sin n).disc) 16))
  let hold (lo : Nat) := ((List.range 16).map fun a => (s.sax (lo + a)).hold * 4 ^ a).sum
  let s := (s.setReg Reg.safeHoldLo (w32 (hold 0))).setReg Reg.safeHoldHi (w32 (hold 16))
  let s := s.setReg Reg.safeViol (w32 (bitsWord (fun a => (s.sax a).viol) 32))
  let s := s.setReg Reg.safeFbfault (w32 (bitsWord (fun a => (s.sax a).fbFault) 32))
  let used (c : Nat) : Bool := i.valid && decide (s.connImg c 0 1 ≠ 0)
  let well (c : Nat) : Bool := used c && decide (s.connImg c 0 1 = 2) && !(s.sconn c).lost && decide (2 ≤ (s.sconn c).good)
  let s := s.setReg Reg.safeConn (w32 (bitsWord well 8 + 256 * bitsWord used 8))
  s.setReg Reg.safeAuth (w32 (i.fails + 256 * ((i.lockout + 3999) / 4000)))

/-! ### Faults of the island (R420) -/

/-- Every hold of the island takes a kind. -/
def holdAll (k : Nat) (s : State) : State := s.safeAxes.foldl (fun s a => s.onSax a fun x => { x with hold := k }) s

/-- Every safe output off. -/
def outputsOff (s : State) : State :=
  (List.range 4).foldl (fun s k => s.onSout k (·.switch false)) s

/-- An island fault; a commit whose flash write runs no longer becomes the committed image (log 36). -/
def islandFault (code : Nat) (s : State) : State :=
  if s.island.st = 4 then s
  else
    let s := holdAll 2 (outputsOff s)
    safeEvent 5 2 0xFFFF (s.onIsland fun i => { i with st := 4, fcode := code, commit := none })

/-! ### Groups (R428, R430) -/

/-- An axis needs STO. -/
def SafeAx.sto (x : SafeAx) : Bool := decide (x.stopping = 4) || x.fbFault

/-- Some axis of group `k` needs STO. -/
def State.groupSto (s : State) (k : Nat) : Bool := (s.members k).any fun a => (s.sax a).sto

/-- An axis enters STO: its group goes with it. `rush`: a violation does not wait for a brake. -/
def enterSto (a : Nat) (rush : Bool) (s : State) : State :=
  let k := s.axImg a 1 1 % 4
  let s := s.onSax a fun x => { x with stopping := 4 }
  let s := s.onSout k fun x => { x with interlock := true, rush := x.rush || rush }
  (s.members k).foldl (fun s b => s.onSax b fun x => { x with hold := 2 }) s

/-- The hold that an axis publishes (R436; DEDUCED, log 36: kind 2 while the group is off). -/
def State.holdOf (s : State) (a : Nat) : Nat :=
  let k := s.axImg a 1 1 % 4
  if s.groupSto k || (s.sout k).interlock then 2
  else if (s.sax a).stopping = 0 then 0 else 1

/-- The brakes of group `k`. -/
def State.brakesOf (s : State) (k : Nat) : List Nat :=
  (List.range 4).filter fun j => decide (s.outImg j 0 1 = 2 ∧ s.outImg j 6 1 = k)

/-- How many cycles the group output waits for its brakes: the longest delay of theirs (log 36). -/
def State.brakeDelay (s : State) (k : Nat) : Nat := 4 * ((s.brakesOf k).map fun j => s.outImg j 8 2).foldl max 0

/-- BRAKE_DELAY_EXPIRY (R428): the group output follows its brakes. -/
def brakeExpiry (k : Nat) (s : State) : State :=
  if (s.sout k).braking ∧ (s.brakeDelay k ≤ (s.sout k).brake ∨ (s.sout k).rush) then s.onSout k (·.switch false) else s

/-- The outputs of a cycle, from what the islands' channels decided before it (R428, R436). -/
def driveOutputs (s : State) : State :=
  let s := (List.range 4).foldl (fun s k =>
    if s.outImg k 0 1 ≠ 1 then s
    else
      let x := s.sout k
      let want := !s.groupSto k && !x.interlock && !x.fault
      if want then s.onSout k (·.switch true)
      else if x.fault ∨ !x.on ∨ s.brakesOf k = [] then s.onSout k (·.switch false)
      else
          brakeExpiry k (s.onSout k fun x => if x.braking then { x with brake := x.brake + 1 } else { x with braking := true, brake := 0 })) s
  (List.range 4).foldl (fun s k =>
    if s.outImg k 0 1 = 2 then
      let g := s.sout (s.outImg k 6 1 % 4)
      s.onSout k fun x => x.switch (g.on && !g.braking && !x.fault)
    else if s.outImg k 0 1 = 1 then s else s.onSout k (·.switch false)) s

/-- The restart interlock of group `k` clears (R430, R433). -/
def clearInterlock (k : Nat) (s : State) : State :=
  let s := s.onSout k fun x => { x with interlock := false, ack := 0 }
  (s.members k).foldl (fun s a => s.onSax a fun x =>
    { x with stopping := if x.stopping = 4 then 0 else x.stopping, fbFault := false, byViol := false }) s

/-! ### Safe bits (R425, R440) -/

/-- A consumed connection gives its data. -/
def State.connGood (s : State) (c : Nat) : Bool :=
  let x := s.sconn c
  decide (s.connImg c 0 1 = 2) && !x.lost && decide (2 ≤ x.good) && x.ok

/-- A safe bit. -/
def State.safeBit (s : State) (n : Nat) : Bool :=
  if n < 16 then (s.sin n).value
  else if 0x20 ≤ n ∧ n < 0x60 then s.connGood ((n - 0x20) / 8) && (s.sconn ((n - 0x20) / 8)).data.getLsbD ((n - 0x20) % 8)
  else decide (n = 0xFF)

/-! ### Safe inputs (R426, R427) -/

/-- Filter one channel: level, count and the level delivered. -/
def safeFilter (filt : Nat) (level : Bool) (count : Nat) (raw : Bool) : Bool × Nat :=
  if raw = level then (level, 0)
  else if 4 * filt < count + 1 then (raw, 0) else (level, count + 1)

/-- The level of channel B as `MODE` reads it. -/
def State.sinB (s : State) (n : Nat) : Bool :=
  let x := s.sin n
  if s.inImg n 1 1 = 0xFF then x.a else if s.inImg n 2 1 = 1 then !x.b else x.b

/-- INPUT_DISCREPANCY (R427). -/
def inputDisc (n : Nat) (s : State) : State :=
  if 4 * s.inImg n 4 2 < (s.sin n).diff ∧ !(s.sin n).disc then
    safeEvent 2 1 n (s.onSin n fun x => { x with disc := true, value := false })
  else s

/-- One safe input in a cycle. -/
def readInput (s : State) (n : Nat) : State :=
  let ca := s.inImg n 0 1
  let cb := s.inImg n 1 1
  if ca = 0xFF then s.onSin n fun _ => {}
  else
    let s := s.onSin n fun x =>
      let fa := safeFilter (s.inImg n 3 1) x.a x.cntA (s.fieldIn ca)
      let fb := safeFilter (s.inImg n 3 1) x.b x.cntB (s.fieldIn cb)
      { x with a := fa.1, cntA := fa.2, b := fb.1, cntB := fb.2 }
    let a := (s.sin n).a
    let b := s.sinB n
    s.onSin n fun x =>
      let disc := x.disc && (a || b)
      { x with disc := disc, diff := if a = b then 0 else x.diff + 1, value := a && b && !disc && s.die.lplusOk }

/-! ### Feedback (R432, R433) -/

/-- A source value takes a new position: source 1 or 2 of axis `a`. -/
def takeSource (a : Nat) (second : Bool) (p : BitVec 32) (bad : Bool) (s : State) : State :=
  s.onSax a fun x => if second then { x with new2 := some p, bad2 := bad } else { x with new1 := some p, bad1 := bad }

/-- A segment of a channel of the ring whose west-end port is `port`, as its bytes (R432). -/
def islandSegment (port station chan : Nat) (seg : Bytes) (s : State) : State :=
  if !s.islandOn || decide (Bytes.num seg 54 4 ≠ crc32 (seg.take 2 ++ (seg.drop 22).take 32))
      || decide (Bytes.num seg 0 2 % 128 ≠ station + 32 * chan) then s
  else
    let src := port * 4096 + station * 128 + chan * 32
    let tag := Bytes.num seg 58 1
    let bad := (Bytes.word seg 50).getLsbD 1
    s.safeAxes.foldl (fun s a =>
      let s := if s.axImg a 2 2 = src ∧ (s.sax a).tag1 ≠ some tag then
          takeSource a false (Bytes.word seg 22) bad (s.onSax a fun x => { x with tag1 := some tag }) else s
      if s.axImg a 4 2 = src ∧ (s.sax a).tag2 ≠ some tag then
        takeSource a true (Bytes.word seg 22) bad (s.onSax a fun x => { x with tag2 := some tag }) else s) s

/-- The local samples of a period (R432). Below READY the counting modes still give their counts, while nothing transfers
a serial position (R423; log 36). -/
def islandLocal (s : State) : State :=
  if !s.islandOn then s
  else s.safeAxes.foldl (fun s a =>
    let go (o : Nat) (second : Bool) (s : State) : State :=
      let src := s.axImg a o 2
      if src = 0xFFFF ∨ src < 0x8000 ∨ !(s.up || (s.fb (src % 16)).mode = 1 || (s.fb (src % 16)).mode = 4) then s
      else
        let n := src % 16
        takeSource a second (s.reg (Reg.fbkChCnt n)) (bit (s.reg (Reg.fbkChCstat n)) 1) s
    go 4 true (go 2 false s)) s

/-- SAFE_FEEDBACK_LOSS (R433): a source without a new value for `FB_TMO` cycles, or one that reports
`FAULT`, is lost. -/
def feedbackLoss (a : Nat) (second : Bool) (s : State) : State :=
  let x := s.sax a
  let none_ := decide (s.axImg a (if second then 4 else 2) 2 = 0xFFFF)
  let gone := if second then decide (s.axImg a 36 2 ≤ x.age2) || x.bad2 else decide (s.axImg a 36 2 ≤ x.age1) || x.bad1
  if none_ || !gone then s
  else
    let s := s.onSax a fun x => { x with lost := true }
    if x.fbFault then s
    else enterSto a false (safeEvent 1 2 a (s.onSax a fun x => { x with fbFault := true }))

/-- A difference of 32-bit counts. -/
def diff32 (a b : BitVec 32) : Int := (a - b).toInt

/-- A feedback fault of an axis is present now. -/
def State.fbNow (s : State) (a : Nat) : Bool :=
  let x := s.sax a
  let l1 := decide (s.axImg a 2 2 ≠ 0xFFFF) && (decide (s.axImg a 36 2 ≤ x.age1) || x.bad1)
  let l2 := decide (s.axImg a 4 2 ≠ 0xFFFF) && (decide (s.axImg a 36 2 ≤ x.age2) || x.bad2)
  l1 || l2 || (decide (s.axImg a 4 2 ≠ 0xFFFF) && decide (s.axImg a 12 4 < x.d.natAbs))

/-- The positions of a cycle, the speed and the cross-check. -/
def readAxis (s : State) (a : Nat) : State :=
  let x := s.sax a
  let p := x.new1.getD (x.hist.headD 0)
  let hist := match x.hist with
    | [] => if x.new1.isSome then List.replicate 5 p else []
    | h => (p :: h).take 5
  let d1 := match x.hist with | h :: _ => diff32 p h | [] => 0
  let q := match x.new2 with | some q => some q | none => x.p2
  let d2 := match x.p2, q with | some u, some v => diff32 v u | _, _ => 0
  let num := wrapN 16 (s.axImg a 8 2)
  let den := max 1 (s.axImg a 10 2)
  let t := x.dRem + d1 * num
  let two := decide (s.axImg a 4 2 ≠ 0xFFFF)
  let bwd := if s.axImg a 34 1 = 0 then -d1 else d1
  s.setSax a
    { x with
      hist := hist, p2 := q, new1 := none, new2 := none
      age1 := if x.new1.isSome then 0 else x.age1 + 1, age2 := if x.new2.isSome then 0 else x.age2 + 1
      d := if two then x.d + t / den - d2 else 0, dRem := if two then t % den else 0
      speed := diff32 (hist.headD 0) (hist.getD 4 0) * 1000
      turn := if 0 < bwd then x.turn + bwd.toNat else if bwd < 0 then 0 else x.turn
      lost := false }

/-! ### Safety functions (R434) -/

/-- The SS1 envelope, `t` cycles after the demand. -/
def envelope (v0 : Int) (ramp t : Nat) : Int :=
  if t < 8 then v0.natAbs
  else max ((v0.natAbs : Int) - (ramp * (t - 8) / 4 : Nat)) 0 + (v0.natAbs / 16 : Nat)

/-- The limits that an axis violates now. -/
def State.violates (s : State) (a : Nat) : Bool :=
  let x := s.sax a
  let p := x.hist.headD 0
  let win := s.axImg a 24 2
  (x.sls && decide (s.axImg a 16 4 < x.speed.natAbs))
    || (s.func a 1 && decide (s.axImg a 26 2 < x.turn))
    || (decide (x.stopping = 3) && decide (win < (diff32 p x.sosAt).natAbs))
    || (s.func a 3 && decide (s.axImg a 40 4 ≠ s.axImg a 44 4)
        && !decide ((p - BitVec.ofNat 32 (s.axImg a 40 4)).toNat < (BitVec.ofNat 32 (s.axImg a 44 4) - BitVec.ofNat 32 (s.axImg a 40 4)).toNat))
    || (s.func a 4 && decide (x.stopping = 1 ∨ x.stopping = 2)
        && decide (envelope x.v0 (s.axImg a 20 4) x.stopT < (x.speed.natAbs : Int)))

/-- An SS1 (1) or SS2 (2) begins; an SS1 that a violation triggers takes the place of an SS2 (R434; log 36). -/
def beginStop (a kind : Nat) (byViol : Bool) (s : State) : State :=
  s.onSax a fun x =>
    if x.stopping = 0 ∨ (2 ≤ x.stopping ∧ x.stopping ≤ 3 ∧ kind = 1) then
      { x with stopping := kind, byViol := byViol, stopT := 0, v0 := x.speed, still := 0, stillAt := x.hist.headD 0 }
    else { x with byViol := x.byViol || byViol }

/-- SS1 or SS2 ends in STO or SOS. -/
def stopReached (a : Nat) (s : State) : State :=
  let x := s.sax a
  if x.stopping = 1 then enterSto a false s
  else s.setSax a { x with stopping := 3, sosAt := x.hist.headD 0 }

/-- STANDSTILL_CONFIRMED (R434): four cycles within `SOS_WIN`. -/
def standstill (a : Nat) (s : State) : State :=
  let x := s.sax a
  if (x.stopping = 1 ∨ x.stopping = 2) ∧ 4 ≤ x.still then stopReached a s else s

/-- STOP_T_EXPIRY (R434): STO follows at the latest, SOS only at a confirmed standstill. -/
def stopExpiry (a : Nat) (s : State) : State :=
  let x := s.sax a
  if (x.stopping = 1 ∨ x.stopping = 2) ∧ 4 * s.axImg a 28 2 ≤ x.stopT then enterSto a false s else s

/-- The functions of an axis in a cycle. -/
def judgeAxis (s : State) (a : Nat) : State :=
  let demand := !s.safeBit (s.axImg a 32 1)
  let kind := s.axImg a 31 1
  let src := s.axImg a 33 1
  let win := s.axImg a 24 2
  let s := s.onSax a fun x =>
    let p := x.hist.headD 0
    let near := decide ((diff32 p x.stillAt).natAbs ≤ win)
    let run := decide (x.stopping = 1 ∨ x.stopping = 2)
    { x with
      sls := s.func a 0 && (decide (src = 0xFF) || !s.safeBit src)
      stopT := if run then x.stopT + 1 else x.stopT
      still := if run then (if near then x.still + 1 else 0) else 0
      stillAt := if near then x.stillAt else p
      stopping := if !demand && !x.byViol && decide (1 ≤ x.stopping ∧ x.stopping ≤ 3) then 0 else x.stopping }
  let s := if s.fbNow a ∧ !(s.sax a).fbFault then
      enterSto a false (safeEvent 1 2 a (s.onSax a fun x => { x with fbFault := true })) else s
  let s := if !demand then s else if kind = 0 then enterSto a false s else beginStop a kind false s
  let v := s.violates a
  let was := (s.sax a).viol
  let s := s.onSax a fun x => { x with viol := v }
  if !v then s
  else
    let s := if was then s else safeEvent 0 2 a s
    if s.axImg a 30 1 = 0 then enterSto a true s else beginStop a 1 true s

/-- Stop demands of group `k` are present (R430). -/
def State.demands (s : State) (k : Nat) : Bool :=
  (s.members k).any fun a => !s.safeBit (s.axImg a 32 1) || s.fbNow a || (s.sax a).viol

/-- The restart of group or output `k` in a cycle: acknowledgement, interlock and output fault (R429, R430). -/
def restartOutput (s : State) (k : Nat) : State :=
  let use := s.outImg k 0 1
  if use = 0 then s
  else
    let x := s.sout k
    let ackBit := s.outImg k 7 1
    let high := decide (ackBit ≠ 0xFF) && s.safeBit ackBit
    let acked := decide (ackBit ≠ 0xFF) && !high && decide (400 ≤ x.ack ∧ x.ack ≤ 20000)
    let s := s.onSout k fun x =>
      { x with
        ack := if high then x.ack + 1 else 0
        off := if x.fault && !x.on && !x.stuckH && !x.stuckL then x.off + 1 else 0
        tp := if x.on then x.tp + 1 else 0
        fault := x.fault && !(acked && decide (400 ≤ x.off)) }
    if use = 1 ∧ x.interlock ∧ !s.demands k ∧ (ackBit = 0xFF ∨ acked) then clearInterlock k s else s

/-! ### Telegrams (R438 to R442) -/

/-- CONN_LOST (R440, R442): no telegram accepted for `EXPECT` cycles. -/
def connLost (c : Nat) (s : State) : State :=
  let x := s.sconn c
  let exp := s.connImg c 10 2
  if s.connImg c 0 1 ≠ 2 then s
  else
    let s := if !x.told ∧ exp ≤ x.age then
        let s := s.onSconn c fun x => { x with lost := true, told := true, good := 0, any := true }
        safeEvent 4 1 c (s.countUp Reg.safeConnErr 23 16 1) else s
    if s.pairImage ∧ s.img 17 1 = c ∧ (s.sconn c).lost ∧ 2 * exp ≤ x.age ∧ !x.mismatch then
      safeEvent 7 1 c (s.onSconn c fun x => { x with mismatch := true })
    else s

/-- The key of a connection; those between partners take the image's check value in (R442). -/
def State.connKey (s : State) (c : Nat) : Nat :=
  if s.pairImage ∧ (s.img 16 1 = c ∨ s.img 17 1 = c) then Nat.xor (s.connImg c 4 4) (s.img 60 4) else s.connImg c 4 4

/-- The check value of a telegram's first 28 bytes. -/
def State.telCheck (s : State) (c : Nat) (p : Bytes) : Nat := crc32c (leBytes 4 (s.connKey c) ++ p)

/-- The data that the island produces (R438). -/
def State.safeData (s : State) : Nat :=
  let free (a : Nat) : Bool := let x := s.sax a; decide (a ∈ s.safeAxes) && decide (x.hold = 0) && !x.viol && !x.fbFault
  bitsWord (fun n => (s.sin n).value) 16 + bitsWord free 32 * 2 ^ 16 + bitsWord s.safeOutOn 4 * 2 ^ 48

/-- SAFE_TELEGRAM_PRODUCE (R438, R439): connection `c` sends its next telegram when `PROD` cycles have passed. -/
def execSafeTelegramProduce (c : Nat) (s : State) : Host.Outcome State Fault Refusal :=
  let x := s.sconn c
  done (
    if !s.islandOn || decide (8 ≤ c) || decide (s.island.st < 2 ∨ s.island.st = 4) || decide (s.connImg c 0 1 ≠ 1)
        || !(x.first || decide (s.connImg c 8 2 ≤ x.age)) then s
    else
      let seq := if x.first then 1 else x.seq + 1
      let d := s.safeData
      let p := [1] ++ leBytes 1 (b2n (s.island.st = 2) + 2 * b2n x.first) ++ leBytes 2 (s.connImg c 2 2) ++ wordBytes seq
        ++ leBytes 8 d ++ leBytes 8 (2 ^ 64 - 1 - d) ++ zeros 4
      let p := p ++ leBytes 4 (s.telCheck c p)
      let s := s.onSconn c fun x => { x with seq := seq, first := false, age := 0 }
      let med := s.connImg c 1 1
      let addr := leBytes 6 (s.connImg c 16 6)
      let send (m : Nat) (s : State) : State :=
        if s.macOn m then s.onMac m fun x => { x with safe := x.safe ++ [{ data := addr ++ s.macAddr m ++ [0x88, 0xB5] ++ p ++ zeros 14 }] } else s
      match med % 4 with
      | 0 => send 0 s
      | 1 => send 1 s
      | 2 => send 1 (send 0 s)
      | _ =>
        let n := med / 4 % 4
        if s.answers 0x06 n then
          let s := s.onCan n fun x => { x with island := some (w32 (s.connImg c 16 4), p) }
          if s.canOn n then canStart n s else s
        else s)

/-- A telegram reaches the consumer of connection `c` (R440), which accepts it or counts it as rejected; of a telegram
that came on both ports the second copy is passed over (R439). Before a connection is healthy a rejected telegram ends
its run of accepted ones. -/
def telegramIn (c : Nat) (tel : Bytes) (s : State) : State :=
  let x := s.sconn c
  let p := tel.take 28
  let seq := Bytes.word tel 4
  let restart := (Bytes.num tel 1 1).testBit 1
  let same := decide (32 ≤ tel.length ∧ Bytes.num tel 0 1 = 1 ∧ Bytes.num tel 2 2 = s.connImg c 2 2
    ∧ Bytes.num tel 28 4 = s.telCheck c p ∧ Bytes.num tel 16 8 = 2 ^ 64 - 1 - Bytes.num tel 8 8)
  let ahead := (seq - x.seq).toNat
  let reject (hi lo : Nat) : State :=
    safeShow ((s.onSconn c fun x => { x with good := if x.lost then 0 else x.good }).countUp Reg.safeConnErr hi lo 1)
  if !s.islandOn || decide (8 ≤ c) || decide (s.island.st < 2 ∨ s.island.st = 4) || decide (s.connImg c 0 1 ≠ 2) then s
  else if !same then reject 7 0
  else if s.connImg c 1 1 % 4 = 2 ∧ !x.any ∧ seq = x.seq then s
  else if !(x.any || restart || decide (1 ≤ ahead ∧ ahead ≤ s.connImg c 12 1)) then reject 15 8
  else
    let good := min 2 (x.good + 1)
    safeShow (s.onSconn c fun x =>
      { x with
        seq := seq, any := false, good := good, age := 0, lost := x.lost && decide (good < 2), told := false, mismatch := false
        ok := (Bytes.num tel 1 1).testBit 0, data := BitVec.ofNat 64 (Bytes.num tel 8 8) })

/-- SAFE_TELEGRAM_RECEIVE (R440): a telegram that the two channels take from outside the controllers. -/
def execSafeTelegramReceive (c : Nat) (tel : Bytes) (s : State) : Host.Outcome State Fault Refusal := done (telegramIn c tel s)

/-! ### Entering OPERATING (R422, R430, R444) -/

/-- Functions start anew: every interlock is set. An output's latched fault lasts (R429). -/
def operate (s : State) : State :=
  let s := s.onIsland fun i => { i with axes := [], ins := [], conns := [] }
  let s := (List.range 4).foldl (fun s k => s.onSout k fun x =>
    { fault := x.fault, low := x.low, stuckH := x.stuckH, stuckL := x.stuckL, interlock := s.island.valid && decide (s.outImg k 0 1 = 1) }) s
  if !s.island.valid then s.onIsland fun i => { i with st := 1 }
  else
    let s := s.onIsland fun i => { i with st := 2 }
    s.safeAxes.foldl (fun s a => s.onSax a fun x => { x with hold := s.holdOf a }) s

/-- The committed image as flash copy `n` holds it, when its check value is correct. -/
def State.flashImage (s : State) (n : Nat) : Option Bytes :=
  let p := s.flashRun (0x1010000 + 0x10000 * n) 2048
  if s.inn.flashOk ∧ Bytes.num p 0 4 = 0x5AFEB7C1 ∧ Bytes.num p 60 4 = imageCheck p then some p else none

/-- ISLAND_BOOT_DONE (R422): a channel that fails its memory test is an island fault, and the unit is absent from then
on (R5, R6, R85). -/
def execIslandBootDone (aOk bOk : Bool) (s : State) : Host.Outcome State Fault Refusal :=
  done (
    if !s.islandOn || decide (s.island.st ≠ 0) then s
    else
      let im := match s.flashImage 0 with | some p => some p | none => s.flashImage 1
      let s := s.onIsland fun i =>
        { i with
          bist := b2n aOk + 2 * b2n bOk + 4 * b2n im.isSome, testBad := !(aOk && bOk), valid := im.isSome, cycle := 0
          committed := Map.setRun (fun _ => 0) [] 0 (im.getD []) }
      let s := s.setField Reg.sysCapLive 0 0 (b2n (aOk && bOk))
      safeShow (if aOk && bOk then operate s else islandFault 4 s))

/-! ### The safety cycle (R418 to R420) -/

/-- The island's timers in a cycle. -/
def safeTimers (s : State) : State :=
  let s := (List.range 8).foldl (fun s c => if s.connImg c 0 1 = 0 then s else s.onSconn c fun x => { x with age := x.age + 1 }) s
  s.onIsland fun i => { i with cycle := i.cycle + 1, lockout := i.lockout - 1, closeAt := if i.st = 3 then i.closeAt + 1 else 0 }

/-- What a cycle reads (R418): every safe input, every feedback source, every consumed telegram. -/
def safeRead (s : State) : State :=
  let s := (List.range 16).foldl readInput s
  let s := (List.range 16).foldl (fun s n => inputDisc n s) s
  let s := (List.range 8).foldl (fun s c => connLost c s) s
  s.safeAxes.foldl readAxis s

/-- What a cycle evaluates: every function of every axis, its losses and expiries, and every restart. -/
def safeEvaluate (s : State) : State :=
  let s := s.safeAxes.foldl (fun s a => feedbackLoss a true (feedbackLoss a false s)) s
  let s := s.safeAxes.foldl judgeAxis s
  let s := s.safeAxes.foldl (fun s a => stopExpiry a (standstill a s)) s
  (List.range 4).foldl restartOutput s

/-- The island leaves commissioning without a commit (R443, R444). -/
def closeSafe (s : State) : State :=
  if s.island.st = 3 then operate (s.onIsland fun i => { i with working := [], commit := none }) else s

/-- COMMISSIONING_TIMEOUT (R443): 30 minutes without a class 0x0E command. -/
def commissioningTimeout (s : State) : State := if 7200000 ≤ s.island.closeAt then closeSafe s else s

/-- AUTH_LOCKOUT_EXPIRY (R443): the 60 s are over. -/
def lockoutExpiry (s : State) : State :=
  if s.island.fails = 3 ∧ s.island.lockout = 0 then s.onIsland fun i => { i with fails := 0 } else s

/-- A cycle with a committed image (R418): the outputs take what the cycle before decided (R436), then the channels
read and evaluate. In commissioning the outputs stay off and every hold is of kind 2. -/
def operatingCycle (s : State) : State :=
  let open_ := decide (s.island.st = 3)
  let s := if open_ then outputsOff s else driveOutputs s
  let s := safeEvaluate (safeRead s)
  if open_ then holdAll 2 s else s.safeAxes.foldl (fun s a => s.onSax a fun x => { x with hold := s.holdOf a }) s

/-- SAFETY_CYCLE (R418, R419): the first self-check that fails is the island's fault. -/
def execSafetyCycle (oscBad resultsDiffer silent memoryBad imageBad refBad : Bool) (s : State) :
    Host.Outcome State Fault Refusal :=
  done (
    if !s.islandOn || decide (s.island.st = 0) then s
    else if s.island.st = 4 then safeShow (safeTimers s)
    else
      let s := safeTimers (lockoutExpiry (commissioningTimeout s))
      let s := s.onDie fun d => { d with safeOff := false }
      let s := s.onIsland fun i => { i with silent := if silent then i.silent + 1 else 0 }
      let ref := refBad && decide (s.island.cycle % 1024 = 0) && bit (s.reg Reg.pwrClk) 0
      let s := if ref then safeEvent 8 1 0xFFFF s else s
      safeShow (
        if resultsDiffer then islandFault 1 s
        else if 2 ≤ s.island.silent then islandFault 2 s
        else if oscBad then islandFault 3 s
        else if memoryBad then islandFault 4 s
        else if imageBad ∧ s.island.st = 2 ∧ s.island.cycle % 4096 = 0 then islandFault 5 s
        else if s.island.valid then operatingCycle s else s))

/-- ISLAND_WATCHDOG (R420): the die has had no refresh for 2 ms and switches the safe outputs off. -/
def execIslandWatchdog (s : State) : Host.Outcome State Fault Refusal :=
  done (if s.die.started then safeShow (fioShow (s.onDie fun d => { d with safeOff := true })) else s)

/-- A test pulse of output `k` on that switch is due: `TP_PER` after the last, on alternate sides (R429). -/
def State.pulseDue (s : State) (k : Nat) (low : Bool) : Bool :=
  decide (s.outImg k 1 1 % 2 = 1) && decide (4 * s.outImg k 4 2 ≤ (s.sout k).tp) && decide ((s.sout k).tpLow = low)

/-- What a ball reads while its output is off: high only from outside. -/
def SafeOut.stuck (low high : Bool) (x : SafeOut) : SafeOut :=
  if low then { x with stuckL := high } else { x with stuckH := high }

/-- TEST_PULSE (R429): the pulse that is due on one switch of an on output, or the readback of a ball of an off
output. A failed one latches an output fault and takes both switches off; of the two switches, an island fault.
A ball whose high-side pulse failed stays high. -/
def execTestPulse (k : Nat) (low passed : Bool) (s : State) : Host.Outcome State Fault Refusal :=
  let x := s.sout k
  let latch (high : Bool) (s : State) : State :=
    safeEvent 3 2 k (s.onSout k fun x => { (x.switch false).stuck low high with fault := true, low := low, off := 0 })
  done (
    if !s.islandOn || decide (4 ≤ k) || decide (s.island.st ≠ 2) || decide (s.outImg k 0 1 = 0) then s
    else if x.on then
      if !s.pulseDue k low then s
      else safeShow (fioShow (if passed then s.onSout k fun x => { x with tp := 0, tpLow := !low } else latch (!low) s))
    else if passed then safeShow (fioShow (s.onSout k (·.stuck low false)))
    else if !x.fault then safeShow (fioShow (latch true s))
    else
      let s := s.onSout k fun x => { x.stuck low true with off := 0 }
      safeShow (fioShow (if x.low = low then s else islandFault 6 s)))

/-- Rows whose effect the next cycle would otherwise bring. -/
def State.operates (s : State) : Bool := s.islandOn && decide (s.island.st = 2)

def execInputDiscrepancy (n : Nat) (s : State) : Host.Outcome State Fault Refusal :=
  done (if s.operates && decide (n < 16) then safeShow (inputDisc n s) else s)
def execSafeFeedbackLoss (a : Nat) (second : Bool) (s : State) : Host.Outcome State Fault Refusal :=
  done (if s.operates && decide (a ∈ s.safeAxes) then safeShow (feedbackLoss a second s) else s)
def execStopTExpiry (a : Nat) (s : State) : Host.Outcome State Fault Refusal :=
  done (if s.operates && decide (a ∈ s.safeAxes) then safeShow (stopExpiry a s) else s)
def execStandstillConfirmed (a : Nat) (s : State) : Host.Outcome State Fault Refusal :=
  done (if s.operates && decide (a ∈ s.safeAxes) then safeShow (standstill a s) else s)
def execBrakeDelayExpiry (k : Nat) (s : State) : Host.Outcome State Fault Refusal :=
  done (if s.operates && decide (k < 4) then safeShow (brakeExpiry k s) else s)
def execConnLost (c : Nat) (s : State) : Host.Outcome State Fault Refusal :=
  done (if s.operates && decide (c < 8) then safeShow (connLost c s) else s)
def execCommissioningTimeout (s : State) : Host.Outcome State Fault Refusal :=
  done (if s.islandOn then safeShow (commissioningTimeout s) else s)
def execAuthLockoutExpiry (s : State) : Host.Outcome State Fault Refusal :=
  done (if s.islandOn then safeShow (lockoutExpiry s) else s)

/-! ### Commissioning commands (R443, R444) -/

/-- `SAFE_OPEN` in the island: 0 opened, else 1 for a wrong code. -/
def safeOpen (code : Nat) (s : State) : Bool × State :=
  let right := if s.island.valid then decide (code = s.img 8 4) else decide (code = 0)
  if right then
    let s := s.onIsland fun i => { i with st := 3, fails := 0, closeAt := 0, working := i.committed }
    (true, safeShow (holdAll 2 (outputsOff s)))
  else
    let n := min 3 (s.island.fails + 1)
    (false, safeShow (s.onIsland fun i => { i with fails := n, lockout := if n = 3 then 240000 else i.lockout }))

/-- A safe-bit index is not reserved. -/
def safeBitOk (n : Nat) : Bool := decide (n < 16 ∨ (0x20 ≤ n ∧ n < 0x60) ∨ n = 0xFF)

/-- A source is encoded as R431 says. -/
def sourceOk (v : Nat) : Bool :=
  decide (v = 0xFFFF) || (if v < 0x8000 then decide (v % 32 = 0) else decide (v < 0x8010))

/-- The first offset of a list of checks that fails. -/
def firstBad : List (Nat × Bool) → Option Nat
  | [] => none
  | (o, ok) :: r => if ok then firstBad r else some o

/-- The offsets from `o` on, `n` bytes that must be zero. -/
def zeroRun (p : Nat → Nat → Nat) (o n : Nat) : List (Nat × Bool) := (List.range n).map fun i => (o + i, decide (p (o + i) 1 = 0))

/-- A field in a range. -/
def inRange (p : Nat → Nat → Nat) (o n lo hi : Nat) : Nat × Bool := (o, decide (lo ≤ p o n ∧ p o n ≤ hi))

/-- Checks of a safe axis record at `o`. -/
def axisChecks (p : Nat → Nat → Nat) (o : Nat) : List (Nat × Bool) :=
  let n (k m : Nat) : Nat := p (o + k) m
  if n 0 1 = 0xFF then
    [(o + 2, decide (n 2 2 = 0 ∨ n 2 2 = 0xFFFF)), (o + 4, decide (n 4 2 = 0 ∨ n 4 2 = 0xFFFF))] ++ zeroRun p (o + 1) 1 ++ zeroRun p (o + 6) 42
  else
    [inRange p o 1 0 127, inRange p (o + 1) 1 0 3, (o + 2, sourceOk (n 2 2)), (o + 4, sourceOk (n 4 2)),
     (o + 6, decide (n 6 1 < 16 ∧ n 6 1 % 4 < 3 ∧ n 6 1 / 4 < 3)),
     (o + 7, decide (n 7 1 < 32) && (!(n 7 1).testBit 3 || decide (n 6 1 % 4 = 1))), inRange p (o + 10) 2 1 65535,
     inRange p (o + 28) 2 10 30000, inRange p (o + 30) 1 0 1, inRange p (o + 31) 1 0 2, (o + 32, safeBitOk (n 32 1)),
     (o + 33, safeBitOk (n 33 1)), inRange p (o + 34) 1 0 1, inRange p (o + 35) 1 0 0, inRange p (o + 36) 2 1 16,
     inRange p (o + 38) 2 0 0]

/-- Checks of a safe input record. -/
def inputChecks (p : Nat → Nat → Nat) (o : Nat) : List (Nat × Bool) :=
  let ch (k : Nat) : Nat × Bool := (o + k, decide (p (o + k) 1 < 32 ∨ p (o + k) 1 = 0xFF))
  if p o 1 = 0xFF then (o + 1, decide (p (o + 1) 1 = 0 ∨ p (o + 1) 1 = 0xFF)) :: zeroRun p (o + 2) 6
  else [ch 0, ch 1, inRange p (o + 2) 1 0 1, inRange p (o + 3) 1 0 20, inRange p (o + 4) 2 10 2000, inRange p (o + 6) 2 0 0]

/-- Checks of a safe output record. -/
def outputChecks (p : Nat → Nat → Nat) (o : Nat) : List (Nat × Bool) :=
  if p o 1 = 0 then
    zeroRun p (o + 1) 6 ++ [(o + 7, decide (p (o + 7) 1 = 0 ∨ p (o + 7) 1 = 0xFF))] ++ zeroRun p (o + 8) 8
  else
    [inRange p o 1 0 2, inRange p (o + 1) 1 0 1, inRange p (o + 2) 2 200 1000, inRange p (o + 4) 2 100 10000,
     inRange p (o + 6) 1 0 3, (o + 7, safeBitOk (p (o + 7) 1)), inRange p (o + 8) 2 0 2000] ++ zeroRun p (o + 10) 6

/-- Checks of a connection record. -/
def connChecks (p : Nat → Nat → Nat) (o : Nat) : List (Nat × Bool) :=
  if p o 1 = 0 then zeroRun p (o + 1) 31
  else
    [inRange p o 1 0 2, inRange p (o + 1) 1 0 15, inRange p (o + 8) 2 1 4000, inRange p (o + 10) 2 2 8000,
     inRange p (o + 12) 1 1 8] ++ zeroRun p (o + 13) 3
      ++ (if p (o + 1) 1 % 4 = 3 then [(o + 16, decide (p (o + 19) 1 / 32 % 4 = 0))] ++ zeroRun p (o + 20) 2 else [])
      ++ zeroRun p (o + 22) 10

/-- The offset of the first field that is out of range (R444), of an image that `p` reads: the number of so many bytes
at an offset. -/
def fieldError (p : Nat → Nat → Nat) : Option Nat :=
  let conn (o : Nat) : Nat × Bool := (o, decide (p o 1 < 8 ∨ p o 1 = 0xFF))
  firstBad ([(0, decide (p 0 4 = 0x5AFEB7C1)), inRange p 4 2 1 1, inRange p 6 2 0 0, inRange p 12 4 0 1, conn 16, conn 17]
    ++ zeroRun p 18 42
    ++ (List.range 32).flatMap (fun a => axisChecks p (0x40 + 48 * a))
    ++ (List.range 16).flatMap (fun i => inputChecks p (0x640 + 8 * i))
    ++ (List.range 4).flatMap (fun k => outputChecks p (0x6C0 + 16 * k))
    ++ (List.range 8).flatMap (fun c => connChecks p (0x700 + 32 * c)))

/-- The offset of the first field of an image that is out of range (R444). -/
def imageError (p : Bytes) : Option Nat := fieldError (Bytes.num p)

/-- The image that `SAFE_READ` shows. -/
def State.safeImage (s : State) : Bytes :=
  if s.island.st = 3 then imageBytes s.island.working
  else let p := imageBytes s.island.committed; p.take 8 ++ zeros 4 ++ p.drop 12

/-- An image with its check value in it. -/
def checkedImage (p : Bytes) : Bytes := p.take 60 ++ leBytes 4 (imageCheck p) ++ p.drop 64

/-- The island's side of a completed flash write (R444): the image that was checked becomes the committed one. -/
def safeCommitted (p : Bytes) (s : State) : State :=
  let s := (s.setFlash 0x1010000 p).setFlash 0x1020000 p
  let s := s.onIsland fun i =>
    { i with committed := Map.setRun (fun _ => 0) [] 0 p, valid := true, bist := i.bist % 4 + 4, writing := none, commit := none }
  safeShow (safeEvent 6 0 0xFFFF s)

/-- A parameter of range 0x0C00 (R445). -/
def State.safeView (s : State) (slot idx : Nat) : Nat :=
  let x := s.safeAxes.find? fun a => decide (s.axImg a 0 1 = slot)
  match x with
  | none => if idx = 0xC00 then 0xFF else 0
  | some a =>
    let r := s.sax a
    match idx with
    | 0xC00 => a
    | 0xC01 => s.axImg a 1 1 % 4
    | 0xC02 => s.axImg a 7 1
    | 0xC03 => r.hold + 4 * b2n r.viol + 8 * b2n r.fbFault + 16 * b2n r.sls + 32 * b2n (r.stopping = 3)
    | 0xC04 => toU 32 (sat32 r.speed)
    | 0xC05 => (r.hist.headD 0).toNat
    | 0xC06 => toU 32 (sat32 r.d)
    | 0xC07 => s.img 60 4
    | _ => 0

/-- Kind of hold that the island of this device publishes for a slot. -/
def State.ownHold (s : State) (slot : Nat) : Nat :=
  if !s.islandOn then 0
  else match s.safeAxes.find? fun a => decide (s.axImg a 0 1 = slot) with
    | some a => (s.sax a).hold
    | none => 0

end Sys2Proof.Machine
end

