-- ==== Sys2Proof/Machine/Arrivals.lean ====
section
/-!
DEFINITION. Frames that reach the device by Ethernet or CAN and go to the host or to the safety island, and CAN frames
that leave (R439, R474, R478 to R483).
-/
namespace Sys2Proof.Machine

/-! ### Telegrams (R439, R440, R483) -/

/-- A telegram comes by a medium whose consumers are those with `f`: those that its identity names take it, and one
that names none counts as an identity failure (log 36). -/
def telegramArrives (f : Nat → Bool) (tel : Bytes) (s : State) : State :=
  let l := (List.range 8).filter fun c => decide (s.connImg c 0 1 = 2) && f c
  match l.filter fun c => decide (Bytes.num tel 2 2 = s.connImg c 2 2) with
  | [] => if l.isEmpty || !s.islandOn || decide (s.island.st < 2 ∨ s.island.st = 4) then s else safeShow (s.countUp Reg.safeConnErr 7 0 1)
  | k => k.foldl (fun s c => telegramIn c tel s) s

/-- The island's copy of an FD frame with 32 data bytes that one of its connections consumes on this controller (R483). -/
def islandFrame (ctl : Nat) (f : CanFrame) (s : State) : State :=
  if f.fdf && decide (f.data.length = 32) then
    telegramArrives (fun c => decide (s.connImg c 1 1 % 4 = 3 ∧ s.connImg c 1 1 / 4 % 4 = ctl ∧ s.connImg c 16 4 % 2 ^ 29 = f.id.toNat)
      && ((s.connImg c 16 4).testBit 31 == f.ide)) f.data s
  else s

/-! ### Ethernet -/

/-- ETH_FRAME_RECEIVE (R474): the first check that applies decides. `frame` is the frame without its
FCS (log 16). What goes to the time unit only is handled by its own commands. -/
def execEthFrameReceive (m : Nat) (frame : Bytes) (fcsOk : Bool) (s : State) :
    Host.Outcome State Fault Refusal :=
  done (
    if !s.macOn m then s
    else if !fcsOk || decide (frame.length < 60) || decide ((if tagged frame then 1518 else 1514) < frame.length) then
      (s.countUp (Reg.ethRxErr m) 31 0 1).event (Reg.ethStat m) 1
    else
      let s := s.countUp (Reg.ethRxFrames m) 31 0 1
      if etherType frame = [0x88, 0xF7] ∧ s.ptpPort = m then s
      else if etherType frame = [0x88, 0xB5] then
        telegramArrives (fun c => decide (s.connImg c 1 1 % 4 = m ∨ s.connImg c 1 1 % 4 = 2))
          (frame.drop (if tagged frame then 18 else 14)) s
      else if pauseFrame frame then s
      else if s.ethToHost m frame then ethToChannel m frame s
      else s)

/-! ### CAN -/

/-- Take a frame without error off the bus. -/
def canTake (c : Nat) (f : CanFrame) (s : State) : State :=
  let s := islandFrame c f (goodReceive c s)
  if s.canDetecting c then detectHit c s
  else match s.canFilter c f with
    | some i => canStore c i f s
    | none => s

/-- CAN_FRAME_RECEIVE (R479, R480): a frame of another node, which also ends an attempt of this one.
FD frames are not received without `CFG.FD_EN`. -/
def execCanFrameReceive (c : Nat) (f : CanFrame) (s : State) : Host.Outcome State Fault Refusal :=
  done (if s.canHears c && (!f.fdf || bit (s.reg (Reg.canCfg c)) 3) then
    canStart c (canTake c f (attemptOver c s))
  else s)

/-- A sent frame: out of the controller, or in internal loop-back into its own receiver (R477, R488). -/
def onBusOut (c j : Nat) (f : CanFrame) (s : State) : State :=
  if s.canMode c = 2 then canTake c f s else s.emit (.can c j f)

/-- TX_DONE (R481, R478): the entry on the bus is sent, stamped and released; in loop-back the
controller receives its own frame. -/
def execTxDone (c j : Nat) (s : State) : Host.Outcome State Fault Refusal :=
  done (if !s.canSends c || decide ((s.can c).onBus ≠ some j) then s
    else
      let tec := s.field (Reg.canErr c) 7 0
      let s := canCounters c (tec - 1) (s.field (Reg.canErr c) 15 8) s
      let s := s.onCan c fun x => { x with onBus := none, abort := 0 }
      if j = 8 then
        match (s.can c).island with
        | some (w, p) =>
          let f : CanFrame :=
            { id := BitVec.ofNat 29 (bits w 28 0), ide := bit w 31, rtr := false, fdf := true, brs := true, esi := false,
              dlc := 13, data := p, age := s.tmu.ns - (s.can c).sof }
          canStart c (onBusOut c 8 f (s.onCan c fun x => { x with island := none }))
        | none => s
      else
        let f := s.txFrame c j
        let f := { f with data := if f.rtr then [] else f.data.take (dlcBytes f.fdf f.dlc.toNat) }
        let s := canStampAt (Reg.canTxe c (20 * j)) (s.can c).sof s
        canStart c (onBusOut c j f ((s.lower (Reg.canTxReq c) (bitw j)).event (Reg.canStat c) 1)))

end Sys2Proof.Machine
end

