-- ==== Sys2Proof/Machine/Viham.lean ====
section
/-!
DEFINITION. The Viham drive rings: training, frames, healing, the side channel, and the drive heads on the
rings (chapter 14, R359 to R385, R558, R559).
-/
namespace Sys2Proof.Machine

/-- A write discards the held guarded value of its window (R54). -/
def dropHold (win : Nat) (s : State) : State :=
  s.onBus fun b => { b with guard := Map.set (fun _ => none) b.guard win none }

/-- A write reaches window `win` (R54): the hold goes, whether or not the write is then ignored. -/
def writeReaches (win : Nat) (s : State) : State := if s.serves then dropHold win s else s

/-- A guarded write to instance `inst` of window `win` completes with effect `f` (R53); a unit that
does not answer ignores it (R5, R26). -/
def guardedPair (win inst : Nat) (f : State → State) (s : State) : State :=
  let s := writeReaches win s
  if s.answers win inst then f s else s

/-! ### Ports and rings (R359, R360) -/

/-- Training phase of a port. -/
def State.ringPhase (s : State) (p : Nat) : Nat := s.field (Reg.vlkState p) 2 0
def State.ringUp (s : State) (p : Nat) : Bool := s.up && s.ringThere p && decide (s.ringPhase p = 4)

/-- The ports of a ring on this device. -/
def State.ringPorts (s : State) (w : Nat) : List Nat := if (s.port w).topo = 1 then [w, (s.port w).partner] else [w]
/-- Frames of this port are launched at the east end. -/
def State.eastEnd (s : State) (p : Nat) : Bool :=
  decide ((s.port p).topo = 2) || (decide ((s.port p).topo = 3) && s.sideB)

/-- The stations of the ring named by `w`, from the west: both halves of a ring that came up looped (R559). -/
def State.stationsOf (s : State) (w : Nat) : List Station :=
  (s.port w).stations ++ (if (s.port w).topo = 1 then (s.port (s.port w).partner).stations else [])

/-- Channels of a ring, by station and channel, in the order of the frame (R369). -/
def State.ringChans (s : State) (w : Nat) : List (Nat × Nat) :=
  ((s.stationsOf w).zip (List.range 32)).flatMap fun e => (List.range e.1.channels).map fun c => (e.2, c)

/-- The ring is paced at version 1 (R366). -/
def State.ringSlow (s : State) (w : Nat) : Bool :=
  (s.ringPorts w).any (fun p => (s.port p).hopVer.any fun e => decide (e.2 = 1))
    || (s.stationsOf w).any fun x => decide (x.west = 1 ∨ x.east = 1)

/-- Update the record of station `i` of a ring. -/
def onStation (w i : Nat) (g : Station → Station) (s : State) : State :=
  let n := (s.port w).stations.length
  if i < n then s.onPort w fun x => { x with stations := x.stations.modify i g }
  else s.onPort (s.port w).partner fun x => { x with stations := x.stations.modify (i - n) g }

/-! ### Frames (R369, R370, R374, R381) -/

/-- `APPLY` as taken (R374, R385). -/
def State.applyTicks (s : State) (p : Nat) : Nat :=
  min (s.field Reg.tmuPeriod 15 0 - 1) (max (s.field (Reg.vlkBudget p) 15 0) (bits (Map.get (fun _ => 0) s.tmu.smp (16 + p)) 15 0))

/-- A side-channel word (R381). -/
def sideWord (station type status seq : Nat) (data : Bytes) : Bytes :=
  let b := leBytes 1 station ++ leBytes 1 type ++ leBytes 1 status ++ leBytes 1 seq ++ leBytes 2 data.length ++ [0, 0] ++ padTo 208 data
  b ++ leBytes 4 (crc32 b) ++ zeros 4

/-! ### Side channel (R168, R381, R382) -/

/-- A request on the side channel of the ring named by `w`: station, type and data (R381, R382). -/
def sideRequest (w station type : Nat) (data : Bytes) (s : State) : State :=
  s.onPort w fun x =>
    { x with side := { x.side with reqs := x.side.reqs ++ [leBytes 1 station ++ leBytes 1 type ++ data] } }

/-- Which queue the next frame serves (R168, R382): nameplate writes, or foreground requests, which carry at most 7 of
every 8 frames. -/
def RingPort.turn (x : RingPort) : Option Bool :=
  if x.sideRun < 7 ∧ x.side.reqs ≠ [] then some false else if x.plate.reqs ≠ [] then some true else none

/-- The first request of a queue as a side-channel word (R381): under its number again while it is in progress. -/
def SideQueue.word (q : SideQueue) : Bytes :=
  let b := q.reqs.headD []
  sideWord (Bytes.num b 0 1) (Bytes.num b 1 1) 0 (if q.busy then q.seq else (q.seq + 1) % 256) (b.drop 2)

/-- A frame leaves; it carries the first request of the queue or not. -/
def SideQueue.launched (q : SideQueue) (carried : Bool) : SideQueue :=
  if q.busy then { q with age := q.age + 1 }
  else if carried then { q with busy := true, seq := (q.seq + 1) % 256, age := 1 } else q

/-- The request in progress is over (R382). -/
def SideQueue.next (q : SideQueue) : SideQueue := { q with reqs := q.reqs.drop 1, busy := false, age := 0 }

/-- Requests are taken out of a queue. -/
def SideQueue.without (q : SideQueue) (f : Bytes → Bool) : SideQueue :=
  { q with reqs := q.reqs.filter fun b => !f b, busy := q.busy && !f (q.reqs.headD []) }

/-- What a launched frame does to the two queues (R168). -/
def RingPort.launched (x : RingPort) : RingPort :=
  { x with
    reclose := false
    side := x.side.launched (x.turn == some false)
    plate := x.plate.launched (x.turn == some true)
    sideRun := if x.turn = some false then x.sideRun + 1 else 0 }

/-- The frames of port `p` carry requests (R382; of a `PAIR` ring those of the Active, DEDUCED, log 34). -/
def State.carries (s : State) (p : Nat) : Bool := decide ((s.port p).topo ≠ 2) && s.leads

/-- A channel slot as the device writes it (R369). -/
def slotBytes (station chan : Nat) (w : List Word) : Bytes :=
  let b := leBytes 2 (station + 32 * chan + 128 * (w.headD 3).toNat) ++ ((w.drop 1).take 4).flatMap wordBytes ++ zeros (16 - 4 * min 4 (w.length - 1))
  b ++ leBytes 4 (crc32 b) ++ zeros 38

/-- The frame of port `p` for period `k` (R367, R369): 1 control, 2 idle, 3 discovery, 4 delay. The last two carry no
request and `DISABLED` words (DEDUCED, log 34). -/
def State.ringFrame (s : State) (p k type : Nat) : Bytes :=
  let w := s.westOf p
  let x := s.port w
  let run := decide (type = 1)
  let chans := s.ringChans w
  let carry := s.carries p && decide (type ≤ 2)
  let flags := b2n s.leads + 4 * b2n (x.reclose && carry) + 8 * b2n (s.eastEnd p)
  let h := leBytes 1 type ++ leBytes 1 flags
    ++ leBytes 1 (p + 8 * s.dev + 128 * b2n s.sideB) ++ leBytes 1 chans.length ++ leBytes 4 k
    ++ leBytes 2 (s.field Reg.tmuPeriod 15 0) ++ leBytes 2 (s.smpOfs w / 40 % 65536).toNat
    ++ leBytes 2 (s.applyTicks w) ++ leBytes 1 (s.stationsOf w).length ++ leBytes 1 (if s.ringSlow w then 1 else 2) ++ zeros 12
  let side := match carry, x.turn with
    | true, some plate => (if plate then x.plate else x.side).word
    | _, _ => sideWord 0 0 0 0 []
  let slots := chans.flatMap fun c => slotBytes c.1 c.2 (if run then Map.get (fun _ => [3]) x.words (4 * c.1 + c.2) else [3])
  let t : Bytes := [0, 0xFF, 0] ++ zeros 9
  h ++ leBytes 4 (crc32 h) ++ side ++ slots ++ t ++ leBytes 4 (crc32 t)

/-- A training frame leaves the port as it enters its phase, and with every boundary in it (R367, R368; how often is a DESIGN
CHOICE, log 34): discovery frames from the west end, and from the east end of a broken ring or of a `PAIR` ring, whose
break the port itself cannot see; delay frames from every end. -/
def trainFrame (s : State) (p : Nat) : State :=
  let k := s.tmu.period
  let broken := bit (s.reg (Reg.vlkState (s.westOf p))) 4
  if s.ringPhase p = 2 then
    if s.eastEnd p && decide ((s.port p).topo = 2) && !broken then s else s.emit (.ring p (s.ringFrame p k 3))
  else if s.ringPhase p = 3 then s.emit (.ring p (s.ringFrame p k 4))
  else s

/-- The station table of a ring (R385). -/
def showStations (w : Nat) (s : State) : State :=
  ((s.stationsOf w).zip (List.range 32)).foldl (fun s e =>
    let s := s.setReg (Reg.vlkStnId w e.2) (w32 (e.1.vendor % 65536 + 65536 * e.1.product))
    let i := s.reg (Reg.vlkStnInfo w e.2)
    s.setReg (Reg.vlkStnInfo w e.2) (setBits (setBits (setBits i 1 0 (e.1.channels - 1)) 3 2 e.1.west) 5 4 e.1.east)) s

/-- Metres of ring length in nanoseconds of cable delay, rounded up. -/
def metres (ns : Nat) : Nat := (ns + 4) / 5

/-- The measured ring length as a cable delay (R368, R559): of a ring that came up looped, what the two ends
measured of its halves. -/
def State.ringCable (s : State) (w : Nat) : Nat :=
  let cs := (s.ringPorts w).map fun p => (s.port p).cable
  if (s.ringPorts w).any fun p => bit (s.reg (Reg.vlkState p)) 4 then cs.sum else cs.foldl max 0

/-- The return budget in 40 ns ticks (R375). -/
def State.ringBudget (s : State) (w : Nat) : Nat :=
  let r := if s.ringSlow w then 4 else 1
  let l := max (bits (s.port w).cfg 23 16) (metres (s.ringCable w))
  (r * (300 + 60 * (s.ringChans w).length) + 60 * (s.stationsOf w).length + 5 * l + 39) / 40

/-! ### Training (R365 to R368) -/

/-- Training of a port starts, with `CFG` as it stands (R367, R385). -/
def trainPort (p : Nat) (s : State) : State :=
  let cfg := s.reg (Reg.vlkCfg p)
  let s := s.setPort p { cfg := cfg, trainAt := s.inn.uptime, last := (s.port p).last }
  let s := s.setReg (Reg.vlkState p) (w32 (b2n (bit cfg 0)))
  let s := (s.setReg (Reg.vlkBudget p) 0).setReg (Reg.vlkCable p) 0
  let s := (s.setReg (Reg.vlkLoopStn p) 0).setReg (Reg.vlkLostMap p) 0
  let s := (List.range 32).foldl (fun s i => (s.setReg (Reg.vlkStnId p i) 0).setReg (Reg.vlkStnInfo p i) 0) s
  (List.range 32).foldl (fun s i =>
    s.onHead (32 * p + i) fun h =>
      { image := h.image, upd := h.upd, cfg := h.cfg, sto := h.sto, channels := h.channels, vendor := h.vendor, product := h.product }) s

/-- Training at entry to READY (R367). -/
def trainAll (s : State) : State := (List.range s.part.rings).foldl (fun s p => if s.ringThere p then trainPort p s else s) s

/-! ### READY (R83) -/

/-- The pair role that the strap gives (R79, R81, R82). -/
def State.roleReset (s : State) : Nat :=
  let r := Sys2Proof.field s.power.straps.toNat 4 3
  if r = 3 ∨ !s.part.optP ∨ (s.power.phase ≠ .firstStage ∧ !s.cap 2) then 0 else r

/-- `MGT.BANK` (R537). -/
def showBanks (s : State) : State :=
  s.setReg Reg.mgtBank (w32 (s.field Reg.pwrBoot 2 2 + 2 * b2n (s.bankGood 0) + 4 * b2n (s.bankGood 1)))

/-- The device is in READY (R24, R83, R91): the Porter's tick restarts, the pair waits for
its partner. DESIGN CHOICE (log 38): the conflict of R81 is told of here, at each entry to READY, once the second stage
has tested `PAIR`. -/
def becomeReady (s : State) : State :=
  let s := s.onPower fun p => { p with mode := .ready, target := .ready, phase := .idle, imageGiven := false }
  let role := s.roleReset
  let s := s.setField Reg.pairCfg 1 0 role
  let s := if Sys2Proof.field s.power.straps.toNat 4 3 ≠ 0 ∧ role = 0 then s.event Reg.pwrStat 7 else s
  let s := if role ≠ 0 then (s.setField Reg.pairState 3 1 1).onPair fun p => { p with waited := s.inn.uptime } else s
  let s := s.setReg Reg.pairPartner (w32 (65536 * (if s.power.image.isEmpty then Config.romId.toNat / 65536
    else Bytes.num s.power.image 6 2)))
  let s := s.onInn fun i =>
    { i with beat := (List.range 4).foldl (fun m c => Map.set (fun _ => 0) m c i.uptime) i.beat }
  let s := s.setField Reg.pwrCause 15 8 s.power.wakeCause.toNat
  let s := s.event Reg.pwrStat 0
  let s := if 4 ≤ s.power.wakeCause.toNat then s.event Reg.pwrStat 2 else s
  ptpStart (showBanks s)

/-- Every ring port of the part is off, up or failed. -/
def State.ringsSettled (s : State) : Bool :=
  (List.range s.part.rings).all fun p => [0, 4, 5].contains (s.ringPhase p)

/-- The device is in READY once every enabled ring port has reached its up or failed phase (R83). -/
def readyIfSettled (s : State) : State :=
  if s.power.phase == .ringTrain && s.ringsSettled then becomeReady s else s

/-- A port fails (R367). -/
def trainFail (p : Nat) (s : State) : State :=
  (s.setField (Reg.vlkState p) 2 0 5).event (Reg.vlkStat p) 1

/-- The version that two ends of a hop agree on; 0 none (R365). -/
def hopVersion (a b : Nat) (deskew : Bool) : Nat :=
  let m := Nat.land a b
  if m.testBit 2 && deskew then 2 else if m.testBit 1 then 1 else 0

/-- Hop `h` of a ring that is up, counted from the west, has trained again at version `v`: the stations beside it and
the ports know it, and pacing and budget follow (R366, R375). -/
def rehop (w h v : Nat) (s : State) : State :=
  let n := (s.stationsOf w).length
  let s := if 0 < h ∧ h ≤ n then onStation w (h - 1) (fun x => { x with east := v }) s else s
  let s := if h < n then onStation w h (fun x => { x with west := v }) s else s
  let s := (s.ringPorts w).foldl (fun s q => s.onPort q fun x =>
    { x with hopVer := Map.set (fun _ => 7) x.hopVer (if s.eastEnd q then n - h else h) v }) s
  showStations w ((s.ringPorts w).foldl (fun s q =>
    (s.setReg (Reg.vlkState q) (setBit (s.reg (Reg.vlkState q)) 3 (s.ringSlow w))).setReg (Reg.vlkBudget q)
      (w32 (min 0xFFFF (s.ringBudget w)))) s)

/-- HOP_TRAINED (R365, R366, R380): hop `hop`, counted from the port, has ended its training; `maskA` is
the end nearer to the port, and at hop 0 the port itself. -/
def execHopTrained (p hop : Nat) (maskA maskB : Byte) (deskew : Bool) (s : State) : Host.Outcome State Fault Refusal :=
  let own := if bit (s.port p).cfg 1 then 2 else 6
  let a := if hop = 0 then Nat.land maskA.toNat own else maskA.toNat
  let v := hopVersion a maskB.toNat deskew
  done (
    if !s.ringsOn || !s.ringThere p || decide (s.ringPhase p = 0 ∨ s.ringPhase p = 5) then s
    else
      let s := s.onPort p fun x => { x with hopVer := Map.set (fun _ => 7) x.hopVer hop v }
      if v = 0 then s.event (Reg.vlkStat p) 9
      else if s.ringPhase p = 1 then (if hop = 0 then trainFrame (s.setField (Reg.vlkState p) 2 0 2) p else s)
      else if s.ringPhase p ≠ 4 then s
      else
        -- a lost link trained again: the stations beside it can heal
        let w := s.westOf p
        let n := (s.stationsOf w).length
        let h := if s.eastEnd p then n - hop else hop
        let s := if 0 < h ∧ h ≤ n then s.onHead (32 * w + (h - 1)) fun x => { x with healE := x.loopE } else s
        let s := if h < n then s.onHead (32 * w + h) fun x => { x with healW := x.loopW } else s
        if hop ≤ n then rehop w h v s else s)

/-- Wiring that contradicts the configuration (R558); `at_` is the port the frame came back to, 8 + n for
port n of the partner device. -/
def State.miswired (s : State) (p at_ : Nat) (contradiction : Bool) : Bool :=
  let x := s.port p
  contradiction || (match x.topo with
    | 0 => decide (at_ ≠ p)
    | 3 => decide (at_ ≠ p ∧ at_ ≠ 8 + p)
    | _ =>
      let y := s.port x.partner
      decide (at_ ≠ p ∧ at_ ≠ x.partner) || decide (y.partner ≠ p) || decide (y.topo + x.topo ≠ 3))

/-- DISCOVERY_FRAME (R367, R558, R559): the descriptors of the stations: channels, hop versions, vendor,
product. The east end of a closed ring discovers only when the ring is broken, from the east. On a `PAIR`
ring they are those of both halves, from the west (log 34). -/
def execDiscoveryFrame (p : Nat) (ds : List (Nat × Nat × Nat × Nat)) (at_ : Nat) (contradiction : Bool) (s : State) :
    Host.Outcome State Fault Refusal :=
  let st := (ds.take 32).map fun d =>
    ({ channels := max 1 (min 4 d.1), west := d.2.1 % 16, east := d.2.1 / 16 % 16, vendor := d.2.2.1, product := d.2.2.2 } : Station)
  done (
    if !s.ringsOn || !s.ringThere p || decide (s.ringPhase p ≠ 1 ∧ s.ringPhase p ≠ 2) then s
    else if s.miswired p at_ contradiction then readyIfSettled (trainFail p s)
    else
      let st := if s.eastEnd p && decide ((s.port p).topo = 2) then st.reverse else st
      let broken := decide (at_ = p) && decide ((s.port p).topo ≠ 0)
      let s := s.onPort p fun x => { x with stations := st, discovered := true }
      let s := if broken then s.setReg (Reg.vlkState p) (setBit (s.reg (Reg.vlkState p)) 4 true) else s
      let s := trainFrame (s.setField (Reg.vlkState p) 2 0 3) p
      let e := (s.port p).partner
      if (s.port p).topo ≠ 1 then s
      else if broken then trainFrame s e
      else if s.ringPhase e = 1 ∨ s.ringPhase e = 2 then trainFrame (s.setField (Reg.vlkState e) 2 0 3) e
      else s)

/-- DELAY_FRAME (R368): the delays D_i of the stations that the frame passed, and the ring length. A half
nanosecond is a free choice (log 11); the data of `DELAY_SET` is end, 0 and D_i (DESIGN CHOICE, log 34). -/
def execDelayFrame (p roundTrip : Nat) (diffs : List Nat) (latencies : Nat) (s : State) :
    Host.Outcome State Fault Refusal :=
  let cable := roundTrip - latencies
  done (
    if !s.ringsOn || !s.ringThere p || decide (s.ringPhase p ≠ 3) then s
    else
      let w := s.westOf p
      let n := (s.stationsOf w).length
      let east := s.eastEnd p
      let s := s.onPort p fun x => { x with measured := true, cable := cable }
      let s := s.setReg (Reg.vlkCable p) (w32 (min 0xFFFF cable))
      (diffs.zip (List.range n)).foldl (fun s e =>
        let d := (half ((roundTrip : Int) - e.1)).toNat
        let st := if east then n - 1 - e.2 else e.2
        let s := if east then s else s.setField (Reg.vlkStnInfo w st) 31 16 (min 0xFFFF d)
        sideRequest w st 5 (leBytes 1 (b2n east) ++ [0] ++ leBytes 4 d) s) s)

/-- DELAY_SET (R368): a station takes its delay for the frames of one end. -/
def execDelaySet (p station : Nat) (fromWest : Bool) (delay : Nat) (s : State) : Host.Outcome State Fault Refusal :=
  done (if s.ringsOn && s.ringThere p && decide (station < 32) then
    let w := s.westOf p
    let s := s.onHead (32 * w + station) fun h =>
      if fromWest then { h with delayW := some delay } else { h with delayE := some delay }
    let mine (b : Bytes) : Bool := decide (Bytes.num b 0 1 = station ∧ Bytes.num b 1 1 = 5 ∧ Bytes.num b 2 1 = b2n (!fromWest))
    s.onPort w fun x => { x with side := x.side.without mine }
  else s)

/-- The ring named by `w` is ready to come up: each of its ports has discovered and measured, or has no link: its hop has
no common version, or has not trained and the ring is looped, as an open ring configured as closed is (R558, R559). -/
def State.ringReady (s : State) (w : Nat) : Bool :=
  let looped := (s.ringPorts w).any fun q => bit (s.reg (Reg.vlkState q)) 4
  let ok (p : Nat) : Bool :=
    (s.ringPhase p == 3 && (s.port p).measured) || decide (Map.find? (s.port p).hopVer 0 = some 0)
      || (looped && s.ringPhase p == 1)
  (s.ringPorts w).all ok && (s.ringPorts w).any fun p => (s.port p).measured

/-- A port of the ring is up: its state, budget and events (R366, R367, R375, R559). -/
def portUp (w : Nat) (s : State) (p : Nat) : State :=
  let l := bits (s.port w).cfg 23 16
  let looped := (s.ringPorts w).any fun q => bit (s.reg (Reg.vlkState q)) 4
  let st := 4 + 8 * b2n (s.ringSlow w) + 16 * b2n looped + 256 * (s.stationsOf w).length + 65536 * (s.ringChans w).length
  let s := s.setReg (Reg.vlkState p) (w32 st)
  let s := s.setReg (Reg.vlkBudget p) (w32 (min 0xFFFF (s.ringBudget w)))
  let s := s.event (Reg.vlkStat p) 0
  let s := if looped then (s.event (Reg.vlkStat p) 2).log 0x0600 1 p 0 0 else s
  if 5 * l < s.ringCable w then s.event (Reg.vlkStat p) 8 else s

/-- The first hop, counted from the port, that has not trained: the break that the end sees. -/
def RingPort.cutAt (x : RingPort) (n : Nat) : Nat :=
  ((List.range n).find? fun h => decide ((Map.find? x.hopVer h).getD 0 = 0 ∧ h ≠ 0)).getD n

/-- The hop, counted from the west, beside which the stations loop once a ring is up: behind the last station of an open ring,
at the break of another that came up looped (R367, R558, R559). -/
def State.loopHop (s : State) (w : Nat) : Option Nat :=
  let n := (s.stationsOf w).length
  let looped := (s.ringPorts w).any fun q => bit (s.reg (Reg.vlkState q)) 4
  if (s.port w).topo = 0 then some n
  else if !looped then none
  else if (s.port w).topo = 1 then some (s.port w).stations.length
  else if s.eastEnd w then some (n - (s.port w).cutAt n) else some ((s.port w).cutAt n)

/-- The halves of a broken `PAIR` ring are joined over the pair link, which must be up (R559). -/
def State.halvesJoin (s : State) (w : Nat) : Bool :=
  decide ((s.port w).topo ≠ 3) || !bit (s.reg (Reg.vlkState w)) 4 || bit (s.reg Reg.pairLink) 0

/-- RING_UP (R367): the ring reaches its up phase. -/
def execRingUp (p : Nat) (s : State) : Host.Outcome State Fault Refusal :=
  let w := s.westOf p
  done (if s.ringsOn && s.ringThere p && s.ringReady w && s.halvesJoin w && decide (s.ringPhase w ≠ 4) then
    let s := (s.ringPorts w).foldl (portUp w) s
    let s := showStations w s
    let cut := s.loopHop w
    -- the heads hold one record per channel; those beside the loop's hop loop back
    readyIfSettled (((s.stationsOf w).zip (List.range 32)).foldl (fun s e =>
      s.onHead (32 * w + e.2) fun h =>
        { h with
          chans := [], channels := e.1.channels, vendor := e.1.vendor, product := e.1.product
          loopE := h.loopE || decide (cut = some (e.2 + 1))
          loopW := h.loopW || (decide ((s.port w).topo ≠ 0) && decide (cut = some e.2)) }) s)
  else s)

/-- TRAIN_FAIL (R367): not up 10 ms after the start of training. -/
def execTrainFail (p : Nat) (s : State) : Host.Outcome State Fault Refusal :=
  done (if s.ringsOn && s.ringThere p && decide (1 ≤ s.ringPhase p ∧ s.ringPhase p ≤ 3)
 then
    readyIfSettled (trainFail p (s.waitTo ((s.port p).trainAt + 10000000)))
  else s)

/-- A guarded write of `VLK[p].CTRL` (R367, R380). -/
def vlkCtrl (p : Nat) (v : Word) (s : State) : State :=
  let s := if bit v 0 && s.power.mode == .ready then trainPort p s else s
  if bit v 1 && decide (s.ringPhase p = 4) then s.onPort (s.westOf p) fun x => { x with reclose := true } else s

/-- RETRAIN (R367) and RECLOSE (R380): the guarded write completes. -/
def execRetrain (p : Nat) (s : State) : Host.Outcome State Fault Refusal :=
  done (guardedPair 0x10 p (vlkCtrl p 1#32) s)
def execReclose (p : Nat) (s : State) : Host.Outcome State Fault Refusal :=
  done (guardedPair 0x10 p (vlkCtrl p 2#32) s)

/-- FRAME_LAUNCH (R16, R382): the frame of period `k` leaves port `p`, and its period begins. -/
def ringLaunch (k : Nat) (s : State) (p : Nat) : State :=
  if !s.up || !s.ringThere p then s
  else if !s.ringUp p then trainFrame s p
  else if s.paired && decide (s.pairPhase = 7) then s
  else
    let s := s.emit (.ring p (s.ringFrame p k (if s.running then 1 else 2)))
    let s := if s.carries p then s.onPort p RingPort.launched else s
    s.onPort p fun x => { x with good := [], arrived := false, closed := false, activeSeen := false, fwd := [] }

/-- All ports at a boundary. -/
def ringBoundary (k : Nat) (s : State) : State := (List.range s.part.rings).foldl (ringLaunch k) s

/-! ### Returning frames (R373, R378 to R380, R382) -/

/-- The segment of a channel in a frame. -/
def frameSeg (frame : Bytes) (i : Nat) : Bytes := (frame.drop (256 + 60 * i)).take 60

/-- The words of a ring sample record. -/
def segWords (seg : Bytes) : List Word := (bytesWords (seg.drop 22)).take 8

/-- A segment is good for a period (R373). -/
def State.segGood (s : State) (seg : Bytes) (c : Nat × Nat) : Bool :=
  decide (seg.length = 60 ∧ Bytes.num seg 54 4 = crc32 (seg.take 2 ++ (seg.drop 22).take 32)
    ∧ Bytes.num seg 0 2 % 128 = c.1 + 32 * c.2 ∧ Bytes.num seg 58 2 = s.tmu.period % 256)

/-- A good segment counts for the ring named by `w` (R371, R372, R385, R405). -/
def takeSegment (w : Nat) (c : Nat × Nat) (seg : Bytes) (s : State) : State :=
  let ws := segWords seg
  let key := 4 * c.1 + c.2
  let s := s.onPort w fun x =>
    { x with good := Map.set (fun _ => []) x.good key ws, last := Map.set (fun _ => []) x.last key ws }
  let st := ws.getD 7 0
  let i := s.reg (Reg.vlkStnInfo w c.1)
  let s := s.setReg (Reg.vlkStnInfo w c.1) (setBit i 6 (bit st 7))
  if bit st 6 && s.paired && s.pair.equal then (s.event Reg.pairStat 10).log 0x0504 1 w (w32 key) 0 else s

/-- Requests of a head update. -/
def updType (req : Bytes) : Bool := let t := Bytes.num req 1 1 % 128; decide (0x20 ≤ t ∧ t ≤ 0x23)

/-- A request of a head update is answered with a status, or has stayed unanswered (R526): the command that
waits for it replies. -/
def headUpdate (w : Nat) (req : Bytes) (status : Option Nat) (s : State) : State :=
  match s.inn.update with
  | none => s
  | some u =>
    match u.waiting with
    | none => s
    | some (n, seq) =>
      if u.dest = 1 ∧ u.port = w ∧ u.station = Bytes.num req 0 1 ∧ updType req then
        let type := Bytes.num req 1 1 % 128
        let stop (st : Nat) (s : State) : State :=
          let s := s.onPort w fun x => { x with side := x.side.without fun r => updType r && decide (Bytes.num r 0 1 = u.station) }
          let s := s.onInn fun i => { i with update := some { u with waiting := none } }
          setReply n seq (fun _ => { status := st, result := detail 0 }) s
        let ok (s : State) : State := setReply n seq (fun r => r) s
        match status, type with
        | some 0, 0x22 =>
          ok ((s.onInn fun i => { i with update := some { u with waiting := none, committed := true } }).event Reg.mgtStat 5
            |>.log 0x0402 0 w 1 (w32 u.station))
        | some 0, 0x23 =>
          ok ((s.onInn fun i => { i with update := none }).event Reg.mgtStat 5 |>.log 0x0406 0 w 1 (w32 u.station))
        | some 0, _ => s
        | some _, 0x23 => stop ST.axisState s
        | some _, _ => stop ST.signature (s.event Reg.mgtStat 5 |>.log 0x0403 1 w 1 (w32 u.station))
        | none, _ => stop ST.timeout s
      else s

/-- The response of a station to a request in progress (R382). -/
def sideResponse (w : Nat) (b : Bytes) (s : State) : State :=
  let x := s.port w
  let type := Bytes.num b 1 1
  let q := if type = 0x91 then x.plate else x.side
  let ok := decide (Bytes.num b 216 4 = crc32 (b.take 216)) && type.testBit 7
  if !ok || !q.busy || decide (Bytes.num b 3 1 ≠ q.seq ∨ Bytes.num b 2 1 = 1) then s
  else if type = 0x91 then s.setPort w { x with plate := q.next }
  else headUpdate w (q.reqs.headD []) (some (Bytes.num b 2 1)) (s.setPort w { x with side := q.next })

/-- A break is healed by loop-back: a frame that `at_` looped arrives at port `p` (R378). The ledger tells of the change
(DEDUCED, log 34). -/
def ringBroken (p at_ : Nat) (west : Bool) (s : State) : State :=
  let was := bit (s.reg (Reg.vlkState p)) 4
  let l := s.reg (Reg.vlkLoopStn p)
  let l := if west then setBits (setBits l 12 8 at_) 15 15 1 else setBits (setBits l 4 0 at_) 7 7 1
  let s := ((s.event (Reg.vlkStat p) 2).raise (Reg.vlkState p) 16#32).setReg (Reg.vlkLoopStn p) l
  if was then s else s.log 0x0600 1 p (w32 at_) 0

/-- The first whole frame after reclosing returns to port `p` (R380). -/
def ringClosed (p : Nat) (s : State) : State :=
  if !bit (s.reg (Reg.vlkState p)) 4 then s
  else ((s.lower (Reg.vlkState p) 16#32).setReg (Reg.vlkLoopStn p) 0).event (Reg.vlkStat p) 3

/-- What the header and the trailer of an arrived frame tell (R378, R380, R390). -/
def frameFlags (p : Nat) (frame : Bytes) (s : State) : State :=
  if Bytes.num frame 28 4 ≠ crc32 (frame.take 28) then s
  else
    let w := s.westOf p
    let x := s.port p
    let flags := Bytes.num frame 1 1
    let looped := flags.testBit 1
    let west := flags.testBit 3
    let t := frame.drop (frame.length - 16)
    let at_ := Bytes.num t 1 1
    let other := decide (x.topo = 3) && ((Bytes.num frame 2 1).testBit 7 != s.sideB)
    let s := if other && flags.testBit 0 then
        let s := s.onPort p fun y => { y with activeSeen := true }
        if s.active? then
          let s := s.event Reg.pairStat 9
          if s.sideB then s.onPair fun y => { y with clear := true } else s
        else s
      else s
    let n := (s.stationsOf w).length
    let short := if x.topo = 0 then decide (at_ + 1 ≠ n) && looped else looped
    let s := if short then ringBroken p (at_ % 32) west s else ringClosed p s
    if looped && decide (Bytes.num t 2 1 = 1) then
      s.onPort w fun y => { y with healable := true, reclose := y.reclose || (bit y.cfg 7 && s.leads) }
    else s.onPort w fun y => { y with healable := false }

/-- RETURNING_FRAME (R373, R379, R432): a frame arrives at port `p`, its `END` `ns` after the boundary. -/
def execReturningFrame (p ns : Nat) (frame : Bytes) (s : State) : Host.Outcome State Fault Refusal :=
  done (
    if !s.ringUp p then s
    else
      let w := s.westOf p
      let chans := s.ringChans w
      let s := if ns < s.tBase then s.advanceTo (s.tmu.period * s.tBase + ns) else s
      let s := s.setReg (Reg.vlkRetLast p) (w32 (min 0xFFFF ns))
      let s := s.setReg (Reg.vlkRetMax p) (w32 (max (s.reg (Reg.vlkRetMax p)).toNat (min 0xFFFF ns)))
      let segs := chans.zip ((List.range chans.length).map (frameSeg frame))
      let s := segs.foldl (fun s e => islandSegment w e.1.1 e.1.2 e.2 s) s
      let t := frame.drop (frame.length - 16)
      let whole := decide (frame.length = 272 + 60 * chans.length ∧ Bytes.num t 12 4 = crc32 (t.take 12))
      if !whole || (s.port p).closed || (s.port p).arrived || decide (s.field (Reg.vlkBudget p) 15 0 * 40 < ns) then s
      else
        let s := s.onPort p fun x => { x with arrived := true }
        let s := frameFlags p frame s
        let s := sideResponse w ((frame.drop 32).take 224) s
        segs.foldl (fun s e =>
          if s.segGood e.2 e.1 then
            let s := (takeSegment w e.1 e.2 s).onPort p fun x => { x with fwd := without (4 * e.1.1 + e.1.2) x.fwd }
            if (s.port p).topo = 3 && s.paired then
              pairSend 0 4 (p :: e.1.1 :: e.1.2 :: e.2.map BitVec.toNat) s else s
          else (s.countUp (Reg.vlkSegErr p) 31 0 1).event (Reg.vlkStat p) 6) s)

/-- FORWARDED_SEGMENT (R379): a segment of the partner counts for a channel that this device lacks, when it
arrives by the return deadline. -/
def execForwardedSegment (p station chan : Nat) (seg : Bytes) (s : State) : Host.Outcome State Fault Refusal :=
  done (
    if !s.ringUp p || decide ((s.port p).topo ≠ 3) || !s.paired || decide ((station, chan) ∉ s.ringChans p) then s
    else
      let s := islandSegment p station chan seg s
      let key := 4 * station + chan
      if (s.port p).closed || (Map.find? (s.port p).good key).isSome || !s.segGood seg (station, chan) then s
      else (takeSegment p (station, chan) seg s).onPort p fun x => { x with fwd := key :: x.fwd })

/-- RETURN_DEADLINE (R373): the return deadline of the period passes. -/
def returnDeadline (p : Nat) (s : State) : State :=
  if !s.ringUp p || (s.port p).closed then s
  else
    let s := s.advanceTo (s.tmu.period * s.tBase + s.field (Reg.vlkBudget p) 15 0 * 40)
    let s := s.setReg (Reg.vlkState p) (setBit (s.reg (Reg.vlkState p)) 5 (!(s.port p).fwd.isEmpty))
    let s := s.onPort p fun x => { x with closed := true }
    if (s.port p).arrived then s
    else (s.countUp (Reg.vlkLateCnt p) 31 0 1).event (Reg.vlkStat p) 5

def execReturnDeadline (p : Nat) (s : State) : Host.Outcome State Fault Refusal := done (returnDeadline p s)

/-! ### Channels of an axis, lost stations and status (R372, R378) -/

/-- The axes of a channel (R372). -/
def State.axesOf (s : State) (w station chan : Nat) : List Nat :=
  s.slots.filter fun a =>
    decide (s.pn a 5 = w ∧ s.pn a 6 = station ∧ s.pn a 7 = chan) && (decide (s.outKind a = 1) || decide (s.fbkSrc a = 0))

/-- The fault causes that the ring presents for a slot as its channel is mapped now (R24, R372, R378): its station is lost;
its latest good segment reports `DRV_FAULT` or `STO`. -/
def State.ringCauses (s : State) (n : Nat) : List Nat :=
  let w := s.pn n 5
  let v := match Map.find? (s.port w).last (4 * s.pn n 6 + s.pn n 7) with | some ws => ws.getD 7 0 | none => 0
  if s.axisType n = 0 ∨ (s.outKind n ≠ 1 ∧ s.fbkSrc n ≠ 0) then []
  else (if bit (s.reg (Reg.vlkLostMap w)) (s.pn n 6) then [ST.link] else []) ++ (if bit v 12 || bit v 14 then [ST.drive] else [])

/-- Every slot knows the causes that its ring presents. -/
def markCauses (s : State) : State :=
  (List.range s.part.slots).foldl (fun s n => s.onAxis n fun a => { a with present := s.ringCauses n }) s

/-- STATION_LOST (R378): bad in `LOST_N` consecutive periods. -/
def stationLost (w i : Nat) (s : State) : State :=
  let lim := max 1 (bits (s.port w).cfg 15 8)
  match (s.stationsOf w)[i]? with
  | some st =>
    if lim ≤ st.bad ∧ !bit (s.reg (Reg.vlkLostMap w)) i then
      let s := (s.ringPorts w).foldl (fun s q => (s.raise (Reg.vlkLostMap q) (bitw i)).event (Reg.vlkStat q) 4) s
      let s := s.log 0x0601 2 w (w32 i) 0
      (List.range st.channels).foldl (fun s c =>
        (s.axesOf w i c).foldl (fun s a => if s.axOn a then s.cause a ST.link else s) s) s
    else s
  | none => s

def execStationLost (p station : Nat) (s : State) : Host.Outcome State Fault Refusal :=
  done (if s.ringUp p then markCauses (stationLost (s.westOf p) station s) else s)

/-- A station at a sealing: whether its segments were good in the period (none of them: bad; DEDUCED, log 34),
and what the latest good ones report (R372, R378). -/
def judgeStation (w : Nat) (s : State) (i : Nat) : State :=
  match (s.stationsOf w)[i]? with
  | none => s
  | some st =>
    let rec_ (c : Nat) : Option (List Word) := Map.find? (s.port w).good (4 * i + c)
    let good := (List.range st.channels).any fun c => (rec_ c).isSome
    let s := onStation w i (fun x => { x with bad := if good then 0 else x.bad + 1 }) s
    let s := if good then (s.ringPorts w).foldl (fun s q => s.lower (Reg.vlkLostMap q) (bitw i)) s
      else stationLost w i s
    (List.range st.channels).foldl (fun s c =>
      match rec_ c with
      | none => s
      | some ws =>
        let v := ws.getD 7 0
        let drv := bit v 12 || bit v 14
        let s := if bit v 6 then s.event (Reg.vlkStat w) 10 else s
        (s.axesOf w i c).foldl (fun s a =>
          if !s.axOn a then s
          else
            let s := if drv then s.cause a ST.drive else s
            if bit v 13 then s.cause a ST.drops else s) s) s

/-- Every ring at a sealing. -/
def ringSeal (s : State) : State :=
  markCauses ((List.range s.part.rings).foldl (fun s w =>
    if s.ringUp w && decide ((s.port w).topo ≠ 2) then (List.range (s.stationsOf w).length).foldl (judgeStation w) s else s) s)

/-- SIDE_FAIL (R382): a request unanswered after 64 frames. -/
def execSideFail (p : Nat) (s : State) : Host.Outcome State Fault Refusal :=
  let told (q : SideQueue) (s : State) : State :=
    (s.event (Reg.vlkStat p) 7).log 0x0602 1 p (w32 (Bytes.num (q.reqs.headD []) 0 2)) 0
  done (
    let x := s.port p
    if !s.ringUp p then s
    else if x.side.busy && decide (64 ≤ x.side.age) then
      headUpdate p (x.side.reqs.headD []) none (told x.side (s.setPort p { x with side := x.side.next }))
    else if x.plate.busy && decide (64 ≤ x.plate.age) then told x.plate (s.setPort p { x with plate := x.plate.next })
    else s)

/-! ### Drive heads (R371, R376, R377, R380, R383) -/

/-- A drive head is known at a place: it was found there at the latest training that brought the ring up. -/
def State.hasHead (s : State) (w i : Nat) : Bool := decide (0 < (s.head (32 * w + i)).channels)

def Head.ch (h : Head) (c : Nat) : HeadCh := Map.get (fun _ => {}) h.chans c
def Head.onCh (h : Head) (c : Nat) (g : HeadCh → HeadCh) : Head :=
  { h with chans := Map.set (fun _ => {}) h.chans c (g (h.ch c)) }

/-- Channels of a station. -/
def State.headChans (s : State) (w i : Nat) : Nat := (s.head (32 * w + i)).channels

/-- A head switches the power stages of all its channels off, shorted windings too. -/
def stagesOff (n : Nat) (h : Head) : Head := (List.range n).foldl (fun h c => h.onCh c fun x => { x with on := false, shorted := false }) h

/-- The status word of a channel (R371): the bits of the sample with those of the head. -/
def Head.status (h : Head) (x : HeadCh) : Word :=
  let v := match x.record with
    | [] => 2#32
    | r => (r.getD 7 0) &&& 0xFF000F3F#32
  v ||| w32 (64 * b2n x.cmpDiff + 128 * b2n (h.loopW || h.loopE) + 4096 * b2n x.drvFault + 8192 * b2n x.zeroI
    + 16384 * b2n h.sto + 32768 * b2n x.downBad)

/-- A slot that a station has filled (R369, R376). -/
def Head.fill (h : Head) (c period : Nat) (slot : Bytes) : Bytes :=
  let x := h.ch c
  let f := ((x.record.take 7) ++ List.replicate (7 - min 7 x.record.length) 0).flatMap wordBytes ++ wordBytes (h.status x)
  let b := padTo 22 (slot.take 22) ++ f
  b ++ leBytes 4 (crc32 (b.take 2 ++ f)) ++ leBytes 2 (period % 256)

/-- The answer of a head to a request: status, data and the state after it (R381, R383). Of `IDENT` and `STATUS` the spec
gives what they tell and no layout (DESIGN CHOICE, log 35: in the order of R381, with free words for what only the head
knows); the data of `DELAY_REPORT` is free. -/
def sideAnswer (w i : Nat) (req : Bytes) (s : State) : (Nat × Bytes) × State :=
  let type := Bytes.num req 1 1 % 128
  let data := (req.drop 8).take (Bytes.num req 4 2)
  let part := Bytes.num data 0 1 % 4
  let place := (w * 32 + i) * 4 + part
  let plate := s.plate place
  let o := Bytes.num data 2 2
  let at_ := 32 * w + i
  let h := s.head at_
  let own (k n : Nat) : Bytes := ((List.range n).map fun j => Config.word (s.draws + k + j)).flatMap wordBytes
  let drawn (n : Nat) : State := { s with draws := s.draws + n }
  match type with
  | 0x01 =>
    ((0, leBytes 2 h.vendor ++ leBytes 2 h.product ++ own 0 1 ++ leBytes 1 h.channels ++ zeros 3 ++ own 1 (2 * h.channels + 2)),
      drawn (2 * h.channels + 3))
  | 0x02 =>
    ((0, own 0 4 ++ leBytes 1 (b2n h.loopW + 2 * b2n h.loopE) ++ leBytes 1 (b2n ((h.loopW && h.healW) || (h.loopE && h.healE)))), drawn 4)
  | 0x03 =>
    let o := Bytes.num data 0 2
    ((0, []), s.onHead at_ fun h =>
      { h with cfg := ((data.drop 2).zip (List.range 206)).foldl (fun m e => Map.set (fun _ => none) m (o + e.2) (some e.1)) h.cfg })
  | 0x04 =>
    let o := Bytes.num data 0 2
    ((0, leBytes 2 o ++ (List.range 206).map fun k =>
      ((Map.get (fun _ => none) h.cfg (o + k) : Option Byte).getD (Config.headCfg at_ (o + k)))), s)
  | 0x05 =>
    let d := Bytes.num data 2 4
    ((0, []), s.onHead at_ fun h => if Bytes.num data 0 1 = 0 then { h with delayW := some d } else { h with delayE := some d })
  | 0x06 => ((0, own 0 1), drawn 1)
  | 0x10 => if plate.isEmpty then ((2, []), s) else ((0, (plate.drop o).take 200), s)
  | 0x11 =>
    if plate.isEmpty then ((2, []), s)
    else
      let p2 := padTo plate.length (plate.take o ++ data.drop 4 ++ plate.drop (o + (data.drop 4).length))
      ((0, []), s.onInn fun n => { n with plates := Map.set (fun _ => []) n.plates place p2 })
  | 0x20 => ((0, []), s.onHead at_ fun h => { h with upd := [] })
  | 0x21 => ((0, []), s.onHead at_ fun h => { h with upd := h.upd ++ data })
  | 0x22 => ((if Config.num s.draws % 2 = 0 then 0 else 2, []), { s with draws := s.draws + 1 })
  | 0x23 =>
    let still := (List.range (s.headChans w i)).all fun c => decide ((h.ch c).kind = 3)
    if still then ((0, []), s.onHead at_ fun h => { h with image := 1 }) else ((2, []), s)
  | _ => ((3, []), s)

/-- The words of a frame for the channels of a head (R376, `Selection`). -/
def Head.takeWords (h : Head) (active : Bool) (words : List (Nat × Option (Nat × List Word))) : Head :=
  words.foldl (fun h e => match e.2 with
    | none => h
    | some x => h.onCh e.1 fun c =>
      if active && c.wordA.isNone then { c with wordA := some x }
      else if c.wordB.isNone then { c with wordB := some x } else c) h

/-- The good word of a slot for station `i`, channel `c` (R376, `Output check`). -/
def slotWord (slot : Bytes) (i c : Nat) : Option (Nat × List Word) :=
  let h := Bytes.num slot 0 2
  if Bytes.num slot 18 4 = crc32 (slot.take 18) ∧ h % 128 = i + 32 * c then
    some (h / 128 % 4, (bytesWords (slot.drop 2)).take 4)
  else none

/-- Each looping station whose lost link has trained again ends its loop-back (R380; every one of the ring,
although the frame that carries `RECLOSE` reaches only the first: DEDUCED, log 34). -/
def endLoops (w : Nat) (s : State) : State :=
  (List.range (s.stationsOf w).length).foldl (fun s i =>
    s.onHead (32 * w + i) fun h =>
      { h with loopW := h.loopW && !h.healW, loopE := h.loopE && !h.healE, healW := false, healE := false }) s

/-- The descriptor that station `i` appends to the side-channel word of a discovery frame (R367; in the data after those
before it, `LEN` counting them and `SCRC` recomputed: DEDUCED, log 34). What a head declares that no earlier training
and no hop told of is free (log 35); an east hop that has not trained is down. -/
def describe (w i : Nat) (frame : Bytes) (s : State) : Bytes × State :=
  let h := s.head (32 * w + i)
  let f (k : Nat) : Nat := Config.num (s.draws + k)
  let hop (n : Nat) : Option Nat := Map.find? (s.port w).hopVer n
  let known := decide (0 < h.channels)
  let d := leBytes 1 (if known then h.channels else 1 + f 0 % 4) ++ leBytes 1 ((hop i).getD (1 + f 1 % 2) + 16 * (hop (i + 1)).getD 0)
    ++ leBytes 2 (if known then h.vendor else f 3) ++ leBytes 2 (if known then h.product else f 4)
  let x := (frame.drop 32).take 224
  let len := Bytes.num x 4 2
  let b := x.take 4 ++ leBytes 2 (len + 6) ++ [0, 0] ++ padTo 208 (((x.drop 8).take (min len 202)) ++ d)
  (frame.take 32 ++ b ++ leBytes 4 (crc32 b) ++ zeros 4 ++ frame.drop 256, { s with draws := s.draws + 5 })

/-- While the ring trains, the link port of station `i` that a frame would leave by is down: the station is the last one of an
open ring, or the ring is broken there (R367, R559). -/
def State.endsHere (s : State) (w i : Nat) (fromWest : Bool) : Bool :=
  if fromWest then !s.eastEnd w && decide ((Map.find? (s.port w).hopVer (i + 1)).getD 0 = 0)
  else if (s.port w).topo = 1 then decide (i = (s.port w).stations.length) && bit (s.reg (Reg.vlkState w)) 4
  else
    let n := (s.stationsOf w).length
    s.eastEnd w && decide (i < n ∧ (Map.find? (s.port w).hopVer (n - i)).getD 0 = 0)

/-- Replace the bytes of a frame from offset `o` on, as far as they have arrived. -/
def overlay (frame : Bytes) (o : Nat) (b : Bytes) : Bytes :=
  (frame.take o ++ b ++ frame.drop (o + b.length)).take frame.length

/-- Header and trailer as a station forwards the frame (R369, R377): it counts itself in `SEEN`, and marks a frame that it
loops. What has not arrived is not made up, what it does not change stays, and a check that was bad stays bad. -/
def forwardMarks (frame : Bytes) (i : Nat) (fill loops heals : Bool) : Bytes :=
  let h := frame.take 28
  let good := decide (32 ≤ frame.length ∧ Bytes.num frame 28 4 = crc32 h)
  let hd := overlay h 1 (leBytes 1 (Bytes.num frame 1 1 ||| 2))
  let frame := if !loops then frame else overlay frame 0 (if good then hd ++ leBytes 4 (crc32 hd) else hd)
  let o := if good then 256 + 60 * Bytes.num frame 3 1 else frame.length - 16
  let t := (frame.drop o).take 16
  if t.length < 16 ∨ (!fill && !loops) then frame
  else
    let marks := if loops then leBytes 1 i ++ leBytes 1 (b2n heals) else (t.drop 1).take 2
    let u := leBytes 1 (Bytes.num t 0 1 + b2n fill) ++ marks ++ (t.drop 3).take 9
    overlay frame o (if Bytes.num t 12 4 = crc32 (t.take 12) then u ++ leBytes 4 (crc32 u) else u)

/-- HEAD_FRAME_RECEIVE (R364, R367, R376, R377, R380, R381): a frame arrives at a link port of a head, which takes its
timing and words, fills its slots in an outbound frame, describes itself in a discovery frame, answers a request, and
forwards or loops the frame. -/
def execHeadFrameReceive (p i : Nat) (fromWest : Bool) (frame : Bytes) (s : State) : Host.Outcome State Fault Refusal :=
  let w := s.westOf p
  let h := s.head (32 * w + i)
  let n := s.headChans w i
  let before := ((List.range i).map (s.headChans w)).sum
  done (
    let whole := decide (Bytes.num frame 28 4 = crc32 (frame.take 28))
    let type := Bytes.num frame 0 1
    let ok := whole && decide (type = 1 ∨ type = 2)
    let flags := Bytes.num frame 1 1
    let training := whole && decide (type = 3 ∨ type = 4) && s.ringsOn && s.ringThere p && decide (i < 32)
    if !s.hasHead w i && !training then s
    else if if fromWest then h.loopW else h.loopE then
      if ok && flags.testBit 2 && (if fromWest then h.healW else h.healE) then endLoops w s else s
    else
      let ret := flags.testBit 1
      let west := flags.testBit 3
      let per := Bytes.word frame 4
      let held := if west then h.delayE.isSome else h.delayW.isSome
      let outbound := !ret && (fromWest == !west)
      let h := if ok && outbound && held then { h with period := per, usable := true, missed := 0 } else h
      let words := (List.range n).map fun c => (c, if ok && outbound then slotWord (frameSeg frame (before + c)) i c else none)
      let h := h.takeWords (flags.testBit 0) words
      let s := s.setHead (32 * w + i) h
      -- insertion
      let mine := ((List.range n).map fun c => h.fill c per.toNat (frameSeg frame (before + c))).flatten
      let fill := ok && outbound
      let came := frame
      let frame := if fill then overlay frame (256 + 60 * before) mine else frame
      -- discovery
      let r := if whole && outbound && decide (type = 3) then describe w i frame s else (frame, s)
      let frame := r.1
      let s := r.2
      -- side channel
      let req := (frame.drop 32).take 224
      let asked := fill && decide (Bytes.num req 0 1 = i ∧ Bytes.num req 1 1 ≠ 0 ∧ Bytes.num req 1 1 < 128 ∧ Bytes.num req 216 4 = crc32 (req.take 216))
      let a := if asked then sideAnswer w i req s else ((0, []), s)
      let s := a.2
      let frame := if asked then
          overlay frame 32 (sideWord i (Bytes.num req 1 1 + 128) a.1.1 (Bytes.num req 3 1) a.1.2)
        else frame.take came.length
      -- trailer and loop-back
      let loops := (if fromWest then h.loopE else h.loopW) || (training && s.endsHere w i fromWest)
      let frame := forwardMarks frame i fill loops (if fromWest then h.healE else h.healW)
      let s := s.emit (.head w i (fromWest != loops) frame)
      if ok && flags.testBit 2 && (h.healW || h.healE) then endLoops w s else s)

/-- ZERO_I (R376): the second consecutive stale period switches the power stage off. -/
def zeroI (c : Nat) (h : Head) : Head :=
  if 2 ≤ (h.ch c).run then h.onCh c fun x => { x with zeroI := true, on := false, shorted := false } else h

def execZeroI (p i c : Nat) (s : State) : Host.Outcome State Fault Refusal :=
  let w := s.westOf p
  done (if s.hasHead w i && decide (c < s.headChans w i) then s.onHead (32 * w + i) (zeroI c) else s)

/-- HEAD_FRAME_LOSS (R376): two periods without a usable frame. -/
def frameLoss (n : Nat) (h : Head) : Head := if 2 ≤ h.missed then stagesOff n h else h

def execHeadFrameLoss (p i : Nat) (s : State) : Host.Outcome State Fault Refusal :=
  let w := s.westOf p
  done (if s.hasHead w i then s.onHead (32 * w + i) (frameLoss (s.headChans w i)) else s)

/-- One channel at the apply time (R370, R376). -/
def applyCh (h : Head) (c : Nat) : Head :=
  let x := h.ch c
  let pick := match x.wordA with | some a => some a | none => x.wordB
  let differ := match x.wordA, x.wordB with | some a, some b => decide (a ≠ b) | _, _ => false
  let x := { x with wordA := none, wordB := none, cmpDiff := differ, downBad := pick.isNone }
  match pick with
  | some (0, outs) =>
    h.onCh c fun _ => { x with kind := 0, outs := outs, on := !h.sto, shorted := false, run := 0, zeroI := false }
  | some (2, _) => h.onCh c fun _ => { x with kind := 2 }
  | some (3, outs) =>
    h.onCh c fun _ => { x with kind := 3, on := false, shorted := bit (outs.headD 0) 0, run := 0, zeroI := false }
  | _ => zeroI c (h.onCh c fun _ => { x with kind := 1, run := x.run + 1 })

/-- HEAD_APPLY (R374, R376): a head applies its selected words at the apply time; without a usable frame the period is
`STALE` whatever words came. -/
def execHeadApply (p i : Nat) (s : State) : Host.Outcome State Fault Refusal :=
  let w := s.westOf p
  done (
    if !s.hasHead w i then s
    else
      let n := s.headChans w i
      let s := if s.ringUp w then s.advanceTo (s.tmu.period * s.tBase + s.applyTicks w * 40) else s
      s.onHead (32 * w + i) fun h =>
        let h := if h.usable then { h with usable := false, missed := 0 }
          else (List.range n).foldl (fun h c => h.onCh c fun x => { x with wordA := none, wordB := none }) { h with missed := h.missed + 1 }
        frameLoss n ((List.range n).foldl applyCh h))

/-- STATION_LINK_LOSS (R377): a station loses a link port and loops frames back. -/
def execStationLinkLoss (p i : Nat) (eastPort : Bool) (s : State) : Host.Outcome State Fault Refusal :=
  let w := s.westOf p
  done (if s.hasHead w i then
    s.onHead (32 * w + i) fun h => if eastPort then { h with loopE := true, healE := false } else { h with loopW := true, healW := false }
  else s)

/-- UPD_ACTIVATE (R383): a head changes its firmware image while every channel receives `DISABLED` words; it
keeps the former one if the new one does not start. -/
def execUpdActivate (p i : Nat) (starts : Bool) (s : State) : Host.Outcome State Fault Refusal :=
  let w := s.westOf p
  done (if s.hasHead w i && (List.range (s.headChans w i)).all (fun c => decide (((s.head (32 * w + i)).ch c).kind = 3)) then
    s.onHead (32 * w + i) fun h => { h with image := if starts then 1 else 0 }
  else s)

/-- SAFE_TORQUE_OFF_INPUT (R376): the STO input of a head. -/
def execSafeTorqueOffInput (p i : Nat) (active : Bool) (s : State) : Host.Outcome State Fault Refusal :=
  let w := s.westOf p
  done (if s.hasHead w i then
    s.onHead (32 * w + i) fun h => let h := { h with sto := active }; if active then stagesOff (s.headChans w i) h else h
  else s)

/-- POWER_STAGE_FAULT (R371): reported as `DRV_FAULT` from then on, until the head is trained again. -/
def execPowerStageFault (p i c : Nat) (s : State) : Host.Outcome State Fault Refusal :=
  let w := s.westOf p
  done (if s.hasHead w i && decide (c < s.headChans w i) then
    s.onHead (32 * w + i) fun h => h.onCh c fun x => { x with drvFault := true }
  else s)

/-- A sample of a channel (R371): `IN1` is 0 on kinds 0 and 2 before an index edge. -/
def HeadCh.sample (x : HeadCh) (kind : Nat) (r : List Word) : HeadCh :=
  let st := r.getD 7 0
  let cap := bit st 0 || (x.captured && !bit st 5)
  { x with record := if kind ≠ 1 ∧ !cap then r.set 1 0 else r, captured := cap }

/-- The heads sample (R371, R376); what they measure is free (log 35). -/
def sampleHead (w : Nat) (s : State) (i : Nat) : State :=
  (List.range (s.headChans w i)).foldl (fun s c =>
    let r := (List.range 8).map fun k => Config.word (s.draws + k)
    let s := { s with draws := s.draws + 8 }
    s.onHead (32 * w + i) fun h => h.onCh c fun x => x.sample (Config.headKind (32 * w + i) c % 3) r) s

/-- The sample instant of ring port `i`, or with 8 of the local channels: that of this period with the offset
0, that of the next with one before its boundary (R15, R470). -/
def State.sampleNs (s : State) (i : Nat) : Nat :=
  let ofs := s.smpOfs i
  if ofs = 0 then s.tmu.period * s.tBase else (s.tmu.period + 1) * s.tBase - ofs.natAbs

/-- What has its sample of this period still before it: a ring port, or with 8 the local channels, whose count taps
serve the island below READY too (R421, R423). -/
def State.samples (s : State) (i : Nat) : Bool :=
  !s.tmu.sampled.contains i && (decide (i = 8) || (s.up && s.ringUp i && decide ((s.port i).topo ≠ 2)))

/-- What samples next: all whose instant is the earliest. -/
def State.sampleDue (s : State) : List Nat :=
  let l := (List.range 9).filter s.samples
  l.filter fun i => l.all fun j => decide (s.sampleNs i ≤ s.sampleNs j)

/-- Every station of the ring of port `i` samples, or with 8 every local channel. -/
def sampleUnit (s : State) (i : Nat) : State :=
  if i = 8 then islandLocal (if s.up then sampleLocal s else s) else (List.range (s.stationsOf i).length).foldl (sampleHead i) s

/-- SAMPLE_TIME (R15, R223, R374, R432): the next sample instant of the period comes, and what is due then
samples. -/
def execSampleTime (s : State) : Host.Outcome State Fault Refusal :=
  done (
    match (if s.serves then s.sampleDue else []) with
    | [] => s
    | i :: l => ((i :: l).foldl sampleUnit (s.advanceTo (s.sampleNs i))).onTmu fun t => { t with sampled := i :: l ++ t.sampled })

end Sys2Proof.Machine
end

