-- ==== Sys2Proof/Machine/Porter.lean ====
section
/-!
DEFINITION. Sessions, the command journal and the Porter (chapter 04): rings, acceptance, dependencies,
ready lists, replies, opening, halting and closing.
-/
namespace Sys2Proof.Machine

/-! ### Session registers and settings (R100 to R105, R126) -/

/-- State of session `n`: 0 CLOSED, 2 OPEN, 3 HALTED, 4 CLOSING. -/
def State.sesState (s : State) (n : Nat) : Nat := s.field (Reg.cmdState n) 2 0

/-- A sequence number is at or below another (R104). -/
def seqLe (a b : Word) : Bool := decide ((b - a).toNat < 2 ^ 31)

/-- Slots of each ring of an open session. -/
def SesCfg.depth (c : SesCfg) : Nat := 2 ^ bits c.cfg 7 4
/-- The rings lie in shared SRAM. -/
def SesCfg.sqSram (c : SesCfg) : Bool := bit c.cfg 2
def SesCfg.cqSram (c : SesCfg) : Bool := bit c.cfg 3
/-- Bytes of a completion slot. -/
def SesCfg.cqSlot (c : SesCfg) : Nat := if bit c.cfg 8 then 512 else 64
/-- Commands that may be in flight. -/
def SesCfg.credit (c : SesCfg) : Nat := max 1 (min 256 (bits c.cfg 24 16))
/-- Porter priority. -/
def SesCfg.prio (c : SesCfg) : Nat := bits c.cfg 1 0
/-- Where a ring in shared SRAM begins: only bits [23:12] of the low word are used (R126). -/
def sramBase (b : BitVec 64) : Nat := Sys2Proof.field b.toNat 23 12 * 4096

/-- Commands in flight of a session (R105): accepted and unretired, and retired without a written reply. -/
def Session.inFlight (x : Session) : Nat :=
  (x.flights.filter fun f => decide (f.phase ≠ .mirror)).length + x.replies.length

/-- The sequence number of a flight. -/
def Flight.seq (f : Flight) : Word := f.pkt.hdr.seq

/-- A session can be of a number that exists, with `CMD` powered. -/
def State.cmdUp (s : State) (n : Nat) : Bool := s.up && decide (n < 4)

/-- The session halts (R102, R107, R96). DESIGN CHOICE (log 37): one that was CLOSING goes on closing when it
is resumed. -/
def haltSes (n cause : Nat) (s : State) : State :=
  let s := if s.sesState n = 4 then s.onSes n fun x => { x with closing := true } else s
  let s := s.setField (Reg.cmdState n) 2 0 3
  (s.setField (Reg.cmdState n) 19 16 cause).event (Reg.cmdStat n) 3

/-- Rewrite a session's journal record, both copies (R120). DESIGN CHOICE (log 37): a command of a pair that a
reset finds between steps 2 and 4 of R108 is reported discarded, since its record holds its number. -/
def writeJournal (n : Nat) (isOpen : Bool) (s : State) : State :=
  s.setJrn n
    { isOpen := isOpen, ver := BitVec.ofNat 8 (s.field (Reg.cmdState n) 15 8),
      accepted := match ((s.ses n).flights.getLast?) with
        | some f => if f.phase = .mirror then f.seq else s.reg (Reg.cmdAcceptedSeq n)
        | none => s.reg (Reg.cmdAcceptedSeq n)
      retired := s.reg (Reg.cmdRetiredSeq n), copyA := true, copyB := true }

/-- Send the session record to the partner (R396). -/
def sendSession (n : Nat) (s : State) : State :=
  if s.paired && s.active? then
    let c := (s.ses n).opened
    pairSend 2 14 [n, c.cfg.toNat, c.sqBase.toNat, c.cqBase.toNat, s.field (Reg.cmdState n) 15 8,
      (s.reg (Reg.cmdNextSeq n)).toNat, (s.reg (Reg.cmdRetiredSeq n)).toNat] s
  else s

/-- `CMD` writes of this device go to the Active: it is a Standby of a pair (R396). -/
def State.forwards (s : State) : Bool :=
  s.paired && !s.active? && decide (s.pairPhase = 4 ∨ s.pairPhase = 5)

/-! ### Targets and dependencies (R113, R114, R129) -/

/-- The slots that a target names by itself. -/
def State.targetSlots (s : State) (t : Nat) : List Nat :=
  if t < 128 then [t] else if 0x8000 ≤ t ∧ t < 0x8020 then (s.group (t - 0x8000)).members else []

/-- Two targets overlap (R113). -/
def State.overlaps (s : State) (a b : Nat) : Bool :=
  decide (a = b ∨ a = 0xFFFF ∨ b = 0xFFFF)
    || (decide (a < 128) && decide (0x8000 ≤ b) && decide (a ∈ s.targetSlots b))
    || (decide (b < 128) && decide (0x8000 ≤ a) && decide (b ∈ s.targetSlots a))

/-- Extension of the dependency field to a full sequence number (R129). -/
def extendDep (ref : Word) (low : BitVec 16) : Word :=
  let d := (low - BitVec.ofNat 16 ref.toNat).toInt
  ref + BitVec.ofInt 32 d

/-- The dependency of a packet, extended at acceptance (R129). -/
def State.dependency (s : State) (h : Hdr) : Option (Nat × Word) :=
  if h.dep then
    let n := h.depSes.toNat
    some (n, extendDep (if n = h.ses then h.seq else s.reg (Reg.cmdAcceptedSeq n)) h.depSeq)
  else none

/-- Where a flight's dependency stands: 0 met, 1 unmet, 2 never to be met (R113, R114). -/
def State.depState (s : State) (f : Flight) : Nat :=
  match f.dep with
  | none => 0
  | some (n, d) =>
    if n = f.pkt.hdr.ses ∧ seqLe f.seq d then 2
    else if s.sesState n = 0 then 2
    else if (match (s.ses n).disc with | some (a, b) => seqLe a d && seqLe d b | none => false) then 2
    else if seqLe d (s.reg (Reg.cmdRetiredSeq n)) then 0 else 1

/-- No earlier unretired command of the session overlaps the target of the flight (R113). -/
def State.targetFree (s : State) (n : Nat) (seq : Word) (target : Nat) : Bool :=
  (s.ses n).flights.all fun g =>
    decide (g.seq = seq) || !seqLe g.seq seq || !s.overlaps g.pkt.hdr.target.toNat target

/-! ### The Porter's lists (R110 to R112, R127) -/

/-- The ready list of a priority. -/
def State.readyList (s : State) (p : Nat) : List Task := Map.get (fun _ => []) s.porter.ready p
/-- Write a ready list. -/
def State.setReady (s : State) (p : Nat) (l : List Task) : State :=
  s.onPorter fun q => { q with ready := Map.set (fun _ => []) q.ready p l }
/-- What a service core runs. -/
def State.coreTask (s : State) (c : Nat) : Option Task := Map.get (fun _ => none) s.porter.cores c
/-- Give a core a task, or take it away. -/
def State.setCore (s : State) (c : Nat) (t : Option Task) : State :=
  s.onPorter fun q => { q with cores := Map.set (fun _ => none) q.cores c t }

/-- The tasks of every entry in use (DESIGN CHOICE, log 37: a running task keeps its entry). -/
def State.tasks (s : State) : List Task :=
  (List.range 4).flatMap s.readyList ++ s.porter.delay.map (·.2.2) ++ s.porter.wait ++ s.porter.cores.filterMap (·.2)

/-- Entries in use, those of commands, and those of firmware tasks (R110). -/
def State.entries (s : State) : Nat := s.tasks.length
def State.cmdEntries (s : State) : Nat := (s.tasks.filter fun t => decide (t.ses < 4)).length
def State.fwEntries (s : State) : Nat := (s.tasks.filter fun t => decide (4 ≤ t.ses)).length

/-- `PTR.PEAK` follows the counts (R127). -/
def notePeak (s : State) : State :=
  let a := max (s.field Reg.ptrPeak 11 0) s.entries
  let b := max (s.field Reg.ptrPeak 27 16) s.porter.delay.length
  s.setReg Reg.ptrPeak (w32 (a + b * 65536))

/-- The last command entry has been taken (R106, R127). -/
def noteFull (s : State) : State := if 1024 ≤ s.cmdEntries then s.event Reg.ptrStat 0 else s

/-- Update a flight of a session. -/
def onFlight (n : Nat) (seq : Word) (g : Flight → Flight) (s : State) : State :=
  s.onSes n fun x => { x with flights := x.flights.map fun f => if f.seq = seq then g f else f }

/-- A command that ends without being interpreted or at the end of its run: its reply waits for
retirement. -/
def finishFlight (n : Nat) (seq : Word) (r : Reply) (s : State) : State :=
  onFlight n seq (fun f => { f with phase := .finished, reply := some r }) s

/-- The reply of a failed dependency (R114). -/
def busyReply : Reply := { status := ST.busy, result := detail 0 }

/-- Put a command's task at the tail of its session's ready list. -/
def makeReady (n : Nat) (seq : Word) (s : State) : State :=
  let p := (s.ses n).opened.prio
  let s := s.setReady p (s.readyList p ++ [{ ses := n, seq := seq, since := s.inn.uptime }])
  notePeak (onFlight n seq (fun f => { f with phase := .ready }) s)

/-- Examine a waiting command (R113, R114). -/
def examine (s : State) (n : Nat) (f : Flight) : State :=
  if f.phase = .parked then
    let drop := s.onPorter fun q => { q with wait := q.wait.filter fun t => !decide (t.ses = n ∧ t.seq = f.seq) }
    match s.depState f with
    | 2 => finishFlight n f.seq busyReply drop
    | 0 => if s.targetFree n f.seq f.pkt.hdr.target.toNat then makeReady n f.seq drop else s
    | _ => s
  else s

/-- Every waiting command is examined again (R113). -/
def examineAll (s : State) : State :=
  (List.range 4).foldl (fun s n => (s.ses n).flights.foldl (fun s f => examine s n f) s) s

/-- Create the Porter task of an accepted command, its dependency extended at this moment (R108 step 5,
R129). -/
def createTask (n : Nat) (seq : Word) (s : State) : State :=
  let s := onFlight n seq
    (fun f => { f with phase := .parked, dep := s.dependency f.pkt.hdr, tick := s.reg Reg.ptrTick }) s
  let s := noteFull (notePeak (s.onPorter fun q =>
    { q with wait := q.wait ++ [{ ses := n, seq := seq, since := s.inn.uptime }] }))
  match (s.ses n).flights.find? (fun f => f.seq = seq) with
  | some f => examine s n f
  | none => s

/-- The tick comes to `k`, unless it is there already; due entries move to the tails of their ready lists
in delay-list order (R111). An event that the spec puts at the end of a wait brings the tick there when
fewer were listed (DESIGN CHOICE, log 12). -/
def tickTo (k : Word) (s : State) : State :=
  if seqLe k (s.reg Reg.ptrTick) then s
  else
    let s := s.setReg Reg.ptrTick k
    let isDue := fun (e : Word × Nat × Task) => seqLe e.1 k
    let moved := s.porter.delay.filter isDue
    let s := s.onPorter fun q => { q with delay := q.delay.filter fun e => !isDue e }
    moved.foldl (fun s e => s.setReady e.2.1 (s.readyList e.2.1 ++ [{ e.2.2 with since := s.inn.uptime }])) s

/-- Put an entry into a delay list: by wake tick, entries with the same tick in the order of insertion
(R111). -/
def delayInsert (e : Word × Nat × Task) : List (Word × Nat × Task) → List (Word × Nat × Task)
  | [] => [e]
  | x :: r => if seqLe x.1 e.1 then x :: delayInsert e r else e :: x :: r

/-- A firmware task waits at least one tick and at most 2^31 of them (R111). -/
def delayTask (w : Word) (t : Task) (s : State) : State :=
  notePeak (s.onPorter fun q =>
    { q with delay := delayInsert (s.reg Reg.ptrTick + w32 (max 1 (w.toNat % 2 ^ 31)), t.prio, t) q.delay })

/-- The tasks that firmware starts at a tick, so far as its entries reach (R110). -/
def firmwareStarts (s : State) : State :=
  let d := s.draw
  (Config.fwTasks d.1).foldl (fun s e =>
    if s.fwEntries < 1024 then delayTask e.1 { ses := 4, prio := e.2 % 4 } s else s) d.2

/-- Moves of a tick that are not over before the next one (R111); how long they take is free (log 47). -/
def lateTick (moves : Bool) (s : State) : State :=
  if moves then
    let d := s.draw
    if Config.num d.1 % 2 = 1 then d.2.event Reg.ptrStat 1 else d.2
  else s

/-- PORTER_TICK (R111). -/
def execPorterTick (s : State) : Host.Outcome State Fault Refusal :=
  done (if s.up then
    let k := s.reg Reg.ptrTick + 1
    firmwareStarts (lateTick (s.porter.delay.any fun e => seqLe e.1 k) (tickTo k s))
  else s)

/-- The run of a firmware task ends: it is over, or it yields its core (R112). -/
def firmwareEnds (c : Nat) (t : Task) (s : State) : State :=
  let d := s.draw
  let s := d.2.setCore c none
  match Config.fwEnd d.1 with
  | none => s
  | some w =>
    if w = 0 then s.setReady t.prio (s.readyList t.prio ++ [{ t with since := s.inn.uptime }]) else delayTask w t s

/-- The ready list that is served next (R112). -/
def State.nextReady (s : State) : Option Nat :=
  let share := max 2 (s.field Reg.ptrCfg 4 0)
  if !(s.readyList 3).isEmpty && decide (share ≤ s.porter.sinceP3) then some 3
  else (List.range 4).find? fun p => !(s.readyList p).isEmpty

/-- Core `c` is a live service core without a task. -/
def State.coreIdle (s : State) (c : Nat) : Bool :=
  s.up && decide (c < 4) && s.capX (16 + c) && (s.coreTask c).isNone

/-- An idle core receives the next ready task (R112). -/
def dispatch (c : Nat) (s : State) : State :=
  if s.coreIdle c then
    match s.nextReady with
    | none => s
    | some p =>
      match s.readyList p with
      | [] => s
      | t :: r =>
        let lat := min 0xFFFF ((s.inn.uptime - t.since) / 40)
        let s := (s.setReady p r).setCore c (some t)
        let s := s.onPorter fun q => { q with sinceP3 := if p = 3 then 0 else q.sinceP3 + 1 }
        let s := s.countUp Reg.ptrDispatchCnt 31 0 1
        let s := s.setField Reg.ptrMaxlat 15 0 (max (s.field Reg.ptrMaxlat 15 0) lat)
        onFlight t.ses t.seq (fun f => { f with phase := .running }) s
  else s

/-- TASK_DISPATCH (R112). -/
def execTaskDispatch (c : Nat) (s : State) : Host.Outcome State Fault Refusal := done (dispatch c s)

/-- CORE_STALL (R112): a run goes beyond 40 µs. -/
def execCoreStall (c : Nat) (s : State) : Host.Outcome State Fault Refusal :=
  done (if s.up && (s.coreTask c).isSome then s.event Reg.ptrStat 2 else s)

/-- `DEP_TMO` of a session in Porter ticks. -/
def State.depTmo (s : State) (n : Nat) : Nat := max 1 (s.field (Reg.cmdDepTmo n) 15 0) * 1000

/-- A dependency unmet after `DEP_TMO` (R114). -/
def depTimeout (n : Nat) (seq : Word) (s : State) : State :=
  match (s.ses n).flights.find? (fun f => f.seq = seq) with
  | some f =>
    if f.phase = .parked ∧ s.depState f = 1 then
      finishFlight n seq busyReply
        ((tickTo (f.tick + w32 (s.depTmo n)) s).onPorter fun q => { q with wait := q.wait.filter fun t => !decide (t.ses = n ∧ t.seq = seq) })
    else s
  | none => s

/-- DEPENDENCY_TIMEOUT (R114). -/
def execDependencyTimeout (n : Nat) (seq : Word) (s : State) : Host.Outcome State Fault Refusal :=
  done (if s.cmdUp n then depTimeout n seq s else s)

/-- The `PTR` registers that are views (R127). -/
def State.ptrView (s : State) (a : Nat) : Option Word :=
  let len := fun p => (s.readyList p).length
  if a = Reg.ptrEntries then
    some (w32 (s.entries + 65536 * s.cmdEntries))
  else if a = Reg.ptrReady01 then some (w32 (len 0 + 65536 * len 1))
  else if a = Reg.ptrReady23 then some (w32 (len 2 + 65536 * len 3))
  else if a = Reg.ptrParked then some (w32 (s.porter.delay.length + 65536 * s.porter.wait.length))
  else if a = Reg.ptrCore then
    some (w32 (((List.range 4).map fun c => b2n (s.coreTask c).isSome * 2 ^ c).sum
      + 16 * s.field Reg.sysCapLiveX 19 16))
  else none

/-! ### Acceptance (R106 to R108, R392, R393) -/

/-- A packet of the submission ring, and its `LEN` field (R128). -/
def packetOf (n : Nat) (b : Bytes) : Packet × Nat :=
  let w := Bytes.num b 2 2
  let len := Sys2Proof.field w 8 0
  ({ op := Bytes.num b 0 2,
     hdr := { ses := n, seq := Bytes.word b 4, target := BitVec.ofNat 16 (Bytes.num b 8 2),
              dep := w.testBit 12, depSes := BitVec.ofNat 2 (Sys2Proof.field w 10 9),
              depSeq := BitVec.ofNat 16 (Bytes.num b 10 2), ep := w.testBit 11,
              effect := Bytes.word b 12, flags := BitVec.ofNat 3 (Sys2Proof.field w 15 13) },
     payload := (b.drop 16).take len }, len)

/-- The 16 bytes of a packet's header and its payload. -/
def Packet.bytes (k : Packet) : Bytes :=
  leBytes 2 k.op
    ++ leBytes 2 (k.payload.length % 512 + 512 * k.hdr.depSes.toNat + 2048 * b2n k.hdr.ep
        + 4096 * b2n k.hdr.dep + 8192 * k.hdr.flags.toNat)
    ++ wordBytes k.hdr.seq ++ leBytes 2 k.hdr.target.toNat ++ leBytes 2 k.hdr.depSeq.toNat
    ++ wordBytes k.hdr.effect ++ k.payload

/-- The first boundary at least `ns` nanoseconds from now. -/
def State.boundaryAfter (s : State) (ns : Nat) : Nat :=
  max (s.tmu.period + 1) ((s.tmu.ns + ns + s.tBase - 1) / max 1 s.tBase)

/-- The effect period that the Active fixes at acceptance (R393). -/
def State.pairEffect (s : State) (h : Hdr) : Nat :=
  let b0 := s.boundaryAfter 40000
  if h.ep then max b0 (s.nearPeriod h.effect) else b0

/-- The session may take its next packet, so far as the session goes (R106, R392, R411). DESIGN CHOICE
(log 37): none is fetched while a STANDBY request waits for the command path. -/
def State.mayTake (s : State) (n : Nat) : Bool :=
  let x := s.ses n
  s.cmdUp n && decide (s.sesState n = 2) && decide (s.power.phase ≠ .drain)
    && decide (x.inFlight < x.opened.credit)
    && (x.flights.all fun f => decide (f.phase ≠ .mirror))
    && s.leads && !bit (s.reg Reg.pairState) 9 && decide (s.cmdEntries < 1024)

/-- The session may fetch its next packet (R106, R95). -/
def State.mayFetch (s : State) (n : Nat) : Bool :=
  s.mayTake n && !(s.ses n).paused && ((s.ses n).opened.sqSram || s.masters)

/-- The partner writes the replies of session `n`: the host link of the Active is paused (R398). -/
def State.byProxy (s : State) (n : Nat) : Bool := s.inStep && s.active? && (s.ses n).paused

/-- Steps 4 and 5 of acceptance (R108): the counters, then the Porter task. -/
def acceptPacket (n : Nat) (seq : Word) (s : State) : State :=
  let s := (s.setReg (Reg.cmdAcceptedSeq n) seq).setReg (Reg.cmdNextSeq n) (seq + 1)
  createTask n seq s

/-- Take the packet at `SQ_HEAD`: its checks and its acceptance (R107, R108). -/
def takePacket (n : Nat) (k : Packet) (len : Nat) (s : State) : State :=
  if k.hdr.seq ≠ s.reg (Reg.cmdNextSeq n) then haltSes n 1 (s.setReg (Reg.cmdBadSeq n) k.hdr.seq)
  else if 496 < len then haltSes n 2 s
  else
    let mirrors := s.inStep && s.active?
    let f : Flight :=
      { pkt := k, eff := if mirrors then some (s.pairEffect k.hdr) else none,
        phase := .mirror, tick := s.reg Reg.ptrTick }
    let s := s.setReg (Reg.cmdSqHead n) (s.reg (Reg.cmdSqHead n) + 1)
    let s := writeJournal n true (s.onSes n fun x => { x with flights := x.flights ++ [f] })
    if mirrors then
      let s := s.onPair fun p => { p with order := p.order ++ [(n, k.hdr.seq)] }
      pairSend 2 8 ([n, k.hdr.seq.toNat, (s.reg (Reg.cmdSqHead n)).toNat, f.eff.getD 0]
        ++ k.bytes.map BitVec.toNat) s
    else acceptPacket n k.hdr.seq s

/-- The Active completes an acceptance (R108 steps 4 and 5). -/
def acceptMirrored (n : Nat) (seq : Word) (s : State) : State :=
  match (s.ses n).flights.find? (fun f => f.seq = seq) with
  | some f => if f.phase = .mirror then acceptPacket n seq s else s
  | none => s

/-! ### Opening, halting and closing (R95, R102, R121, R123 to R125) -/

/-- The rings of a session fit their memories (R100, R101). That those of a pair lie in host memory is an obligation of the
host (R396, R414). -/
def State.ringsFit (s : State) (c : SesCfg) : Bool :=
  let d := bits c.cfg 7 4
  let fits := fun (sram : Bool) (base : BitVec 64) (slot : Nat) =>
    if sram then decide (sramBase base + 2 ^ d * slot ≤ sramOwn)
    else decide (base.toNat % 4096 = 0 ∧ base.toNat + 2 ^ d * slot ≤ 2 ^ 64)
  decide (4 ≤ d ∧ d ≤ 10) && fits c.sqSram c.sqBase 512 && fits c.cqSram c.cqBase c.cqSlot
    && !(s.qspi && !(c.sqSram && c.cqSram))

/-- The open fails with a cause. -/
def openFails (n cause : Nat) (s : State) : State :=
  (s.setReg (Reg.cmdState n) (w32 (cause * 65536))).event (Reg.cmdStat n) 1

/-- The open of a session whose checks pass: the journal decides its numbers (R121). DESIGN CHOICE (log 37): one
opened while bus mastering is off, with a ring in host memory, counts as paused and sets no `STAT.PAUSED`. -/
def openSession (n : Nat) (c : SesCfg) (s : State) : State :=
  let j := s.jrn n
  let valid := j.copyA || j.copyB
  let unretired := valid && j.isOpen && decide (j.accepted ≠ j.retired)
  let next := if !valid || !j.isOpen then s.reg (Reg.cmdBaseSeq n)
    else if j.accepted ≠ j.retired then j.accepted + 1 else j.retired + 1
  let disc := if unretired then some (j.retired + 1, j.accepted) else none
  let s := if valid then s else s.event (Reg.cmdStat n) 6
  let s := if unretired then s.event (Reg.cmdStat n) 5 else s
  let s := s.setReg (Reg.cmdDiscFirst n) (match disc with | some d => d.1 | none => 0)
  let s := s.setReg (Reg.cmdDiscLast n) (match disc with | some d => d.2 | none => 0)
  let s := s.setReg (Reg.cmdNextSeq n) next
  let s := (s.setReg (Reg.cmdAcceptedSeq n) (next - 1)).setReg (Reg.cmdRetiredSeq n) (next - 1)
  let s := ((s.setReg (Reg.cmdSqHead n) 0).setReg (Reg.cmdSqTail n) 0)
  let s := ((s.setReg (Reg.cmdCqHead n) 0).setReg (Reg.cmdCqTail n) 0)
  let s := s.setReg (Reg.cmdState n) (w32 (2 + 256 * 0x10))
  let s := s.setSes n { opened := c, disc := disc, paused := !(c.sqSram && c.cqSram) && !s.masters }
  sendSession n ((writeJournal n true s).event (Reg.cmdStat n) 0)

/-- `ACTION` 1 (R123): only a closed session opens, and not while the device waits for a partner or
joins one (R389). DESIGN CHOICE (log 37): the version is tested before the placement of the rings. -/
def cmdOpen (n : Nat) (verMin verMax : Byte) (s : State) : State :=
  if s.cmdUp n && decide (s.sesState n = 0)
      && !(s.paired && (decide (s.pairPhase = 1) || (decide (s.pairPhase = 3) && !s.active?))) then
    let c : SesCfg :=
      { cfg := s.reg (Reg.cmdCfg n), sqBase := BitVec.ofNat 64 (s.reg64 (Reg.cmdSqBaseLo n) (Reg.cmdSqBaseHi n)),
        cqBase := BitVec.ofNat 64 (s.reg64 (Reg.cmdCqBaseLo n) (Reg.cmdCqBaseHi n)) }
    if !(verMin ≤ 0x10 ∧ 0x10 ≤ verMax) then openFails n 6 s
    else if !s.ringsFit c then openFails n 5 s
    else openSession n c s
  else s

/-- `ACTION` 2 (R125). -/
def cmdClose (n : Nat) (s : State) : State :=
  if s.cmdUp n && decide (s.sesState n = 2 ∨ s.sesState n = 3) then s.setField (Reg.cmdState n) 2 0 4 else s

/-- `ACTION` 3 (R124, R96). DESIGN CHOICE (log 37): it clears `HALT_CAUSE`, and a close from HALTED keeps it. -/
def cmdResume (n : Nat) (s : State) : State :=
  if s.cmdUp n && decide (s.sesState n = 3) then
    ((s.setField (Reg.cmdState n) 2 0 (if (s.ses n).closing then 4 else 2)).setField (Reg.cmdState n) 19 16 0).onSes n
      fun x => { x with stuck := false, closing := false }
  else s

/-- A completing guarded write of `CTRL` (R53, R123 to R125); a Standby forwards it (R396). -/
def cmdCtrl (n : Nat) (v : Word) (s : State) : State :=
  if s.forwards then pairSend 2 15 [n, Reg.cmdCtrl 0 % 0x1000, v.toNat] s
  else match bits v 1 0 with
    | 1 => cmdOpen n (BitVec.ofNat 8 (bits v 15 8)) (BitVec.ofNat 8 (bits v 23 16)) s
    | 2 => cmdClose n s
    | 3 => cmdResume n s
    | _ => s

/-- The window of `CMD[n]`, as the guard holds are numbered. -/
def guardedCmd (n : Nat) (v : Word) (s : State) : Host.Outcome State Fault Refusal :=
  done (guardedPair 0x02 n (cmdCtrl n v) s)

/-- CMD_OPEN (R123). -/
def execCmdOpen (n : Nat) (verMin verMax : Byte) (s : State) : Host.Outcome State Fault Refusal :=
  guardedCmd n (w32 (1 + 256 * verMin.toNat + 65536 * verMax.toNat)) s

/-- CMD_CLOSE (R125). -/
def execCmdClose (n : Nat) (s : State) : Host.Outcome State Fault Refusal := guardedCmd n 2 s

/-- CMD_RESUME (R124). -/
def execCmdResume (n : Nat) (s : State) : Host.Outcome State Fault Refusal := guardedCmd n 3 s

/-- A CLOSING session with nothing left becomes CLOSED (R125). -/
def closeDone (n : Nat) (s : State) : State :=
  if s.cmdUp n && decide (s.sesState n = 4) && (s.ses n).flights.isEmpty && (s.ses n).replies.isEmpty then
    let s := writeJournal n false s
    let s := (s.setReg (Reg.cmdState n) 0).event (Reg.cmdStat n) 2
    examineAll (sendSession n (s.setSes n {}))
  else s

/-- SESSION_CLOSED (R125). -/
def execSessionClosed (n : Nat) (s : State) : Host.Outcome State Fault Refusal := done (closeDone n s)

/-- A write of `SQ_TAIL` (R102, R396). While the session is CLOSED it has no effect (DESIGN CHOICE,
log 37). -/
def sqTail (n : Nat) (v : Word) (s : State) : State :=
  if !s.cmdUp n then s
  else if s.forwards then pairSend 2 15 [n, Reg.cmdSqTail 0 % 0x1000, v.toNat] s
  else if s.sesState n = 0 then s
  else if (v - s.reg (Reg.cmdSqHead n)).toNat ≤ (s.ses n).opened.depth then s.setReg (Reg.cmdSqTail n) v
  else haltSes n 3 s

/-- A write of `CQ_HEAD` (R102, R396). -/
def cqHead (n : Nat) (v : Word) (s : State) : State :=
  if !s.cmdUp n then s
  else if s.forwards then pairSend 2 15 [n, Reg.cmdCqHead 0 % 0x1000, v.toNat] s
  else if s.sesState n = 0 then s
  else
    let h := s.reg (Reg.cmdCqHead n)
    if (v - h).toNat ≤ (s.reg (Reg.cmdCqTail n) - h).toNat then
      (s.setReg (Reg.cmdCqHead n) v).onSes n fun x => { x with waiting := x.waiting.drop (v - h).toNat }
    else haltSes n 3 s

/-- A window's register is written: the window's hold is discarded (R54). -/
def cmdWritten (s : State) : State := writeReaches 0x02 s

/-- SQ_TAIL (R102). -/
def execSqTail (n : Nat) (v : Word) (s : State) : Host.Outcome State Fault Refusal :=
  done (sqTail n v (cmdWritten s))

/-- CQ_HEAD (R102). -/
def execCqHead (n : Nat) (v : Word) (s : State) : Host.Outcome State Fault Refusal :=
  done (cqHead n v (cmdWritten s))

/-- Every session closes, its journal record staying as it is (R121). -/
def closeSessions (s : State) : State := { s with sessions := [], porter := {}, staged := [] }

/-- One session closes so, with what waits for it (R414). -/
def dropSession (n : Nat) (s : State) : State :=
  let keep (l : List Task) : List Task := l.filter fun t => decide (t.ses ≠ n)
  let s := (List.range 4).foldl (fun s p => s.setReady p (keep (s.readyList p))) s
  let s := s.onPorter fun q => { q with wait := keep q.wait, delay := q.delay.filter fun e => decide (e.2.2.ses ≠ n) }
  ({ s with staged := s.staged.filter fun t => decide (t.ses ≠ n) }.setReg (Reg.cmdState n) 0).setSes n {}

/-- The host link pauses every session (R95). -/
def pauseSessions (s : State) : State :=
  if !s.up then s
  else (List.range 4).foldl (fun s n =>
    if s.sesState n = 0 || (s.ses n).paused then s
    else (s.onSes n fun x => { x with paused := true }).event (Reg.cmdStat n) 7) s

/-- Every paused session resumes from its ring indices (R95). -/
def resumeSessions (s : State) : State :=
  if s.masters then (List.range 4).foldl (fun s n => if (s.ses n).paused then s.onSes n fun x => { x with paused := false } else s) s
  else s

/-! ### Replies (R100, R103, R116, R131) -/

/-- The bytes of a reply (R131). -/
def StoredReply.bytes (n : Nat) (r : StoredReply) : Bytes :=
  wordBytes r.seq ++ leBytes 2 r.reply.status ++ leBytes 2 r.reply.result.length
    ++ wordBytes (if r.reply.epv then r.reply.effect else 0)
    ++ leBytes 1 (b2n r.reply.epv + 2 * b2n r.reply.late) ++ leBytes 1 n ++ leBytes 2 r.op ++ r.reply.result

/-- Replies in the completion ring that the host has not consumed. -/
def State.cqUsed (s : State) (n : Nat) : Nat := (s.reg (Reg.cmdCqTail n) - s.reg (Reg.cmdCqHead n)).toNat

/-- The completion ring is full (R117). -/
def State.cqFull (s : State) (n : Nat) : Bool := decide ((s.ses n).opened.depth ≤ s.cqUsed n)

/-- Write bytes to the completion slot of index `i`; the Boolean says that the write failed. -/
def putSlot (n : Nat) (i : Word) (b : Bytes) (s : State) : Bool × State :=
  let c := (s.ses n).opened
  let o := i.toNat % c.depth * c.cqSlot
  if c.cqSram then sramWrite s (sramBase c.cqBase + o) (b.take c.cqSlot)
  else (false, s.emit (.hostWrite (c.cqBase + BitVec.ofNat 64 o) (b.take c.cqSlot)))

/-- The oldest stored reply whose effect is settled. -/
def Session.ready (x : Session) : Option StoredReply := x.replies.find? (·.due)

/-- A reply can be written now (R95, R96, R103, R397). -/
def State.mayReply (s : State) (n : Nat) : Bool :=
  let x := s.ses n
  s.cmdUp n && decide (s.sesState n ≠ 0) && !x.stuck && (s.byProxy n || (!x.paused && (x.opened.cqSram || s.masters)))
    && s.leads && !s.cqFull n

/-- A completion slot has been written: the indices and the coalescing event (R102, R126). DESIGN CHOICE (log 37): a
`CQ_COAL.COUNT` of 0 acts as 1, and one above 256 as it stands. -/
def advanceCq (n : Nat) (s : State) : State :=
  let s := s.setReg (Reg.cmdCqTail n) (s.reg (Reg.cmdCqTail n) + 1)
  let s := s.onSes n fun x => { x with waiting := x.waiting ++ [s.reg Reg.ptrTick] }
  if s.field (Reg.cmdCqCoal n) 8 0 ≤ s.cqUsed n then s.event (Reg.cmdStat n) 4 else s

/-- Write the oldest settled reply of a session and advance `CQ_TAIL` (R103); in a pair in step its
intent goes first (R397). -/
def writeReply (n : Nat) (s : State) : State :=
  match (s.ses n).ready with
  | none => s
  | some r =>
    if !s.mayReply n then s
    else if s.inStep && decide (r.intent ≠ 2) then
      if r.intent = 0 then
        pairSend 1 12 [n, (s.reg (Reg.cmdCqTail n)).toNat, r.seq.toNat] (s.onSes n fun x =>
          { x with replies := x.replies.map fun q => if q.seq = r.seq then { q with intent := 1 } else q })
      else s
    else if s.byProxy n then
      let i := s.reg (Reg.cmdCqTail n)
      advanceCq n ((pairSend 1 18 (n :: i.toNat :: (r.bytes n).map BitVec.toNat) s).onSes n fun x => { x with replies := x.replies.filter fun q => q.seq ≠ r.seq })
    else
      let w := putSlot n (s.reg (Reg.cmdCqTail n)) (r.bytes n) s
      if w.1 then haltSes n 4 (w.2.onSes n fun x => { x with stuck := true })
      else advanceCq n (w.2.onSes n fun x => { x with replies := x.replies.filter fun q => q.seq ≠ r.seq })

/-- Keep the latest entries of a list. -/
def lastOf {α : Type} (n : Nat) (l : List α) : List α := l.drop (l.length - n)

/-- The Standby has the reply that an intent names: it leaves the store, and the intent is acknowledged. DESIGN CHOICE
(log 40): an intent that comes before the own reply is acknowledged once that is there (R397). -/
def coverDue (n : Nat) (s : State) : State :=
  match (s.ses n).ahead with
  | none => s
  | some i => match (s.ses n).replies.find? fun r => r.due && decide (r.seq = i.seq) with
    | some r =>
      if !s.standby then s
      else
        let s := s.onSes n fun x => { x with
          ahead := none, replies := x.replies.filter fun q => q.seq ≠ r.seq
          covered := lastOf x.opened.depth (x.covered ++ [(i.slot, r)]) }
        pairSend 1 13 [n, i.slot.toNat] (s.setReg (Reg.cmdCqTail n) (i.slot + 1))
    | none => s

/-- HOST_BUS_ERROR (R96): a ring fetch or a completion write fails. -/
def execHostBusError (n : Nat) (fetch : Bool) (s : State) : Host.Outcome State Fault Refusal :=
  done (
    if fetch then
      if s.mayFetch n && !(s.ses n).opened.sqSram && decide (s.reg (Reg.cmdSqHead n) ≠ s.reg (Reg.cmdSqTail n)) then
        haltSes n 4 s else s
    else if s.mayReply n && !s.byProxy n && !(s.ses n).opened.cqSram && (s.ses n).ready.isSome then
      haltSes n 4 (s.onSes n fun x => { x with stuck := true })
    else s)

/-- CQ_COAL_TIMEOUT (R126): a reply has waited unconsumed for `TIME` µs. -/
def execCqCoalTimeout (n : Nat) (s : State) : Host.Outcome State Fault Refusal :=
  done (
    let time := s.field (Reg.cmdCqCoal n) 31 16
    match (s.ses n).waiting with
    | t :: _ =>
      if s.cmdUp n && decide (time ≠ 0) then (tickTo (t + w32 time) s).event (Reg.cmdStat n) 4 else s
    | [] => s)

/-! ### The host link (R95, R503) -/

/-- Bus mastering ends: sessions pause, descriptors in flight that need host memory fail, and a DMA channel pauses at its
next access (R95, R503). -/
def linkPause (s : State) : State := linkCut (pauseSessions s)

/-- PCIE_LINK_DOWN (R95): link-down, hot reset and function-level reset. The MSI-X state is reset. -/
def execPcieLinkDown (s : State) : Host.Outcome State Fault Refusal :=
  done (if s.qspi then s
  else
    let s := s.onPower fun p => { p with pcieUp := false, busMaster := false }
    linkPause (s.onBus fun b => { b with msixTable := [], msixPba := 0 }))

/-- PCIE_LINK_UP (R95): the link is up again and bus mastering is re-enabled. -/
def execPcieLinkUp (s : State) : Host.Outcome State Fault Refusal :=
  done (if s.qspi || !s.serves then s
  else resumeDma (resumeSessions (s.onPower fun p => { p with pcieUp := true, pcieClk := true, busMaster := true })))

/-- BUS_MASTER_ENABLE_WRITE (R503): a configuration write disables or re-enables bus mastering. DESIGN CHOICE
(log 37): a disable alone, with the link up, pauses every session as a lost link does. -/
def execBusMasterEnableWrite (on : Bool) (s : State) : Host.Outcome State Fault Refusal :=
  done (if s.qspi || !s.power.pcieUp then s
  else
    let s := s.onPower fun p => { p with busMaster := on }
    if on then resumeDma (resumeSessions s) else linkPause s)

/-- The session registers that are views (R126). -/
def State.cmdView (s : State) (a : Nat) : Option Word :=
  (List.range 4).findSome? fun n =>
    if a = Reg.cmdInflight n then some (w32 ((s.ses n).inFlight + 65536 * (s.ses n).replies.length)) else none

end Sys2Proof.Machine
end

