-- ==== Sys2Proof/Machine/Power.lean ====
section
/-!
DEFINITION. Supplies, clocks, resets, boot and state requests (chapter 03), the wake events and the
watchdogs.
-/
namespace Sys2Proof.Machine

/-! ### What a domain loses (R76, R77, R82, R87) -/

/-- Blocks whose registers the always-on domain holds: `SYS`, `PWR`, `TMU`, `FBK`, `SAFE`, `FIO`, `MGT`
(R25, R76). -/
def alwaysOn (a : Nat) : Bool := [0x00, 0x01, 0x04, 0x0C, 0x13, 0x14, 0x16].contains (a / 0x10000)

/-- Strap-derived reset values of the blocks of the fabric (R82). -/
def strapFabric (s : State) : State :=
  let v := s.power.straps
  let s := if v.getLsbD 7 then (List.range 8).foldl (fun s n => s.setField (Reg.vlkCfg n) 1 1 1) s else s
  let dev := Sys2Proof.field v.toNat 11 8
  let s := s.setField Reg.chnCfg 3 0 dev
  let s := (List.range 4).foldl (fun s n => s.setField (Reg.canNode n) 7 0 dev) s
  let s := s.setField Reg.pairCfg 1 0 s.roleReset
  if v.getLsbD 2 then (List.range 4).foldl (fun s n => s.setField (Reg.cmdCfg n) 3 2 3) s else s

/-- The fabric, SerDes and loop-engine domains lose their registers, memories and state (R77, R489). -/
def fabricOff (s : State) : State :=
  strapFabric
    { s with
      regs := s.regs.filter fun e => alwaysOn e.1
      sram := [], sramFlip := [], leMem := [], sessions := [], porter := {}, staged := [], params := []
      axes := [], groups := [], exchange := [], exchNext := [], exchAt := [], exchAtNext := [], active := []
      shadow := [], engines := [], blocks := [], camHdr := [], camPoints := [], shafts := [], latches := []
      adc := [], emu := [], pwm := [], steps := [], ports := [], pair := {}, macs := [], cans := [], dma := []
      acq := {}, droppedStops := 0 }

/-- Registers that say what lies outside a reset's reach: supplies, reference and crystal. -/
def physical (a : Nat) : Bool := decide (a = Reg.pwrSupply ∨ a = Reg.pwrClk)

/-- Registers of the multi-turn channels, kept in the keep-alive domain (R87, R241). -/
def isMt (a : Nat) : Bool := decide (Reg.fbkMtCfg 0 ≤ a ∧ a < Reg.fbkMtCfg 8)

/-- Registers that hold network time and its lock (R87). -/
def isTime (a : Nat) : Bool :=
  [Reg.tmuState, Reg.tmuOffset, Reg.tmuPathDly, Reg.tmuGmIdLo, Reg.tmuGmIdHi, Reg.tmuUtcOfs].contains a

/-- Retained memory is invalid (R32, R70). -/
def retainedLost (s : State) : State :=
  mtLost ({ s with journal := [] }.onInn fun i => { i with buffer := [], wear := i.wearFlash })

/-- The base period in ticks that the straps give (R82). -/
def periodTicks (straps : BitVec 14) : Nat :=
  match Sys2Proof.field straps.toNat 6 5 with | 0 => 250 | 1 => 500 | 2 => 1250 | _ => 2500

/-- Strap- and part-derived reset values of the always-on blocks (R82, R63). -/
def strapAlways (s : State) : State :=
  let v := s.power.straps
  let s := ((s.setReg Reg.sysId s.part.id).setReg Reg.sysCapFused s.part.capFused).setReg Reg.sysCapFusedX s.part.capFusedX
  let s := ((s.setReg Reg.sysCapLive s.provided).setReg Reg.sysCapLiveX s.part.capFusedX).setReg Reg.sysStrap (w32 v.toNat)
  let s := if v.getLsbD 2 then (List.range 28).foldl (fun s n => s.setReg (Reg.sysIrqRoute n) (w32 (0x2000 + n))) s else s
  let s := s.setReg Reg.tmuPeriod (w32 (periodTicks v))
  s.setReg Reg.tmuCtrl (w32 (b2n (v.getLsbD 13)))

/-- The boot source and its conflict (R79, R80): the source used, and whether the strap conflicts. -/
def State.bootSource (s : State) : Nat × Bool :=
  let b := Sys2Proof.field s.power.straps.toNat 1 0
  if (b = 1 ∧ s.qspi) ∨ (b = 2 ∧ !s.qspi) then (3, true) else (b, false)

/-- A reset that samples no strap by its kind becomes a power-on reset after a fall of VBAK (R70): the
levels that it samples (R79) are free, since its command brings none (log 38). -/
def strapsAt (kind : Nat) (straps : Option (BitVec 14)) (s : State) : BitVec 14 × State :=
  match straps with
  | some v => (v, s)
  | none =>
    if s.power.vbakFell && decide (3 ≤ kind) then
      let d := s.draw
      (BitVec.ofNat 14 (Config.num d.1), d.2)
    else (s.power.straps, s)

/-- A reset ends (R87): `kind` is the bit of `PWR.CAUSE`, 0 power-on to 6 clock fault. After a fall of VBAK
the restart is a power-on reset (R70). The first boot stage follows. DESIGN CHOICE (log 38): every reset
takes the PCIe link and bus mastering down until the next link-up, one that keeps the encoder counts keeps
every `FBK` register, and one that does not reset the island still clears `SAFE.STAT`, `SAFE.IRQ_EN`,
`SAFE.CONN_ERR` and `SAFE.WIN_SEL`, the host's side of the island. -/
def resetDevice (kind : Nat) (straps : Option (BitVec 14)) (s : State) : State :=
  let k := if s.power.vbakFell then 0 else kind
  let sampled := strapsAt kind straps s
  let s := sampled.2
  let keepTime := decide (3 ≤ k ∧ k ≤ 5)
  let keepFbk := decide (3 ≤ k ∧ k ≤ 5)
  let keepIsland := decide (3 ≤ k)
  let s := if s.power.vbakFell then retainedLost s else s
  let kept := s.regs.filter fun e =>
    physical e.1 || isMt e.1 || (keepTime && isTime e.1) || (keepFbk && decide (e.1 / 0x10000 = 0x0C))
  let lost := s.power.vbakFell
  let p : Power :=
    { mode := .standby, target := .standby, phase := .firstStage,
      straps := sampled.1, pcieClk := s.power.pcieClk && decide (k ≠ 0)
      fuseFloorDue := s.power.fuseFloorDue, subsysVendor := pciVendor, subsysId := s.part.pciDevice }
  let t := fabricOff { s with regs := kept, power := p, bus := {} }
  let t := strapAlways { t with regs := t.regs }
  let t := if keepTime then renumber t else { t with tmu := { annAt := s.inn.uptime } }
  let t := if keepFbk then t else { t with fbk := [] }
  let t := if keepIsland then safeShow t else { t with island := {} }
  let t := t.onInn fun i =>
    { i with update := none, excess := [], inside := [], beat := [], resetDue := none,
             uptime := if k = 0 then 0 else i.uptime
             wear := if k = 0 then i.wear.map (fun e => (e.1, { e.2 with lastWb := 0 })) else i.wear
             wearCopy := if k = 0 then 0 else i.wearCopy }
  let t := dieReset (decide (k ≤ 2)) (decide (k = 0 ∨ k = 2)) t
  let t := lplusShow t
  let t := if 3 ≤ k then t.setReg Reg.pwrBist (setBit (t.reg Reg.pwrBist) 16 (bit (s.reg Reg.pwrBist) 16)) else t
  let t := t.setReg Reg.pwrCause (w32 (2 ^ k + 65536 * b2n lost))
  let b := t.bootSource
  let t := t.setReg Reg.pwrBoot (w32 (b.1 + 16 * (if b.2 then 3 else 0)))
  let conflict := b.2 || decide (Sys2Proof.field p.straps.toNat 4 3 = 3) ||
    (decide (Sys2Proof.field p.straps.toNat 4 3 ≠ 0) && !t.part.optP)
  if conflict then t.event Reg.pwrStat 7 else t

/-- The device is held in reset: every block is silent, the field outputs are off, and an update or its restart is
no longer awaited (R68, R73, R88, R526). `linkDown`: the field link goes down with it (R447). -/
def holdReset (mode : Mode) (linkDown : Bool) (s : State) : State :=
  let s := fioShow ((dieReset linkDown false (fabricOff { s with bus := {} })).resetReg Reg.fioOutCmd)
  let s := { s with power := { s.power with mode := mode, target := .standby, phase := .held }
                    inn := { s.inn with update := none, resetDue := none } }
  pauseSessions s

/-- The cause of a reset ends. While the reference is outside its window the device stays held (R73); the
straps are sampled (R79), and the first kind in the order of the table is recorded (R89). -/
def endReset (kind : Nat) (straps : BitVec 14) (s : State) : State :=
  if s.power.clockHold then
    let s := holdReset .standby (decide (kind ≤ 2)) s
    { s with power := { s.power with straps := straps, holdKind := min s.power.holdKind kind },
             tmu := { boundaries := false } }
  else resetDevice kind (some straps) s

/-! ### Supplies (R67 to R71, R93) -/

/-- Set rail bits of `PWR.SUPPLY`. -/
def setRails (mask : Word) (up : Bool) (s : State) : State :=
  if up then s.raise Reg.pwrSupply mask else s.lower Reg.pwrSupply mask

/-- The rails of a main loss or restart: VDD, VDDS, VDDIO, as bits of `PWR.SUPPLY`. -/
def mainMask (rails : BitVec 3) : Word :=
  w32 (b2n (rails.getLsbD 0) + 2 * b2n (rails.getLsbD 1) + 8 * b2n (rails.getLsbD 2))

/-- The rails of a run-supply brown-out: VDDSD, VDDA, VDDSH. -/
def runMask (rails : BitVec 3) : Word :=
  w32 (4 * b2n (rails.getLsbD 0) + 16 * b2n (rails.getLsbD 1) + 32 * b2n (rails.getLsbD 2))

/-- Every run supply is above its release threshold (R69). -/
def State.runSuppliesOk (s : State) : Bool := decide (s.reg Reg.pwrSupply &&& 0x34#32 = 0x34#32)

/-- POWER_ON_RESET (R68, R70, R71, R87): the main supplies pass release at first power-up or after VBAK was
lost too, VBAK being up first. -/
def execPowerOnReset (straps : BitVec 14) (s : State) : Host.Outcome State Fault Refusal :=
  done (endReset 0 straps (setRails 0x4B#32 true (s.onPower fun p => { p with mainOk := true })))

/-- MAIN_SUPPLY_LOSS (R68): the device is held in reset, in DORMANT. -/
def execMainSupplyLoss (rails : BitVec 3) (s : State) : Host.Outcome State Fault Refusal :=
  done (
    if rails = 0 then s
    else
      let s := setRails (mainMask rails) false s
      if s.power.mode = .dormant then s
      else
        let s := holdReset .dormant true s
        { s with power := { s.power with mainOk := false, pcieUp := false, pcieClk := false, busMaster := false },
                 tmu := { boundaries := false } })

/-- MAIN_SUPPLY_RESTORED (R68, R89): the restart is a brown-out reset, or a power-on reset when VBAK did
not hold. -/
def execMainSupplyRestored (straps : BitVec 14) (s : State) : Host.Outcome State Fault Refusal :=
  done (
    if s.power.mainOk then s
    else endReset 1 straps (setRails 0xB#32 true (s.onPower fun p => { p with mainOk := true })))

/-- PIN_RESET (R87): nothing while the main supplies are lost. -/
def execPinReset (straps : BitVec 14) (s : State) : Host.Outcome State Fault Refusal :=
  done (if s.power.mainOk then endReset 2 straps s else s)

/-- A run supply falls in READY or RUN (R69). -/
def runSupplyFall (mask : Word) (s : State) : State :=
  resetDevice 3 none (setRails mask false s)

/-- RUN_SUPPLY_RESET (R69); below READY the rails only change their bits (R93). DESIGN CHOICE (log 38): so it is
while a move to READY is in progress, since `STATE` is STANDBY until its end. -/
def execRunSupplyReset (rails : BitVec 3) (s : State) : Host.Outcome State Fault Refusal :=
  done (
    if rails = 0 then s
    else if s.up then (runSupplyFall (runMask rails) s).event Reg.pwrStat 3
    else
      let t := setRails (runMask rails) false s
      if s.serves && t.reg Reg.pwrSupply != s.reg Reg.pwrSupply then t.event Reg.pwrStat 3 else t)

/-- VBAK falls below 1.55 V: retained memory is lost, and the restart that follows is a power-on reset
(R70). -/
def vbakFall (s : State) : State :=
  retainedLost (setRails 0x40#32 false (s.onPower fun p => { p with vbakFell := true }))

/-- VBAK_LOST (R70). -/
def execVbakLost (s : State) : Host.Outcome State Fault Refusal :=
  done (if bit (s.reg Reg.pwrSupply) 6 ∧ s.serves then (vbakFall s).event Reg.pwrStat 3 else vbakFall s)

/-- SUPPLY_EVT (R93): a run supply (`rail` 2, 4, 5) or VBAK (6), numbered as in `PWR.SUPPLY`, crosses its
threshold. A run supply that falls in READY or RUN is the reset of R69; while a reset is held only the rail's bit
follows. -/
def execSupplyEvt (rail : Nat) (up : Bool) (s : State) : Host.Outcome State Fault Refusal :=
  done (
    if !([2, 4, 5, 6].contains rail) || decide (bit (s.reg Reg.pwrSupply) rail = up) then s
    else if !s.serves then (if rail = 6 ∧ !up then vbakFall s else setRails (bitw rail) up s)
    else if rail = 6 ∧ !up then (vbakFall s).event Reg.pwrStat 3
    else if !up ∧ s.up then (runSupplyFall (bitw rail) s).event Reg.pwrStat 3
    else (setRails (bitw rail) up s).event Reg.pwrStat 3)

/-! ### Clocks (R72 to R75) -/

/-- A clock-fault reset that is held until the reference recovers: the boundaries stop at once (R73). -/
def clockFault (s : State) : State :=
  let s := holdReset .standby false (s.lower Reg.pwrClk 1#32)
  { s with power := { s.power with clockHold := true, holdKind := 6 }, tmu := { boundaries := false } }

/-- REFERENCE_STOPPED (R73). -/
def execReferenceStopped (s : State) : Host.Outcome State Fault Refusal :=
  done (if s.power.mode = .dormant ∨ s.power.clockHold then s else clockFault s)

/-- REFERENCE_OUT_OF_WINDOW (R73). -/
def execReferenceOutOfWindow (s : State) : Host.Outcome State Fault Refusal :=
  done (if s.power.mode = .dormant ∨ s.power.clockHold then s else clockFault s)

/-- REFERENCE_RECOVERED (R73): the held reset ends, unless a main supply still holds it (R68). -/
def execReferenceRecovered (s : State) : Host.Outcome State Fault Refusal :=
  done (
    if s.power.clockHold then
      let s := (s.raise Reg.pwrClk 1#32).onPower fun p => { p with clockHold := false }
      if s.power.mainOk then resetDevice s.power.holdKind none s else s
    else s)

/-- PLL_LOSS_OF_LOCK (R74): the system (0), compute (1) or SerDes (2) PLL in READY or RUN. -/
def execPllLossOfLock (pll : Nat) (s : State) : Host.Outcome State Fault Refusal :=
  done (if s.up ∧ pll < 3 then resetDevice 6 none s else s)

/-- PCIE_CLOCK_LOSS (R74): the host link alone retrains; until then it is down (R95). -/
def execPcieClockLoss (s : State) : Host.Outcome State Fault Refusal :=
  done (if s.qspi then s
  else
    let s := s.onPower fun p => { p with pcieUp := false, pcieClk := false, busMaster := false }
    linkPause (s.onBus fun b => { b with msixTable := [], msixPba := 0 }))

/-- KA_XTAL_FAIL (R75, R242). -/
def execKaXtalFail (s : State) : Host.Outcome State Fault Refusal :=
  done (if bit (s.reg Reg.pwrClk) 1 then
    let s := mtCrystal (s.lower Reg.pwrClk 2#32)
    if s.power.mode = .dormant then s else s.event Reg.pwrStat 4
  else s)

/-- KA_XTAL_RESTART (R75). -/
def execKaXtalRestart (s : State) : Host.Outcome State Fault Refusal := done (s.raise Reg.pwrClk 2#32)

/-! ### Self-test (R85, R86) -/

/-- Units that the first stage tests, as `PWR.BIST.FIRST` numbers them: `FBK`, `ETH[0]`, `CAN`, `SYS`, `PWR`,
`TMU` and `MGT`. -/
def firstUnit (u : Nat) : Bool := [6, 12, 14, 15, 16, 17, 0x40, 0x41, 0x44, 0x45].contains u

/-- Unit `u` is tested in the second stage of this part: everything else that is provided, except the
island, which tests itself; `ETH[0]` and `CAN` have a fabric part. -/
def State.secondUnit (s : State) (u : Nat) : Bool :=
  if u < 32 then u != 0 && u != 6 && bit s.part.capFused u && (u != 4 || s.power.straps.getLsbD 12)
  else if u < 52 then bit s.part.capFusedX (u - 32)
  else [0x42, 0x43, 0x46].contains u

/-- A failure is fatal (R86). -/
def fatalUnits (l : List Nat) : Bool :=
  l.any (fun u => decide (0x40 ≤ u)) || [48, 49, 50, 51].all l.contains

/-- The capability registers and `PWR.BIST` from the failures of both stages (R85, R86). -/
def showTests (s : State) : State :=
  let l := s.power.firstFailed ++ s.power.secondFailed
  let clear (w : Word) (base : Nat) : Word :=
    (List.range 26).foldl (fun w n => if l.contains (base + n) ∧ (base = 0 ∨ n < 20) then setBit w n false else w) w
  let live := clear s.provided 0
  let s := (s.setReg Reg.sysCapLive live).setReg Reg.sysCapLiveX (clear s.part.capFusedX 32)
  let s := s.setReg Reg.pwrBist (w32 ((match l with | u :: _ => u | [] => 0xFF) + 256 * (l.eraseDups.length % 256)
    + 65536 * b2n (bit (s.reg Reg.pwrBist) 16 || fatalUnits l)))
  s

/-- The failures of a stage are recorded: `SELFTEST_FAIL` and a ledger event each (R85, R521). -/
def noteFailures (l : List Nat) (s : State) : State :=
  let s := if l.isEmpty then s else s.event Reg.pwrStat 5
  l.foldl (fun s u =>
    let d := s.draw
    d.2.log (0x0300 + u) 2 0xFFFF (Config.word d.1) 0) s

/-! ### Boot (R83, R84, R90, R91) -/

/-- The device begins its second boot stage (R83): a cause of the entry, as a bit of `PWR.CAUSE` from 8.
DESIGN CHOICE (log 38): an automatic or wake entry that cannot start sets `REQ_FAIL`, as a request does. -/
def beginReady (cause : Nat) (s : State) : State :=
  if bit (s.reg Reg.pwrBist) 16 || !s.runSuppliesOk then s.event Reg.pwrStat 1
  else s.onPower fun p =>
    { p with target := .ready, phase := .secondStage, imageGiven := false, secondFailed := [], locks := 0
             wakeCause := BitVec.ofNat 8 (2 ^ (cause - 8)) }

/-- FIRST_STAGE_DONE (R83): the always-on units are tested, the boot header is read, and the device is
in STANDBY; the auto-ready flag starts the move to READY. -/
def execFirstStageDone (failed : List Nat) (flashOk : Bool) (s : State) : Host.Outcome State Fault Refusal :=
  done (
    if s.power.phase ≠ .firstStage then s
    else
      let l := (failed.filter firstUnit).eraseDups
      let s := (s.onInn fun i => { i with flashOk := flashOk }).onPower fun p =>
        { p with firstFailed := l, secondFailed := [], phase := .idle }
      let s := showTests s
      let h := s.bootHeader.getD []
      let flags := Bytes.num h 4 4
      let s := s.setReg Reg.pwrBoot (setBit (s.reg Reg.pwrBoot) 3 (flags.testBit 0))
      let s := s.setReg Reg.tmuPtpCfg (setBit (s.reg Reg.tmuPtpCfg) 3 (flags.testBit 1))
      let s := (s.setReg Reg.tmuPtpAddrLo (Bytes.word h 12)).setReg Reg.tmuPtpAddrHi (w32 (Bytes.num h 16 2))
      let own := decide (Bytes.num h 8 2 ≠ 0)
      let s := s.onPower fun p =>
        { p with subsysVendor := if own then BitVec.ofNat 16 (Bytes.num h 8 2) else pciVendor
                 subsysId := if own then BitVec.ofNat 16 (Bytes.num h 10 2) else s.part.pciDevice }
      let s := s.log (0x0100 + Nat.log2 (s.field Reg.pwrCause 6 0)) 0 0xFFFF (s.reg Reg.pwrCause) (s.reg Reg.pwrBist) true
      let s := noteFailures l s
      let s := match s.inn.watchdog with
        | none => s
        | some c =>
          let s := s.setReg Reg.mgtWdt (w32 (min c 0xF))
          (s.log (0x0A00 + c) 2 0xFFFF 0 0 true).onInn fun i => { i with watchdog := none }
      let s := ptpStart (fioShow (lplusShow s))
      if flags.testBit 0 then beginReady 9 s else s)

/-- The unit tests of the second stage are over (R85, R86): a fatal failure ends the request in STANDBY. -/
def secondTests (failed : List Nat) (s : State) : Bool × State :=
  let l := ((s.power.secondFailed ++ failed.filter s.secondUnit).eraseDups)
  let fresh := l.filter fun u => !s.power.secondFailed.contains u
  let s := noteFailures fresh (lplusShow (showTests (s.onPower fun p => { p with secondFailed := l })))
  if fatalUnits l then
    (true, (fabricOff (s.onPower fun p => { p with target := .standby, phase := .idle })).event Reg.pwrStat 1)
  else (false, s)

/-- AWAITING_HOST_IMAGE (R83, R84): with a host source the memories are cleared, the rings begin to train,
and the device waits. -/
def execAwaitingHostImage (failed : List Nat) (s : State) : Host.Outcome State Fault Refusal :=
  done (
    let src := s.bootSource.1
    if s.power.phase ≠ .secondStage ∨ s.power.imageGiven ∨ (src ≠ 1 ∧ src ≠ 2) then s
    else
      let r := secondTests failed s
      if r.1 then r.2
      else
        let s := ((fabricOff r.2).setField Reg.pwrBoot 1 0 src).setField Reg.pwrBoot 7 4 5
        trainAll (s.onPower fun p => { p with phase := .hostLoad, loadAt := s.inn.uptime }))

/-- HOST_LOAD_TIMEOUT (R84): 10 s without the second request. -/
def execHostLoadTimeout (s : State) : Host.Outcome State Fault Refusal :=
  done (
    if s.power.phase = .hostLoad then
      let s := s.waitTo (s.power.loadAt + 10000000000)
      let s := fabricOff (s.onPower fun p => { p with target := .standby, phase := .idle })
      (s.setField Reg.pwrBoot 7 4 6).event Reg.pwrStat 1
    else s)

/-- The firmware of the running image, or of ROM with no header. -/
def runImage (h : Bytes) (s : State) : State :=
  let s := s.onPower fun p => { p with image := h, recovery := h.isEmpty }
  s.setField Reg.mgtSvn 13 8 (Bytes.num h 5 1)

/-- The image that the host wrote to shared SRAM from offset 0, by its `SIZE` (R84, R524). -/
def State.hostImage (s : State) : Bytes :=
  let r := (sramRead s 0 64).1.1
  (sramRead s 0 (min 0x800000 (Bytes.num r 12 4))).1.1

/-- A device image is well formed, signed and not below the rollback floor (R524, R525). -/
def imageGood (floor : Nat) (p : Bytes) : Bool :=
  decide (Bytes.num p 0 4 = 0xB7F10A6E ∧ Bytes.num p 4 1 = 0 ∧ 128 ≤ p.length ∧ floor ≤ Bytes.num p 5 1) && Config.signatureOk p

/-- Load and verify the firmware from the source that the straps name (R80, R84, R525). -/
def loadFirmware (s : State) : State :=
  let s := s.setField Reg.pwrBoot 1 0 s.bootSource.1
  let recover := fun (result : Nat) (s : State) =>
    runImage [] ((s.setField Reg.pwrBoot 1 0 3).setField Reg.pwrBoot 7 4 result)
  match s.bootSource.1 with
  | 0 =>
    match s.pickBank s.bankNamed with
    | none => recover 2 s
    | some b =>
      let use := fun (b : Nat) (back : Bool) (s : State) =>
        let s := runImage ((s.bankImage b).take 64) (s.onInn fun i => { i with runBank := b })
        let s := (s.setField Reg.pwrBoot 2 2 b).setField Reg.pwrBoot 7 4 (b2n back)
        let s := s.log (if back then 0x0401 else 0x0400) 0 0xFFFF (w32 b) 0
        if back then s.event Reg.pwrStat 6
        else if s.power.fuseFloorDue then
          let f := max s.inn.floor (s.bankSvn b)
          let raised := decide (s.inn.floor < f)
          let s := (s.onInn fun i => { i with floor := f }).onPower fun p => { p with fuseFloorDue := false }
          if raised then s.log 0x0405 0 0xFFFF (w32 f) 0 else s
        else s
      if s.bankGood b then use b false s
      else if s.bankGood (1 - b) then use (1 - b) true s
      else recover 2 s
  | 3 => runImage [] s
  | _ =>
    let p := s.hostImage
    if imageGood s.inn.floor p then runImage (p.take 64) (s.setField Reg.pwrBoot 7 4 0) else recover 4 s

/-- The service cores run the firmware; READY waits for the last of the rings (R83). -/
def enterReady (s : State) : State :=
  readyIfSettled (s.onPower fun p => { p with phase := .ringTrain, imageGiven := false })

/-- SECOND_STAGE_DONE (R83): tests and cleared memories, the start of ring training, and the verified
firmware. With a host source the first three came before the wait for the image (R84). -/
def execSecondStageDone (failed : List Nat) (s : State) : Host.Outcome State Fault Refusal :=
  done (
    let host := decide (s.bootSource.1 = 1 ∨ s.bootSource.1 = 2)
    if s.power.phase ≠ .secondStage ∨ (host ∧ !s.power.imageGiven) then s
    else if host then enterReady (loadFirmware s)
    else
      let r := secondTests failed s
      if r.1 then r.2 else enterReady (loadFirmware (trainAll (fabricOff r.2))))

/-- Once the reply of an activation is written, the device restarts (R526). -/
def activationReset (s : State) : State :=
  match s.inn.resetDue with
  | some (n, seq) => if (s.ses n).replies.any fun r => decide (r.seq = seq) then s else resetDevice 4 none s
  | none => s

/-! ### State requests (R92, R122) -/

/-- A request for READY (R92). DESIGN CHOICE (log 38): the one that continues a host load is no further cause
of the entry (R91). -/
def requestReady (s : State) : State :=
  match s.power.mode, s.power.phase with
  | .standby, .idle => beginReady 8 s
  | .standby, .hostLoad => s.onPower fun p => { p with phase := .secondStage, imageGiven := true }
  | .ready, .idle => s
  | _, _ => s.event Reg.pwrStat 1

/-- A request for STANDBY (R92, R122). -/
def requestStandby (s : State) : State :=
  match s.power.mode, s.power.phase with
  | .standby, .idle => s
  | .ready, .idle => s.onPower fun p => { p with target := .standby, phase := .drain, wakeHeld := 0 }
  | _, _ => s.event Reg.pwrStat 1

/-- A completing guarded write of `PWR.REQ`; the other values are ignored (R93). -/
def pwrReq (v : Word) (s : State) : State :=
  match bits v 1 0 with
  | 1 => requestStandby s
  | 2 => requestReady s
  | _ => s

/-- A completing guarded write in the window of `PWR`. -/
def pwrGuard (f : State → State) (s : State) : Host.Outcome State Fault Refusal :=
  done (guardedPair 0x01 0 f s)

/-- PWR_REQ_READY (R92). -/
def execPwrReqReady (s : State) : Host.Outcome State Fault Refusal := pwrGuard (pwrReq 2) s

/-- PWR_REQ_STANDBY (R92, R122). -/
def execPwrReqStandby (s : State) : Host.Outcome State Fault Refusal := pwrGuard (pwrReq 1) s

/-- A completing guarded write of `PWR.RST` (R87). -/
def pwrRst (v : Word) (s : State) : State := if bit v 0 then resetDevice 4 none s else s

/-- SOFTWARE_RESET (R87). -/
def execSoftwareReset (s : State) : Host.Outcome State Fault Refusal := pwrGuard (pwrRst 1) s

/-- Nothing is in flight in any session (R122). -/
def State.drained (s : State) : Bool := (List.range 4).all fun n => decide ((s.ses n).inFlight = 0)

/-- STANDBY_POWER_DOWN (R122, R504): after the wait, or once its 1 s bound has passed (`expired`), the
fabric, the SerDes and the islands power down; a descriptor in flight still defers that (R504). Wake events held during
the move act (R90). -/
def execStandbyPowerDown (expired : Bool) (s : State) : Host.Outcome State Fault Refusal :=
  done (
    if s.power.phase ≠ .drain || !(s.drained || expired || s.power.cut) then s
    else if s.dmaBusy then s.onPower fun p => { p with cut := true }
    else
      let held := s.power.wakeHeld
      let s := wearCopy s
      let s := s.onPower fun p =>
        { p with mode := .standby, target := .standby, phase := .idle, cut := false, wakeHeld := 0, recovery := false, image := [] }
      let s := (fabricOff s).event Reg.pwrStat 0
      let en := s.field Reg.pwrWakeEn 5 0
      let causes := (List.range 6).filter fun i => en.testBit i && held.getLsbD (i + 2)
      match causes with
      | [] => s
      | c :: r =>
        let s := beginReady (10 + c) s
        if s.power.phase = .secondStage then
          s.onPower fun p => { p with wakeCause := r.foldl (fun w c => w ||| BitVec.ofNat 8 (2 ^ (c + 2))) p.wakeCause }
        else s)

/-- POWER_DOWN_DEFER_EXPIRY (R504): 100 µs after the power-down began the descriptor in flight is marked and no longer
delays. -/
def execPowerDownDeferExpiry (ch : Nat) (s : State) : Host.Outcome State Fault Refusal :=
  done (if s.power.phase = .drain ∧ s.power.cut ∧ ch < 32 then
    let s := cutDesc s ch
    if s.dmaState ch ≠ 0 then (s.setDma ch 0).setDch ch {} else s.setDch ch {}
  else s)

/-! ### Wake events (R90, R91, R451, R471, R485) -/

/-- A wake event `i` (0 field, 1 to 4 CAN, 5 time), numbered as in `PWR.WAKE_EN`: it moves the device from
STANDBY to READY, adds its cause to a move in progress, and is held during a move to STANDBY. -/
def wake (i : Nat) (s : State) : State :=
  match s.power.mode, s.power.phase with
  | .standby, .idle => if bit (s.reg Reg.pwrWakeEn) i then beginReady (10 + i) s else s
  | .standby, .secondStage | .standby, .hostLoad | .standby, .ringTrain =>
    if bit (s.reg Reg.pwrWakeEn) i then
      s.onPower fun p => { p with wakeCause := p.wakeCause ||| BitVec.ofNat 8 (2 ^ (i + 2)) } else s
  | .ready, .drain => s.onPower fun p => { p with wakeHeld := p.wakeHeld ||| BitVec.ofNat 8 (2 ^ (i + 2)) }
  | _, _ => s

/-- Wake events are sampled: STANDBY, or the move to it (R90). -/
def State.wakes (s : State) : Bool :=
  (decide (s.power.mode = .standby) && decide (s.power.phase ≠ .firstStage ∧ s.power.phase ≠ .held))
    || decide (s.power.phase = .drain)

/-- FIELD_WAKE_EDGE (R451). -/
def execFieldWakeEdge (input : Nat) (rising : Bool) (s : State) : Host.Outcome State Fault Refusal :=
  done (
    if s.wakes && s.cap 4 && decide (input < 32) && s.die.linkUp
        && bit (s.reg (if rising then Reg.fioWakeRise else Reg.fioWakeFall)) input then
      wake 0 (s.event Reg.fioStat 5)
    else s)

/-- CAN_WAKE_PATTERN (R485). -/
def execCanWakePattern (ctl : Nat) (s : State) : Host.Outcome State Fault Refusal :=
  done (if s.wakes && decide (ctl < 4) && s.cap (14 + ctl) then wake (1 + ctl) s else s)

/-- TIME_ALARM_FIRE (R471). -/
def execTimeAlarmFire (s : State) : Host.Outcome State Fault Refusal :=
  done (
    if s.counts && bit (s.reg Reg.tmuAlarmSecHi) 31 then
      let s := s.advanceTo s.alarmNs
      let s := s.setReg Reg.tmuAlarmSecHi (setBit (s.reg Reg.tmuAlarmSecHi) 31 false)
      let s := s.event Reg.tmuStat 5
      if s.wakes then wake 5 s else s
    else s)

/-! ### Watchdogs (R520) -/

/-- CORE_WATCHDOG_EXPIRY (R520): a core silent for 100 ms. -/
def execCoreWatchdogExpiry (core : Nat) (s : State) : Host.Outcome State Fault Refusal :=
  done (if s.coreSilent core then resetDevice 5 none ((s.waitTo (s.silentAt core)).onInn fun i => { i with watchdog := some core }) else s)

/-- INNKEEPER_WATCHDOG_EXPIRY (R520). -/
def execInnkeeperWatchdogExpiry (s : State) : Host.Outcome State Fault Refusal :=
  done (if s.serves then resetDevice 5 none (s.onInn fun i => { i with watchdog := some 0xFF }) else s)

/-! ### The `PWR` view (R93) -/

/-- The `PWR` registers that are views. -/
def State.pwrView (s : State) (a : Nat) : Option Word :=
  let code : Mode → Nat := fun m => match m with | .dormant => 0 | .standby => 1 | .ready => 2 | .run => 3
  let on := s.ringsOn || s.power.phase == .secondStage
  let locks := if s.ringsOn then 7 else s.power.locks.toNat
  if a = Reg.pwrState then
    some (w32 (code s.power.mode + 4 * code (if s.power.phase = .idle then s.power.mode else s.power.target)
      + 16 * b2n (s.power.phase != .idle)))
  else if a = Reg.pwrClk then
    some (w32 (s.field Reg.pwrClk 1 0 + 4 * locks + 0x20 * b2n (!s.qspi && s.power.pcieClk)))
  else if a = Reg.pwrDomain then
    some (w32 (3 + 0xC * b2n on + 0x10 * b2n s.die.linkUp))
  else if a = Reg.pwrLePwr then
    let les := (List.range 16).filter fun n => on && s.engineThere n
    some (w32 ((les.map fun n => 2 ^ n).sum
      + 65536 * ((les.filter fun n => s.running && s.tableActive n && !bit (s.reg (Reg.ttbState n)) 2).map fun n => 2 ^ n).sum))
  else none

end Sys2Proof.Machine
end

