-- ==== Sys2Proof/Machine/Pair.lean ====
section
/-!
DEFINITION. The redundant pair (chapter 15): the pair link, pairing and roles, mirroring, adoption, failover and
resynchronisation.
-/
namespace Sys2Proof.Machine

/-! ### Roles and phases (R389 to R391) -/

/-- The pair link is trained. -/
def State.pairUp (s : State) : Bool := s.up && s.paired && bit (s.reg Reg.pairLink) 0

/-- Enter a phase of R391. -/
def setPhase (n : Nat) (s : State) : State := s.setField Reg.pairState 3 1 n

/-- `RESYNC.PHASE` (R411). -/
def State.resyncPhase (s : State) : Nat := s.field Reg.pairResync 10 8
def setResync (n : Nat) (s : State) : State := s.setReg Reg.pairResync (w32 (256 * n))

/-- Take or give up the Active role. -/
def setRole (on : Bool) (s : State) : State :=
  if s.active? = on then s
  else (s.setReg Reg.pairState (setBit (s.reg Reg.pairState) 0 on)).onPair fun p => { p with roleAt := w32 s.tmu.period }

/-- `HOLD` and `PROXY`. -/
def setHold (on : Bool) (s : State) : State := s.setReg Reg.pairState (setBit (s.reg Reg.pairState) 9 on)
def setProxy (on : Bool) (s : State) : State := s.setReg Reg.pairState (setBit (s.reg Reg.pairState) 8 on)

/-- The device waits for a partner, without a role. -/
def waitPartner (s : State) : State :=
  setResync 0 (setProxy false (setPhase 1 (setRole false s))) |>.onPair fun p => { p with waited := s.inn.uptime }

/-- The Active runs alone. -/
def beAlone (s : State) : State := setResync 0 (setHold false (setPhase 2 (setRole true s)))

/-- Own firmware pair level. -/
def State.pairLevel (s : State) : Nat := s.field Reg.pairPartner 31 16

/-- The pairing record of this device (R388). -/
def sendPairing (s : State) : State :=
  pairSend 1 1 ([1, b2n s.sideB, s.part.id.toNat, (s.reg Reg.sysCapLive).toNat, (s.reg Reg.sysCapLiveX).toNat, s.pairLevel,
    s.field Reg.tmuPeriod 15 0, b2n s.unlocked, s.tmu.ns, Sys2Proof.field s.power.straps.toNat 11 8]
    ++ ((List.range 4).map fun i => (s.reg (Reg.pairLside i)).toNat) ++ [b2n s.running]) s

/-- PAIR_LINK_TRAINED (R387): the link is up, and the pairing record goes out. -/
def execPairLinkTrained (delay : Nat) (s : State) : Host.Outcome State Fault Refusal :=
  done (
    if !s.up || !s.paired || s.pairUp then s
    else
      let s := s.setReg Reg.pairLink (w32 (1 + 65536 * min 0xFFFF delay))
      sendPairing (s.onPair fun p => { p with partner := none }))

/-! ### Resynchronisation starts (R411) -/

/-- The Active starts the resynchronisation: it holds fetching. -/
def beginResync (s : State) : State :=
  (setResync 1 (setHold true (setPhase 3 s))).onPair fun p => { p with resyncAt := s.inn.uptime, matching := 0, roundAt := 0 }

/-- The device becomes a joiner; `now` when its resynchronisation runs at once. -/
def beJoiner (now : Bool) (s : State) : State :=
  (setResync (b2n now) (setPhase 3 (setRole false s))).onPair fun p =>
    { p with resyncAt := s.inn.uptime, matching := 0, roundAt := 0, rounds := 0, order := [], retires := [], swDue := false }

/-- `CFG.AUTO_RESYNC`. -/
def State.autoResync (s : State) : Bool := bit (s.reg Reg.pairCfg) 3

/-- Every command that waits for the mirror is accepted alone. -/
def admitMirrored (s : State) : State :=
  (List.range 4).foldl (fun s n => (s.ses n).flights.foldl (fun s f => acceptMirrored n f.seq s) s) s

/-- The Active takes the Standby out of step (R392, R394, R401, R407). -/
def dropStandby (s : State) : State :=
  if s.active? && s.inStep then
    let s := (setPhase 2 s).event Reg.pairStat 3
    let s := s.log 0x0501 1 0xFFFF (s.reg Reg.pairState) 0
    let s := admitMirrored (s.onPair fun p => { p with order := [], requests := [], images := [], late := [], matching := 0 })
    if s.autoResync && s.pairUp then beginResync s else s
  else s

/-- The Standby leaves step (R404). Without the Active's `CFG` it goes by its own `AUTO_RESYNC`, which R399
has the host write identically (DEDUCED, log 40). -/
def leaveStep (s : State) : State :=
  let s := s.onPair fun p => { p with leave := false, lostAt := none, order := [], requests := [], images := [], late := [] }
  if s.standby then
    let s := (setProxy false (setPhase 5 s)).event Reg.pairStat 3
    let s := s.log 0x0501 1 0xFFFF (s.reg Reg.pairState) 0
    if !s.pairUp then s.onPair fun p => { p with waited := s.inn.uptime } else if s.autoResync then beJoiner true s else s
  else s

/-- What makes the Standby leave step, seen on either device. -/
def breakStep (s : State) : State :=
  if s.standby then s.onPair fun p => { p with leave := true } else dropStandby s

/-! ### Pairing (R388, R389) -/

/-- The first pairing check that fails, 0 for none (R388). -/
def State.pairCause (s : State) (r : PairingRec) : Nat :=
  if r.version ≠ 1 then 1
  else if r.sideB = s.sideB then 2
  else if r.id ≠ s.part.id then 3
  else if r.capLive ≠ s.reg Reg.sysCapLive ∨ r.capLiveX ≠ s.reg Reg.sysCapLiveX then 4
  else if r.level.toNat ≠ s.pairLevel then 5
  else if r.ticks ≠ s.field Reg.tmuPeriod 15 0 ∨ r.unlocked ∨ s.unlocked ∨ 100 < r.timeOfs.natAbs then 6
  else if r.dev.toNat ≠ Sys2Proof.field s.power.straps.toNat 11 8 then 7
  else if (List.range 4).any (fun i => decide (r.lside.getD i 0 ≠ s.reg (Reg.pairLside i))) then 8
  else 0

/-- The Active of a new pair: a resynchronisation runs at once, or waits for its command. -/
def pairActive (now : Bool) (s : State) : State := if now then beginResync (setRole true s) else beAlone s

/-- Roles at pairing (R389). -/
def decideRoles (other : Bool) (s : State) : State :=
  match s.running, other with
  | false, false => if s.sideB then beJoiner true s else pairActive true s
  | true, false => pairActive s.autoResync s
  | false, true => beJoiner s.autoResync s
  | true, true => if s.sideB then s.onPair fun p => { p with clear := true, rejoin := true } else pairActive s.autoResync s

/-- The partner's `STATE` reaches this device in records whose layout is not stated: free (log 40). -/
def partnerSays (s : State) : State :=
  let d := s.draw
  d.2.onPair fun p => { p with partnerState := Config.word d.1 }

/-- PAIRING_RECORD (R388, R389). -/
def execPairingRecord (r : PairingRec) (s : State) : Host.Outcome State Fault Refusal :=
  done (
    if !s.pairUp || s.pair.partner.isSome then s
    else
      let s := (s.setField Reg.pairPartner 15 0 r.level.toNat).setReg Reg.pairTimeOfs (wInt r.timeOfs)
      let s := partnerSays (s.onPair fun p => { p with partner := some r, diffs := 0, adopted := 0, missing := 0, received := true, equal := false })
      let c := s.pairCause r
      let s := s.setField Reg.pairState 7 4 c
      if c ≠ 0 then (setPhase 6 s).event Reg.pairStat 8 else decideRoles r.inRun s)

/-- Ports of shared rings that are up. -/
def State.pairPorts (s : State) : List Nat :=
  (List.range s.part.rings).filter fun p => s.ringUp p && decide ((s.port p).topo = 3)

/-- A frame with `ACTIVE` set has arrived on a shared ring. -/
def State.activeFrame (s : State) : Bool := s.pairPorts.any fun p => (s.port p).activeSeen

/-- The device has no partner and no role: it waits, was refused, or left step as its link went (R390, R391). -/
def State.roleless (s : State) : Bool :=
  s.paired && !s.active? && decide (s.pairPhase = 1 ∨ s.pairPhase = 6 ∨ (s.pairPhase = 5 ∧ ¬ s.pairUp))

/-- It begins to listen for an Active; `seen` when the shared rings bring one (R390). -/
def beginListen (seen : Bool) (s : State) : State :=
  s.onPair fun p => { p with listen := some s.tmu.period, heard := seen || s.activeFrame }

/-- Listening at boundary `k`: once a whole period has passed, the device becomes Active alone, unless it has heard an
Active (R390). -/
def listenBoundary (k : Nat) (s : State) : State :=
  match s.pair.listen with
  | none => s
  | some l =>
    if !s.roleless then s.onPair fun p => { p with listen := none }
    else
      let s := s.onPair fun p => { p with heard := p.heard || s.activeFrame }
      if k < l + 2 then s
      else
        let s := s.onPair fun p => { p with listen := none }
        if s.pair.heard then (setPhase 1 s).event Reg.pairStat 9 else beAlone s

/-- `CTRL.ACTION` (R390, R416). -/
def pairCtrl (v : Word) (seen : Bool) (s : State) : State :=
  match bits v 1 0 with
  | 1 => if s.up && s.roleless then beginListen seen s else s
  | 2 =>
    if s.power.mode = .ready ∧ s.paired then
      let s := (s.setReg Reg.pairLink 0).onPair fun p => { p with partner := none, lostAt := none }
      if s.active? then beAlone (dropStandby s) else waitPartner s
    else s
  | _ => s

/-- A completing guarded write of `CTRL` (R53). -/
def pairGuard (v : Word) (seen : Bool) (s : State) : Host.Outcome State Fault Refusal :=
  done (guardedPair 0x11 0 (pairCtrl v seen) s)

/-- PAIR_ACTIVE_ALONE (R390). -/
def execPairActiveAlone (seen : Bool) (s : State) : Host.Outcome State Fault Refusal := pairGuard 1 seen s

/-- PAIR_LINK_RETRAIN (R416). -/
def execPairLinkRetrain (s : State) : Host.Outcome State Fault Refusal := pairGuard 2 false s

/-- ALONE_WAIT_EXPIRY (R390): side A runs alone after `WAIT`. -/
def execAloneWaitExpiry (seen : Bool) (s : State) : Host.Outcome State Fault Refusal :=
  done (
    if s.power.mode = .ready && s.roleless && !s.sideB && bit (s.reg Reg.pairCfg) 2 && decide (s.pairPhase ≠ 6)
        && s.pair.listen.isNone then
      beginListen seen (s.waitTo (s.pair.waited + max 1 (s.field Reg.pairCfg 23 16) * 100000000))
    else s)

/-! ### Mirroring (R392 to R397) -/

/-- MIRROR_ACK (R392, R108). -/
def execMirrorAck (n : Nat) (seq : Word) (s : State) : Host.Outcome State Fault Refusal :=
  done (if s.cmdUp n && s.paired then acceptMirrored n seq s else s)

/-- MIRROR_ACK_TIMEOUT (R392): 100 µs without the acknowledgement. -/
def execMirrorAckTimeout (n : Nat) (seq : Word) (s : State) : Host.Outcome State Fault Refusal :=
  done (
    match (s.ses n).flights.find? fun f => decide (f.seq = seq ∧ f.phase = .mirror) with
    | some f => dropStandby (tickTo (f.tick + 100) s)
    | none => s)

/-- RETIRE_RECORD (R394): the Standby learns the take-hold period, and acknowledges; one that has passed comes too late. -/
def execRetireRecord (n : Nat) (seq : Word) (e : Nat) (s : State) : Host.Outcome State Fault Refusal :=
  done (
    if !s.standby then s
    else
      let s :=
        if s.staged.any fun t => t.is n seq then
          if e ≤ s.tmu.period then breakStep s
          else { s with staged := s.staged.map fun (t : Staged) => if t.is n seq then { t with eff := e, acked := true } else t }
        else s.onPair fun p => { p with retires := adjoin (n, seq, e) p.retires }
      pairSend 1 11 [n, seq.toNat] s)

/-- RETIRE_RECORD_ACK (R394). -/
def execRetireRecordAck (n : Nat) (seq : Word) (s : State) : Host.Outcome State Fault Refusal :=
  done (if s.active? then
    { s with staged := s.staged.map fun (t : Staged) => if t.is n seq then { t with acked := true } else t }
  else s)

/-- REPLY_INTENT (R397): the reply that the intent names leaves the Standby's store, as soon as it is there. -/
def execReplyIntent (n : Nat) (i : Intent) (s : State) : Host.Outcome State Fault Refusal :=
  done (
    if !s.standby || !s.cmdUp n || s.sesState n = 0 then s
    else activationReset (coverDue n (s.onSes n fun x => { x with ahead := some i })))

/-- REPLY_INTENT_ACK (R397): the reply may now be written. -/
def execReplyIntentAck (n : Nat) (i : Word) (s : State) : Host.Outcome State Fault Refusal :=
  done (
    if s.active? && s.cmdUp n && decide (i = s.reg (Reg.cmdCqTail n)) then
      activationReset (writeReply n (s.onSes n fun x =>
        { x with replies := x.replies.map fun q => if q.intent = 1 then { q with intent := 2 } else q }))
    else s)

/-- SESSION_RECORD (R396): the Standby's registers show the session as the Active opened or closed it. -/
def execSessionRecord (n : Nat) (cfg : Word) (sq cq : BitVec 64) (ver : Byte) (next retired : Word) (s : State) :
    Host.Outcome State Fault Refusal :=
  done (
    if !s.paired || s.active? || !s.cmdUp n then s
    else
      let isOpen := decide (ver ≠ 0)
      let s := ((s.setReg (Reg.cmdCfg n) cfg).setReg (Reg.cmdSqBaseLo n) (lo64 sq)).setReg (Reg.cmdSqBaseHi n) (hi64 sq)
      let s := (s.setReg (Reg.cmdCqBaseLo n) (lo64 cq)).setReg (Reg.cmdCqBaseHi n) (hi64 cq)
      let s := (s.setReg (Reg.cmdNextSeq n) next).setReg (Reg.cmdAcceptedSeq n) (next - 1)
      let s := (s.setReg (Reg.cmdRetiredSeq n) retired).setReg (Reg.cmdState n) (w32 (if isOpen then 2 + 256 * ver.toNat else 0))
      let s := ((s.setReg (Reg.cmdSqHead n) 0).setReg (Reg.cmdSqTail n) 0)
      let s := ((s.setReg (Reg.cmdCqHead n) 0).setReg (Reg.cmdCqTail n) 0)
      let x : Session := if isOpen then { opened := { cfg := cfg, sqBase := sq, cqBase := cq } } else {}
      writeJournal n isOpen (s.setSes n x))

/-- FORWARDED_DOORBELL (R396): a write of a `CMD` register of the Standby reaches the Active. -/
def execForwardedDoorbell (n reg : Nat) (v : Word) (s : State) : Host.Outcome State Fault Refusal :=
  done (
    if !s.paired || !s.active? || decide (4 ≤ n) then s
    else if reg = 0x30 then sqTail n v s
    else if reg = 0x3C then cqHead n v s
    else if reg = 0x04 then cmdCtrl n v s
    else s)

/-- PROXY (R398): while the Active's host link is paused, the Standby fetches a packet over its own link and forwards it,
and writes the replies that the Active sends back; on the Active, the forwarded packet arrives. -/
def execProxy (n : Nat) (work : ProxyWork) (s : State) : Host.Outcome State Fault Refusal :=
  let acts := s.standby && s.cmdUp n && decide (s.sesState n ≠ 0) && s.masters
  done (
    match work with
    | .packet slot =>
      let k := packetOf n slot
      if acts then
        let s := (setProxy true s).onPair fun p => { p with proxied := some (n, k.1.hdr.seq) }
        pairSend 2 17 (n :: slot.map BitVec.toNat) s
      else if s.byProxy n && s.mayTake n && decide (s.reg (Reg.cmdSqHead n) ≠ s.reg (Reg.cmdSqTail n)) then
        takePacket n k.1 k.2 s
      else s
    | .reply i b => if acts then (putSlot n i b (setProxy true s)).2 else s)

/-! ### Equal inputs and digests (R399 to R405) -/

/-- The lowest slot whose slot digests differ. -/
def firstDiff (a b : List (BitVec 16)) : Nat :=
  ((List.range 128).find? fun i => decide (a.getD i 0 ≠ b.getD i 0)).getD 0

/-- Compare the two devices' records of one period (R400, R404, R411). -/
def compareRecords (s : State) : State :=
  match s.pair.digest, s.pair.theirs with
  | some o, some t =>
    if o.1 ≠ t.1 then s
    else
      let s := s.onPair fun p => { p with theirs := none }
      if o.2.1 = t.2.1 then s.onPair fun p => { p with equal := true, matching := p.matching + 1 }
      else
        let s := s.onPair fun p => { p with equal := false, matching := 0 }
        if !s.inStep then s
        else
          let s := (s.countUp Reg.pairDiffCnt 31 0 1).event Reg.pairStat 4
          let s := s.setReg Reg.pairLastDiff (w32 (o.1.toNat % 65536 + 65536 * firstDiff o.2.2 t.2.2))
          breakStep (s.onPair fun p => { p with diffs := p.diffs + 1 })
  | _, _ => s

/-- PERIOD_RECORD (R400, R404). -/
def execPeriodRecord (period digest : Word) (slots : List (BitVec 16)) (ofs : Int) (s : State) :
    Host.Outcome State Fault Refusal :=
  done (
    if !s.pairUp || s.pair.partner.isNone then s
    else
      let s := partnerSays (s.setReg Reg.pairTimeOfs (wInt ofs))
      let mine := match s.pair.digest with | some o => decide (o.1 = period) | none => false
      let s := s.onPair fun p => { p with theirs := some (period, digest, slots), missing := 0, received := p.received || mine }
      let s := compareRecords s
      if 250 < ofs.natAbs && s.standby then s.onPair fun p => { p with leave := true } else s)

/-- ADOPTION_REQUEST (R401): the partner asks for a slot's image. Beyond `ADOPT_MAX` in one period the Standby
leaves step. -/
def execAdoptionRequest (slot : Nat) (s : State) : Host.Outcome State Fault Refusal :=
  done (
    if !s.pairUp || !decide (s.pairPhase = 3 ∨ s.pairPhase = 4) || decide (s.part.slots ≤ slot) then s
    else
      let s := s.onPair fun p => { p with asked := p.asked + 1 }
      let s := if max 1 (min 16 (s.field Reg.pairCfg 28 24)) < s.pair.asked then breakStep s else s
      if s.slotDone slot then sendImage slot s
      else s.onPair fun p => { p with requests := adjoin slot p.requests })

/-- ADOPTION_IMAGE (R401): in time for the sealing, in time for the boundary only, or too late. -/
def execAdoptionImage (image : Bytes) (period : Word) (s : State) : Host.Outcome State Fault Refusal :=
  done (
    let b0 := s.tmu.period * s.tBase
    if !s.pairUp || !decide (s.pairPhase = 3 ∨ s.pairPhase = 4) || image.length < 276 || s.part.slots ≤ Bytes.num image 0 2 then s
    else if period = w32 s.tmu.period ∧ s.tmu.ns + 100 ≤ b0 + s.sealNs then
      s.onPair fun p => { p with images := p.images ++ [image] }
    else
      let s := s.countUp Reg.pairAdoptCnt 31 16 1
      if period = w32 s.tmu.period ∧ s.tmu.ns + 100 ≤ b0 + s.tBase then s.onPair fun p => { p with late := p.late ++ [image] }
      else breakStep s)

/-! ### Loss of the link and failover (R407, R408) -/

/-- The pair link is lost. -/
def linkLost (s : State) : State :=
  let s := (s.setReg Reg.pairLink 0).event Reg.pairStat 1
  let s := s.onPair fun p => { p with partner := none, missing := 0, equal := false }
  if s.active? then beAlone (dropStandby s)
  else if s.standby then s.onPair fun p => { p with lostAt := some s.tmu.period }
  else waitPartner s

/-- PAIR_LINK_LOST (R407). -/
def execPairLinkLost (s : State) : Host.Outcome State Fault Refusal := done (if s.pairUp then linkLost s else s)

/-- PERIOD_RECORD_MISSING (R400, R407): the partner's record of the last sealed period has not come by
boundary k + 1 + 2.0 µs; after two of them the link is lost. -/
def execPeriodRecordMissing (s : State) : Host.Outcome State Fault Refusal :=
  done (
    match s.pair.digest with
    | none => s
    | some o =>
      if !s.pairUp || s.pair.received || !s.inStep then s
      else
        let s := s.advanceTo ((s.nearPeriod o.1 + 1) * s.tBase + 2000)
        let s := s.onPair fun p => { p with missing := p.missing + 1, received := true }
        if 2 ≤ s.pair.missing then linkLost s else s)

/-- Replies that an acknowledged intent covers are written again, to the same slots (R408). Without the
host link they go back to the reply store. -/
def rewriteCovered (n : Nat) (s : State) : State :=
  let x := s.ses n
  match x.covered with
  | [] => s
  | (i, _) :: _ =>
    let s := s.onSes n fun x => { x with covered := [] }
    if s.masters then x.covered.foldl (fun s e => (putSlot n e.1 (e.2.bytes n) s).2) s
    else (s.onSes n fun y => { y with replies := x.covered.map Prod.snd ++ y.replies }).setReg (Reg.cmdCqTail n) i

/-- A session that a failover does not protect: on a quad-SPI link, or with a ring in shared SRAM (R414). It closes as a reset
closes it, and its next open reports what was lost (R121). -/
def dropUnprotected (n : Nat) (s : State) : State :=
  let c := (s.ses n).opened
  if s.sesState n ≠ 0 && (s.qspi || c.sqSram || c.cqSram) then dropSession n s
  else s.onSes n fun x => { x with ahead := none }

/-- The Standby becomes Active (R408). -/
def takeOver (s : State) : State :=
  let e := s.boundaryAfter 20000
  let s := (setProxy false (beAlone s)).event Reg.pairStat 2
  let s := s.log 0x0502 2 0xFFFF (s.reg Reg.pairState) 0
  let s := { s with staged := s.staged.map fun (t : Staged) => if t.acked then t else { t with eff := max t.eff e, acked := true } }
  let s := s.onPair fun p => { p with lostAt := none, leave := false, order := [], retires := [], requests := [], images := [], late := [] }
  let s := (List.range 4).foldl (fun s n => rewriteCovered n (dropUnprotected n s)) (latchOwn s)
  if s.masters then s else pauseSessions s

/-- FAILOVER (R407): the decision at the return deadline of the period after the loss. -/
def execFailover (s : State) : Host.Outcome State Fault Refusal :=
  done (
    match s.pair.lostAt with
    | none => s
    | some k =>
      if !s.up || !s.standby || s.tmu.period ≤ k || s.pairPorts.any (fun p => !(s.port p).closed) then s
      else if s.pairPorts.isEmpty || s.activeFrame then s.onPair fun p => { p with leave := true, lostAt := none }
      else takeOver s)

/-! ### Resynchronisation (R411) -/

/-- A map in canonical form. -/
def canon {α : Type} [DecidableEq α] (d : Nat → α) (m : Map α) : Map α := m.foldl (fun r e => Map.set d r e.1 e.2) []

/-- Registers that the copy carries: the sessions', the tables' and the shaft channels' state. -/
def copied (a : Nat) : Bool :=
  (List.range 4).any (fun n => [Reg.cmdState n, Reg.cmdCfg n, Reg.cmdSqBaseLo n, Reg.cmdSqBaseHi n, Reg.cmdCqBaseLo n,
    Reg.cmdCqBaseHi n, Reg.cmdSqHead n, Reg.cmdSqTail n, Reg.cmdCqHead n, Reg.cmdCqTail n, Reg.cmdNextSeq n, Reg.cmdAcceptedSeq n,
    Reg.cmdRetiredSeq n, Reg.chnShCfg n].contains a)
  || (List.range 16).any (fun n => [Reg.ttbState n, Reg.ttbSpare n].contains a)

/-- What the Active copies to the joiner (R411 step 2). -/
def State.resyncCopy (s : State) : ResyncCopy :=
  { params := s.params, axes := s.axes, groups := s.groups, camHdr := s.camHdr, camPoints := s.camPoints, active := s.active
    shadow := s.shadow, leMem := s.leMem, blocks := s.blocks, sessions := s.sessions, latches := s.latches
    regs := s.regs.filter fun e => copied e.1 }

/-- The arming of a latch input as copied; its edges are the device's own. -/
def Latch.armedAs (l m : Latch) : Latch :=
  { l with slot := m.slot, mode := m.mode, winStart := m.winStart, winEnd := m.winEnd, bound := m.bound, host := m.host, reg := m.reg }

/-- RESYNC_DRAINED (R411): every accepted command has retired, replied and taken hold; the copy goes out. -/
def execResyncDrained (s : State) : Host.Outcome State Fault Refusal :=
  done (
    if s.pairUp && s.active? && decide (s.resyncPhase = 1) && s.drained && s.staged.isEmpty then
      (setResync 2 s).emit (.resync s.resyncCopy)
    else s)

/-- The joiner's state after the copy (R411 step 2). -/
def takeCopy (s : State) : State :=
  let d := s.draw
  let c := Config.copy d.1
  let s := { d.2 with
    params := canon paramUnlisted c.params, axes := canon (fun _ => {}) c.axes, groups := canon (fun _ => {}) c.groups
    camHdr := canon (fun _ => none) c.camHdr, camPoints := canon (fun _ => none) c.camPoints
    active := canon (fun _ => {}) c.active, shadow := canon (fun _ => {}) c.shadow, leMem := canon (fun _ => 0) c.leMem
    blocks := canon (fun _ => {}) c.blocks, sessions := canon (fun _ => {}) c.sessions, porter := {}, staged := [] }
  let s := (List.range 32).foldl (fun s n => s.onLatch n fun l => l.armedAs (Map.get (fun _ => {}) c.latches n)) s
  let s := (c.regs.filter fun e => copied e.1).foldl (fun s e => s.setReg e.1 e.2) s
  (List.range 4).foldl (fun s n => writeJournal n (decide (s.sesState n ≠ 0)) s) s

/-- RESYNC_COPY_DONE (R411): on the Active the copy has been sent; the joiner has it, and enters RUN at the next
boundary. -/
def execResyncCopyDone (s : State) : Host.Outcome State Fault Refusal :=
  done (
    if !s.pairUp then s
    else if s.active? then (if s.resyncPhase = 2 then setResync 3 s else s)
    else if s.pairPhase = 3 ∨ s.pairPhase = 5 then
      let s := if s.resyncPhase = 0 ∨ s.pairPhase = 5 then beJoiner true s else s
      if s.resyncPhase < 3 then setResync 3 (takeCopy s) else s
    else s)

/-- Phase 5 (R411): the digests have matched in `STEP_N` consecutive periods. -/
def State.matched (s : State) : Bool :=
  decide (s.pairPhase = 3 ∧ s.resyncPhase = 4 ∧ max 1 (s.field Reg.pairCfg 15 8) ≤ s.pair.matching)

/-- PAIRED (R411). -/
def execPaired (s : State) : Host.Outcome State Fault Refusal :=
  done (
    if s.pairUp && s.matched then
      let s := (setResync 0 (setHold false (setPhase 4 s))).event Reg.pairStat 0
      s.log 0x0500 0 0xFFFF (s.reg Reg.pairState) 0
    else s)

/-- RESYNC_FAIL (R411): 200 ms have passed. -/
def execResyncFail (s : State) : Host.Outcome State Fault Refusal :=
  done (
    if s.up && s.paired && decide (s.pairPhase = 3 ∧ s.resyncPhase ≠ 0) then
      let s := s.waitTo (s.pair.resyncAt + 200000000)
      let s := if s.active? then beAlone s else setResync 0 s
      s.event Reg.pairStat 6
    else s)

end Sys2Proof.Machine
end

