-- ==== Sys2Proof/Machine/Commands.lean ====
section
/-!
DEFINITION. What a command declares of itself (chapter 05, R134, R135): its targets, its checks in their
order, its result, what it does at retirement and what it does at its boundary.
-/
namespace Sys2Proof.Machine

/-- A failed check: status and `DETAIL`. -/
abbrev Bad := Option (Nat × Nat)

/-- The first failure of a list of conditions, each with the status and detail of its failure. -/
def firstFail : List (Bool × Nat × Nat) → Bad
  | [] => none
  | (bad, r) :: rest => if bad then some r else firstFail rest

/-- The one of two failures that the order of R134 meets first; of one step, the first. -/
def Bad.sooner (a b : Bad) : Bad :=
  match a, b with
  | some x, some y => if ST.step y.1 < ST.step x.1 then b else a
  | none, _ => b
  | _, none => a

/-- The first of two checks that fails. -/
def Bad.or (a b : Bad) : Bad := match a with | some r => some r | none => b

/-- The soonest failure over a list, the first of those of one step. -/
def soonestOf {α : Type} (f : α → Bad) (l : List α) : Bad := l.foldl (fun b x => b.sooner (f x)) none

/-- The first failure over a list. -/
def firstBadOf {α : Type} (f : α → Bad) : List α → Bad
  | [] => none
  | x :: r => match f x with | some e => some e | none => firstBadOf f r

/-- What a command does at retirement: its reply, whether that reply is settled, the state, and what a
staged effect carries. -/
structure Ran where
  reply : Reply
  due : Bool := true
  st : State
  stg : Staged → Staged := id

/-- The declaration of an opcode. -/
structure OpSpec where
  axis : Bool := false      -- targets allowed
  group : Bool := false
  device : Bool := false
  yes : Bool := false       -- its effect takes hold at a boundary
  cap : Option Nat := none  -- `CAP_LIVE` bit of its unit (R134)
  named : State → Packet → Bad := fun _ _ => none    -- units named in the payload (step 5)
  len : State → Packet → Bool := fun _ k => decide (k.payload.length = 0)   -- step 6
  check : State → Packet → Bad := fun _ _ => none    -- steps 7 to 11 that name no slot
  slots : State → Packet → List Nat := fun s k => s.targetSlots k.hdr.target.toNat
  slot : State → Packet → Nat → Bad := fun _ _ _ => none   -- steps 9 to 11 of one slot
  result : State → Packet → Bytes := fun _ _ => []
  act : Packet → Nat → Reply → State → Ran := fun _ _ r s => { reply := r, st := s }
  apply : Nat → Bool → Staged → State → State := fun k late t s => tookHold t k late s

/-- An effect that always takes hold. -/
def holds (f : Staged → State → State) (k : Nat) (late : Bool) (t : Staged) (s : State) : State :=
  tookHold t k late (f t s)

/-- An effect that takes hold while each of its slots meets a condition, and otherwise is discarded (R133). -/
def holdsIf (ok : State → Staged → Nat → Bool) (f : Staged → State → State) (k : Nat) (late : Bool) (t : Staged)
    (s : State) : State :=
  match t.slots.find? fun n => !ok s t n with
  | none => tookHold t k late (f t s)
  | some n => failedAt t n ST.axisState s

/-- A command that acts at its retirement. -/
def actsAs (f : Packet → State → State) (k : Packet) (_ : Nat) (r : Reply) (s : State) : Ran :=
  { reply := r, st := f k s }

/-- Payload fields. -/
def Packet.n (k : Packet) (o len : Nat) : Nat := Bytes.num k.payload o len
def Packet.i (k : Packet) (o len : Nat) : Int := Bytes.sint k.payload o len
/-- The payload has `n` bytes. -/
def lenIs (n : Nat) (_ : State) (k : Packet) : Bool := decide (k.payload.length = n)

/-- A field at an offset is wrong. -/
def badAt (bad : Bool) (o : Nat) : Bool × Nat × Nat := (bad, ST.badValue, o)
/-- Bytes that must be 0. -/
def mustZero (k : Packet) (o n : Nat) : List (Bool × Nat × Nat) :=
  (List.range n).map fun i => badAt (decide (k.n (o + i) 1 ≠ 0)) (o + i)

/-- Checks of the device state (step 8). -/
def needRun (s : State) : Bool × Nat × Nat := (decide (s.power.mode ≠ .run), ST.devState, 0)
def needReady (s : State) : Bool × Nat × Nat := (decide (s.power.mode ≠ .ready), ST.devState, 0)
/-- A unit is not in a state that allows the command (DEDUCED, log 41). -/
def needUnit (ok : Bool) : Bool × Nat × Nat := (!ok, ST.devState, 0)

/-! ### Slots (R24, R134 step 9) -/

/-- The slot is DISABLED or READY: where a command needs DISABLED, READY serves as well (DEDUCED, log 41). -/
def State.axOff (s : State) (n : Nat) : Bool := (s.axis n).state == .disabled || (s.axis n).state == .ready

/-- A safety function holds the slot, as this device and its partner see it (R436). -/
def State.holdNow (s : State) (n : Nat) : Bool :=
  decide ((if s.standby then s.pair.holds.getD n 0 else s.ownHold n) ≠ 0)

/-- Members that a `GROUP_DEFINE` names, ascending (R270). -/
def mapSlots (k : Packet) : List Nat := (List.range 128).filter fun i => k.n (i / 8) 1 / 2 ^ (i % 8) % 2 = 1

/-- Group number of a target. -/
def Packet.groupNo (k : Packet) : Nat := k.hdr.target.toNat - 0x8000

/-- Members of a group once every staged definition has taken hold. -/
def State.membersSoon (s : State) (g : Nat) : List Nat :=
  (s.staged.filter fun t => decide (t.pkt.op = 0x0407 ∧ t.pkt.groupNo = g)).foldl (fun _ t => mapSlots t.pkt) (s.group g).members

/-- The group that a slot belongs to once every staged definition has taken hold. -/
def State.groupSoon (s : State) (n : Nat) : Option Nat := (List.range 32).find? fun g => decide (n ∈ s.membersSoon g)

/-- A staged effect of a slot with one of these opcodes. -/
def State.stagedOp (s : State) (n : Nat) (ops : List Nat) : Bool :=
  s.staged.any fun t => decide (n ∈ t.slots) && decide (t.pkt.op ∈ ops)

/-- Homing, gearing or a cam owns the slot, or a retired command gives it to one of them (R261, R293). -/
def State.claimed (s : State) (n : Nat) : Bool :=
  let a := s.axis n
  decide (a.homing.outcome = 1) || decide (a.gear.kind ≠ 0) || s.stagedOp n [0x0501, 0x0505, 0x0601]

/-- The slot can take a motion command. -/
def State.moves (s : State) (n : Nat) : Bool := (s.axis n).state == .enabled || (s.axis n).state == .moving

/-- Debounced limits against a direction of motion (R283). -/
def State.limitMet (s : State) (n : Nat) (dir : Int) : Bool :=
  ((s.axis n).swPos.deb && decide (0 < dir)) || ((s.axis n).swNeg.deb && decide (dir < 0))

/-- A target beyond the software limits (R284). -/
def State.softMet (s : State) (n : Nat) (x : Int) : Bool := decide (s.pn n 0x903 = 1) && !s.inSoft n x

/-- The causes of a fault have gone (R24, R239). -/
def State.causeGone (s : State) (n : Nat) : Bool :=
  (s.axis n).present.isEmpty && !bit (s.axWord n 0x98) 4 && !s.slotTripped n

/-- Slots of a stop: those of the target, of which a device target passes over the DISABLED ones (R135). -/
def stopSlots (s : State) (k : Packet) : List Nat :=
  if k.hdr.target = 0xFFFF then (List.range s.part.slots).filter fun n => (s.axis n).state != .disabled
  else s.targetSlots k.hdr.target.toNat

/-! ### Effect periods (R118, R119, R393) -/

/-- The latest effect period of the staged records of some slots; the later ones wait for it (R119). -/
def State.heldTo (s : State) (slots : List Nat) : Nat :=
  (s.staged.filter fun t => t.slots.any fun n => decide (n ∈ slots)).foldl (fun e t => max e t.eff) 0

/-- The boundary at which a command that retires now takes hold. -/
def State.effectAt (s : State) (h : Hdr) (fixed : Option Nat) (slots : List Nat) : Nat :=
  let e := match fixed with
    | some e => e
    | none => if h.ep then max (s.tmu.period + 1) (s.nearPeriod h.effect) else s.tmu.period + 1
  max e (max (s.tmu.period + 1) (s.heldTo slots))

/-- The effect period lies more than 2^20 periods ahead (R119). -/
def State.tooFar (s : State) (h : Hdr) : Bool := h.ep && decide (s.tmu.period + 2 ^ 20 < s.nearPeriod h.effect)

/-- The effect came after the period asked for. -/
def Staged.lateAt (t : Staged) (k : Nat) : Bool := t.late || (t.pkt.hdr.ep && decide (0 < seqDiff (w32 k) t.pkt.hdr.effect))

/-! ### Parameter entries (R143, R144) -/

/-- An entry: index, the reserved half-word, value. -/
def entriesOf (k : Packet) : List (Nat × Nat × BitVec 64) :=
  (List.range (k.n 0 2)).map fun i => (k.n (4 + 12 * i) 2, k.n (6 + 12 * i) 2, BitVec.ofNat 64 (k.n (8 + 12 * i) 8))

/-- The entry of an index given twice that counts is the later one. -/
def lastEntries : List (Nat × BitVec 64) → List (Nat × BitVec 64)
  | [] => []
  | e :: r => if r.any fun x => decide (x.1 = e.1) then lastEntries r else e :: lastEntries r

/-- The read-only indices. -/
def viewIndices : List Nat :=
  (List.range 13).flatMap fun r => (paramRange r).flatMap fun d => if d.ro then (List.range d.count).map (d.first + ·) else []

/-- Indices of a range that can be written. -/
def writable (r : Nat) : List Nat :=
  (paramRange r).flatMap fun d => if d.ro then [] else (List.range d.count).map (d.first + ·)

/-- The entries that a `DEFAULT_PARAMS` stands for; the default of `OFS_SHIFT` adds nothing (log 42). -/
def defaultEntries (slot : Nat) (k : Packet) : List (Nat × BitVec 64) :=
  let rs := if k.n 0 2 = 0xFFFF then List.range 12 else [k.n 0 2 / 256]
  ((rs.flatMap writable).filter (· ≠ 0x805)).map fun i => (i, paramDefault slot i)

/-- The entries that a command writes to its slot. -/
def paramWrites (k : Packet) : List (Nat × BitVec 64) :=
  if k.op = 0x0302 then lastEntries ((entriesOf k).map fun e => (e.1, e.2.2))
  else if k.op = 0x0303 then defaultEntries k.hdr.target.toNat k
  else []

/-- Put entries in force, without their effects. -/
def putEntries (slot : Nat) (es : List (Nat × BitVec 64)) (s : State) : State :=
  es.foldl (fun s e => s.setPar slot e.1 e.2) s

/-- The parameters as they will stand once every retired effect has taken hold (R145). -/
def State.paramsSoon (s : State) : State :=
  s.staged.foldl (fun s t => putEntries t.pkt.hdr.target.toNat (paramWrites t.pkt) s) s

end Sys2Proof.Machine
end

