-- ==== Sys2Proof/Machine/CmdAxis.lean ====
section
/-!
DEFINITION. Axis configuration and motion commands (chapter 05 classes 0x03 and 0x04): parameters, enabling,
moves, stops, groups and paths.
-/
namespace Sys2Proof.Machine

/-! ### Parameters (R143 to R146, R151 to R153, R222, R251, R300 to R302, R331, R355, R356) -/

/-- Local PWM channels of a slot under its mapping (R153). -/
def State.pwmOf (s : State) (n : Nat) : List Nat :=
  if s.outKind n ≠ 2 then []
  else
    let c := match s.axisType n with | 1 => 3 | 2 => 3 | 3 => 4 | 4 => 2 | 5 => 1 | _ => 0
    (List.range c).map (s.pn n 8 + ·)

/-- Some other slot satisfies a condition. -/
def State.someOther (s : State) (n : Nat) (f : Nat → Bool) : Bool :=
  (List.range s.part.slots).any fun m => decide (m ≠ n) && f m

/-- Cross-parameter rules of a slot's full set, each with the index that `DETAIL` names (R153, R222, R251,
R300 to R302, R331, R355, R356); the sin/cos input of R232 uses the digital channel of its number. -/
def State.crossRules (s : State) (n : Nat) : List (Bool × Nat) :=
  let p := s.pn n
  let speed (j : Nat) : Nat := p (0x501 + j)
  let vmax := match p 0 with
    | 1 => 0x42000000 | 2 => 0x42000000 | 3 => 0x72000000 | 4 => 0x7FFFFFFF | 5 => 0x40000000 | _ => 0x7FFFFFFF
  let short := if p 0x100 = 0 then decide (p 0x103 ≤ 2 * p 0x111) else decide (p 0x103 * 4 ≤ 2 * p 0x111 * 2 ^ p 0x104)
  [ (2 ^ p 2 ≤ p 3, 3),
    (decide (p 4 = 1) && s.someOther n fun m => decide (s.pn m 4 = 1 ∧ s.pn m 5 = p 5 ∧ s.pn m 6 = p 6 ∧ s.pn m 7 = p 7), 7),
    ((s.pwmOf n).any fun c => decide (31 < c) || s.someOther n fun m => decide (c ∈ s.pwmOf m), 8),
    (decide (p 4 = 3) && s.someOther n fun m => decide (s.pn m 4 = 3 ∧ s.pn m 9 = p 9), 9),
    (decide (p 10 = 1 ∨ p 10 = 2) && s.someOther n fun m => decide ((s.pn m 10 = 1 ∨ s.pn m 10 = 2) ∧ s.pn m 11 = p 11), 11),
    (decide (p 0 = 6 ∧ p 4 ≠ 0), 4),
    (p 0x109 ≤ p 0x108, 0x108),
    (decide (p 0x100 ≠ 1) && short, 0x111),
    (decide (p 0x100 = 2 ∧ p 0x110 % 2 = 1 ∧ p 0x103 * 4 % 2 ^ p 0x104 ≠ 0), 0x104),
    (decide (p 0x113 ≠ 255 ∧ p 0x100 ≠ 1), 0x113),
    (decide (p 0x106 = 1 ∧ p 0x100 ≠ 1), 0x106),
    (decide (p 0x106 = 2 ∧ (p 0x100 = 1 ∨ p 0x110 % 2 = 0)), 0x106),
    (decide (p 0x100 = 2 ∧ p 10 ≠ 0 ∧ p 10 ≠ 2), 0x100),
    (p 0x103 ≤ p 0x114, 0x114),
    ((p 0x202 : Int) < (s.pi n 0x203).natAbs, 0x203),
    (vmax < p 0x204, 0x204),
    ((List.range (p 0x501)).any fun j => decide (speed (j + 1) < 2 ^ p 0x505)
      || decide (0 < j) && decide (speed (j + 1) < speed j + 2 ^ (p 0x505 + 1)), 0x502),
    (decide (p 0x506 = 1 ∧ p 0x507 < 2 ^ p 0x508), 0x507),
    (p 0x702 < p 0x703, 0x703),
    (p 0x202 < p 0x709, 0x709),
    (decide (p 0x811 = 1 ∧ p 0x815 = 0), 0x815),
    (s.pi n 0x816 = 0, 0x816),
    (decide (p 0x825 ≠ 255) && (decide (p 0 ≠ 6) || s.someOther n fun m => decide (s.pn m 0x825 = p 0x825)), 0x825),
    (decide (p 0x900 % 256 = p 0x901 % 256 ∧ p 0x900 % 256 ≠ 255), 0x901),
    (decide (p 0x903 = 1 ∧ wrap64 (s.pi n 0x904 - s.pi n 0x905) ≤ 0), 0x904),
    (p 0xA01 < p 0xA02, 0xA02),
    (p 0x202 < p 0xA01, 0xA01)]

/-- Indices that need the slot DISABLED (R152, R251, R300, R355). -/
def needsDisabled (i : Nat) : Bool :=
  decide (i < 0x100 ∨ (0x100 ≤ i ∧ i ≤ 0x106) ∨ i = 0x113 ∨ i = 0x114 ∨ i = 0x116 ∨ i = 0x705 ∨ i = 0xA00 ∨ i = 0xA08)

/-- The first index of some that satisfies a condition fails with a status. -/
def badIndex (is : List Nat) (st : Nat) (f : Nat → Bool) : Bad := (is.find? f).map fun i => (st, i)

/-- A stop of an active table names the slot (R152). -/
def State.inTable (s : State) (n : Nat) : Bool := s.active.any fun e => decide (e.2.flags % 4 ≠ 0 ∧ e.2.slot = n)

/-- Cross rules, states and limits of a set of writes to a slot, `is` being their indices in entry order. -/
def State.writesBad (s : State) (n : Nat) (is : List Nat) (es : List (Nat × BitVec 64)) : Bad :=
  let s' := putEntries n es s.paramsSoon
  let l := s'.ofsLims n
  (((firstFail ((s'.crossRules n).map fun r => (r.1, ST.badValue, r.2))).or
    (badIndex is ST.axisState fun i => needsDisabled i && !s.axOff n)).or
    (badIndex is ST.inUse fun i =>
      (decide (i < 0x100) && s.inTable n) || (decide (0x700 ≤ i ∧ i < 0x800) && decide ((s.axis n).homing.outcome = 1)))).or
    (if 0x805 ∈ is ∧ !l.ok then some (ST.limit, 0x802) else none)

/-- `SET_PARAMS` checks in the order of R144. -/
def setParamsBad (s : State) (k : Packet) : Bad :=
  let es := entriesOf k
  let n := k.hdr.target.toNat
  let places := (List.range es.length).map fun i => (i, es.getD i (0, 0, 0))
  ((((firstFail [badAt (decide (k.n 0 2 = 0 ∨ 40 < k.n 0 2)) 0, badAt (decide (k.n 2 2 ≠ 0)) 2]).or
    (firstBadOf (fun e => match paramDef e.1 with
      | none => some (ST.badParam, e.1)
      | some d => if d.ro then some (ST.readOnly, e.1) else none) es)).or
    (firstBadOf (fun (e : Nat × Nat × Nat × BitVec 64) => match paramDef e.2.1 with
      | none => none
      | some d =>
        if e.2.2.1 ≠ 0 then some (ST.badValue, 4 + 12 * e.1 + 2)
        else if s.valueOk e.2.1 d e.2.2.2 then none else some (ST.badValue, e.2.1)) places))).or
    (s.writesBad n (es.map fun e => e.1) (paramWrites k))

/-- Clear bits of `FB_FLAGS`. -/
def clearFb (slot bitNo : Nat) (s : State) : State := s.setAxb slot 0x98 (setBit (s.axWord slot 0x98) bitNo false)

/-- One entry takes hold, with what follows from it. -/
def entryEffect (slot : Nat) (s : State) (e : Nat × BitVec 64) : State :=
  let i := e.1
  let old := s.par slot i
  let s := s.setPar slot i e.2
  let s := if 0x200 ≤ i ∧ i < 0x600 then writeBlocks slot [i] s else s
  let s := if (s.axis slot).state.on then
      if i = 0x203 then s.setAxb slot 0x48 (wInt (s.pi slot 0x203))
      else if 0x500 ≤ i ∧ i ≤ 0x508 then writeSchedule slot s else s
    else s
  let s := if i = 0x310 then
      let rise (b : Nat) (ws : List Nat) (s : State) : State :=
        if !old.getLsbD b && e.2.getLsbD b then zeroWords slot ws s else s
      rise 0 [10, 11, 12, 13] (rise 1 [14, 15, 16, 17] s)
    else s
  let s := if (0x100 ≤ i ∧ i ≤ 0x106) ∨ i = 0x113 ∨ i = 0x114 ∨ i = 0x116 then clearFb slot 0 s else s
  let s := if i = 0x110 then clearFb slot 5 s else s
  s.onAxis slot fun a =>
    if i = 0x805 then { a with ofs := { a.ofs with tgt := wrap64 (a.ofs.tgt + e.2.toInt) } }
    else if (i = 0x800 ∨ i = 0x801) ∧ a.gear.kind ≠ 0 then { a with gear := { a.gear with relead := true } }
    else if i = 0x811 then { a with reg := { a.reg with x1 := 0, have1 := false } }
    else a

/-- The entries of a staged command take hold. -/
def putParams (t : Staged) (s : State) : State :=
  (paramWrites t.pkt).foldl (entryEffect t.pkt.hdr.target.toNat) s

/-- A run-to-run word of the slot's `STEP_GEN` stop; 0 where it has none. -/
def State.genWord (s : State) (n w : Nat) : Int :=
  match (s.stopsOf n).find? fun e => decide (e.2.kernel = 0x43) with
  | some e => Map.get (fun _ => 0) (s.blk (s.slotLe n * 2048 + e.2.param)).words w
  | none => 0

/-- A parameter as `GET_PARAMS` reads it: the read-only entries are views (R250, R277, R300, R330, R355,
R445, R536). -/
def State.parView (s : State) (n i : Nat) : BitVec 64 :=
  let a := s.axis n
  let l := s.lims n
  let int (v : Int) : BitVec 64 := BitVec.ofInt 64 v
  let nat (v : Nat) : BitVec 64 := BitVec.ofNat 64 v
  if i = 0x120 then int (s.axWord n 0xA0).toInt
  else if 0x121 ≤ i ∧ i ≤ 0x125 then int (a.calib.proposals.getD (i - 0x121) 0)
  else if i = 0x610 then int l.vp
  else if i = 0x611 then int l.ap
  else if i = 0x612 then int l.dp
  else if i = 0x613 then int l.jp
  else if i = 0x614 then nat (s.planK n % 2 ^ 32)
  else if i = 0x720 then nat a.homing.word
  else if i = 0x820 then int a.ofs.tgt
  else if i = 0x821 then int a.ofs.pos
  else if i = 0x822 then int a.reg.err
  else if i = 0x823 then nat (a.reg.applied % 65536 + a.reg.rejected % 65536 * 65536)
  else if i = 0x824 then nat (a.gear.kind + a.gear.table * 256 + a.gear.master * 65536)
  else if i = 0xA10 then nat (8 - s.genWord n 23).toNat
  else if i = 0xA11 then int (s.genWord n 22)
  else if 0xB10 ≤ i ∧ i ≤ 0xB13 then nat (s.wearOf n (i - 0xB10)).used
  else if 0xB14 ≤ i ∧ i ≤ 0xB17 then nat (s.wearOf n (i - 0xB14)).state
  else if 0xC00 ≤ i ∧ i ≤ 0xC07 then
    let v := s.safeView n i
    if 0xC04 ≤ i ∧ i ≤ 0xC06 then int (BitVec.ofNat 32 v).toInt else nat v
  else s.par n i

def opSetParams : OpSpec :=
  { axis := true, yes := true
    len := fun _ k => decide (k.payload.length = 4 + 12 * k.n 0 2)
    check := setParamsBad, apply := holds putParams }

/-- `DEFAULT_PARAMS` (R139): the defaults obey the cross-parameter and table rules as values do (DEDUCED,
log 42). -/
def opDefaultParams : OpSpec :=
  { axis := true, yes := true, len := lenIs 2
    check := fun s k =>
      let n := k.hdr.target.toNat
      let r := k.n 0 2
      let w := (firstFail ((((putEntries n (paramWrites k) s.paramsSoon).crossRules n).map fun r => (r.1, ST.badValue, r.2))))
      ((firstFail [badAt (decide (r ≠ 0xFFFF ∧ (r % 256 ≠ 0 ∨ 0x0C00 < r))) 0]).or w).or
        (firstFail [(!s.axOff n, ST.axisState, 0), (decide (r = 0 ∨ r = 0xFFFF) && s.inTable n, ST.inUse, 0)])
    apply := holds putParams }

/-! ### ENABLE, DISABLE, CLEAR_FAULT, AXIS_STATUS (R139, R214, R262, R291) -/

/-- `S_PREV` and `REST` of the slot's `STEP_GEN` at `ENABLE` (R349). -/
def genEnable (n : Nat) (s : State) : State :=
  match (s.stopsOf n).find? fun e => decide (e.2.kernel = 0x43) with
  | some e => s.onBlk (s.slotLe n * 2048 + e.2.param) fun b =>
      { b with words := Map.set (fun _ => 0) (Map.set (fun _ => 0) b.words 20 (s.ax64 n 0x10)) 24 0 }
  | none => s

/-- A READY slot becomes ENABLED. -/
def enableSlot (n : Nat) (s : State) : State :=
  let s := pwmOwn n (enableLoops n s)
  let s := genEnable n (s.setAxb64 n 0x10 (s.ax64 n 0))
  let s := [0xB0, 0xB8, 0x18, 0x20].foldl (fun s o => s.setAxb64 n o 0) s
  let s := (s.setAxb n 0xC0 0).putK n 0
  let s := s.setAxb n 0xCC (setBits (s.axWord n 0xCC) 2 0 0)
  s.onAxis n fun a =>
    { a with
      state := .enabled, fault := 0, stop := .none, causes := [], stale := 0, queue := [], plan := {}, base := 0, inSeg := false
      origin := [0, 0, 0], gear := {}, ofs := {}, snapK := 0
      reg := { a.reg with x1 := 0, have1 := false, ended := false } }

def opEnable : OpSpec :=
  { axis := true, group := true, yes := true
    check := fun s _ => firstFail [needRun s]
    slot := fun s _ n => firstFail [((s.axis n).state != .ready, ST.axisState, 0), (s.holdNow n, ST.safeStop, 0),
      (s.wornOut n, ST.limit, 0)]
    apply := holdsIf (fun s _ n => s.running && (s.axis n).state == .ready)
      fun t s => t.slots.foldl (fun s n => enableSlot n s) s }

def opDisable : OpSpec :=
  { axis := true, group := true, device := true, yes := true, slots := stopSlots
    apply := holds fun t s => t.slots.foldl (fun s n => disableAxis n s) s }

/-- A slot can leave FAULT. -/
def State.clears (s : State) (n : Nat) : Bool := (s.axis n).state == .fault && s.causeGone n

def opClearFault : OpSpec :=
  { axis := true, group := true, device := true, yes := true
    slots := fun s k =>
      if k.hdr.target = 0xFFFF then (List.range s.part.slots).filter fun n => (s.axis n).state == .fault
      else s.targetSlots k.hdr.target.toNat
    slot := fun s _ n => firstFail [(!s.clears n, ST.axisState, 0)]
    apply := holdsIf (fun s _ n => s.clears n) fun t s =>
      t.slots.foldl (fun s n => s.onAxis n fun a => { a with state := .disabled, causes := [], stale := 0 }) s }

/-- The record of the last sealing (R62). -/
def axisRecord (s : State) (k : Packet) : Bytes :=
  let n := k.hdr.target.toNat
  [1, 2, 3, 4, 5, 6, 7, 12, 13, 0].flatMap fun i => wordBytes (s.reg (Reg.axsRec (16 * n + i)))

def opAxisStatus : OpSpec := { axis := true, result := axisRecord }

/-! ### Moves (R257 to R268, R283, R284, R557) -/

/-- Where `OPT` stands in the payload of a move. -/
def optAt (op : Nat) : Nat := if op = 0x0404 then 4 else 8
/-- `APPEND`. -/
def Packet.appends (k : Packet) : Bool := decide (k.op ≠ 0x0507) && decide (k.n (optAt k.op) 4 % 2 = 1)

/-- The slot that a move acts on: the slot bound to the virtual master for `VMASTER_SET` (R306). -/
def State.vmSlot (s : State) (vm : Nat) : Option Nat :=
  s.slots.find? fun n => decide (s.axisType n = 6 ∧ s.pn n 0x825 = vm)

/-- What a move asks for, `endPos` being the end position of the motion it follows. -/
def moveKind (s : State) (n : Nat) (k : Packet) (endPos : Int) : SegKind :=
  if k.op = 0x0401 then .pos (k.i 0 8)
  else if k.op = 0x0402 then .pos (wrap64 (endPos + k.i 0 8))
  else if k.op = 0x0404 then .stream ((List.range (k.n 0 2)).map fun i => k.i (8 + 8 * i) 8)
  else .vel (s.velU n (k.i (if k.op = 0x0507 then 8 else 0) 8))

/-- Direction of a move (R283) and its end position when that is checked (R284). -/
def moveWay (kind : SegKind) (endPos : Int) : Int × Option Int :=
  match kind with
  | .pos p => (sgn (wrap64 (p - endPos)), some p)
  | .path p => (sgn (wrap64 (p - endPos)), some p)
  | .vel v => (sgn v, none)
  | .stream l => (sgn (wrap64 (l.headD endPos - endPos)), none)

/-- Steps 9 to 11 of a move of a slot; homing refuses it first (R293). -/
def moveBad (s : State) (k : Packet) (n : Nat) : Bad :=
  let x := s.ahead n (s.effectAt k.hdr none [n])
  let e := x.endPos k.appends
  let w := moveWay (moveKind s n k e) e
  firstFail [
    (decide ((s.axis n).homing.outcome = 1), ST.inUse, 0),
    (!s.moves n, ST.axisState, 0),
    (decide (k.op = 0x0401) && !(s.axis n).homed, ST.notHomed, 0),
    (decide (k.op = 0x0401 ∨ k.op = 0x0402) && (s.axis n).uncertain, ST.posUncertain, 0),
    (s.claimed n || (s.groupSoon n).isSome, ST.inUse, 0),
    (s.holdNow n, ST.safeStop, 0),
    (!(s.lims n).ok, ST.limit, 0),
    (s.limitMet n w.1, ST.limitSwitch, 0),
    (match w.2 with | some p => s.softMet n p | none => false, ST.softLimit, 0)]

/-- The slot of a move. -/
def State.moveSlots (s : State) (k : Packet) : List Nat :=
  if k.op = 0x0507 then (s.vmSlot (k.n 0 1)).toList else s.targetSlots k.hdr.target.toNat

/-- A move is planned as it retires (R263, R267). -/
def moveAct (k : Packet) (e : Nat) (r : Reply) (s : State) : Ran :=
  match s.moveSlots k with
  | [] => { reply := r, st := s }
  | n :: _ =>
    let g := (s.ahead n e).endPos k.appends
    let q := s.planSeg n e k.appends (moveKind s n k g)
    let s := if k.appends || !(s.replacements n).isEmpty then s else (s.setAxb n 0xC8 (w32 q.2)).sflag n 0 true
    { reply := r, st := s, stg := fun t => { t with seg := some q.1, append := k.appends, switchK := q.2 } }

/-- The slot's state allows a move to take hold. -/
def State.takesMove (s : State) (n : Nat) : Bool :=
  s.moves n && decide ((s.axis n).gear.kind = 0) && decide ((s.axis n).homing.outcome ≠ 1) && (s.groupOf n).isNone

/-- A replacement meets its boundary: moves of the slot that still wait for a switch of this boundary are
superseded, and it waits for its own switch run (R259, R267). -/
def takeReplace (n k : Nat) (late : Bool) (t : Staged) (s : State) : State :=
  let old := (s.movesOf n).filter fun d => d.waiting && !d.cut && decide (d.eff = k) && !d.is t.ses t.pkt.hdr.seq
  let sk := match old.find? fun d => !d.append with | some d => d.switchK | none => t.switchK
  let s := old.foldl (fun s d => tookHold d k d.late (if d.pkt.op = 0x0404 then s else s.sflag n 1 false)) s
  (restage { t with waiting := true, late := late, eff := k, switchK := sk } s).showStaged n

/-- A move meets its boundary. -/
def moveApply (k : Nat) (late : Bool) (t : Staged) (s : State) : State :=
  match t.slots, t.seg with
  | n :: _, some q =>
    let a := s.axis n
    match a.state, a.stop with
    | .stopping, .quick _ _ => restage { t with cut := true } s
    | _, _ =>
      if !s.takesMove n then failed t ST.axisState s
      else if !t.append then takeReplace n k late t s
      else if s.held n t then restage { t with waiting := true, late := late, eff := k } s
      else
        let s := if t.pkt.op = 0x0404 then s else s.sflag n 1 false
        tookHold t k late (s.onAxis n fun a =>
          { a with queue := a.queue ++ [q], state := .moving })
  | _, _ => failed t ST.axisState s

/-- Reserved bits of `OPT`. -/
def badOpt (k : Packet) : Bool × Nat × Nat := badAt (decide (1 < k.n (optAt k.op) 4)) (optAt k.op)

def opMove : OpSpec :=
  { axis := true, yes := true, len := lenIs 12
    check := fun s k => firstFail [badOpt k, needRun s]
    slot := moveBad, act := moveAct, apply := moveApply }

def opStream : OpSpec :=
  { axis := true, yes := true
    len := fun _ k => decide (k.payload.length = 8 + 8 * k.n 0 2)
    check := fun s k => firstFail [badAt (decide (k.n 0 2 = 0 ∨ 61 < k.n 0 2)) 0, badAt (decide (k.n 2 2 ≠ 0)) 2, badOpt k, needRun s]
    slot := moveBad, act := moveAct, apply := moveApply }

/-! ### HALT, QUICK_STOP, FLUSH_QUEUE (R259, R261, R267, R290, R291) -/

/-- Moves of some slots that precede a stop, or wait for a switch, never take hold (R267): the reply gives
the period of the halt. -/
def displace (k : Nat) (t : Staged) (s : State) : State :=
  let before := s.staged.takeWhile fun d => !d.is t.ses t.pkt.hdr.seq
  let l := s.staged.filter fun d =>
    isMove d.pkt.op && !d.cut && (d.slots.any fun n => decide (n ∈ t.slots))
      && (d.waiting || before.any fun b => b.is d.ses d.pkt.hdr.seq)
  l.foldl (fun s d => tookHold d k (d.lateAt k) s) s

def haltApply (k : Nat) (late : Bool) (t : Staged) (s : State) : State :=
  let t' := { t with slots := t.slots.flatMap s.withGroup }
  let on (s : State) (n : Nat) : Bool := (s.axis n).state.on && (s.axis n).state != .stopping
  let s := if t.slots.any (on s) then displace k t' s else s
  tookHold t k late (t.slots.foldl (fun s n => haltSlots n s) s)

def opHalt : OpSpec := { axis := true, group := true, device := true, yes := true, slots := stopSlots, apply := haltApply }

def opQuickStop : OpSpec :=
  { axis := true, group := true, device := true, yes := true, slots := stopSlots
    apply := holds fun t s => t.slots.foldl (fun s n => quickSlots n none s.qsEnd s) s }

/-- The entries behind the segment in progress leave a slot's queue. -/
def flushSlot (n k : Nat) (s : State) : State :=
  let joining := (s.movesOf n).filter fun d => d.waiting && d.append && !d.cut
  let s := joining.foldl (fun s d => tookHold d k d.late s) s
  let s := s.sflag n 1 false
  match s.groupOf n with
  | some i => if (s.group i).segs.isEmpty ∨ (s.group i).stop ≠ 0 then s else flushPath i s
  | none => s.onAxis n fun a => { a with queue := if a.inSeg then a.queue.take 1 else [] }

def opFlush : OpSpec :=
  { axis := true, group := true, yes := true
    apply := fun k late t s => tookHold t k late (t.slots.foldl (fun s n => flushSlot n k s) s) }

/-! ### Groups and paths (R270 to R276) -/

/-- Every set-point stop of the slot in the active tables names `PATH`, and there is one. -/
def State.setPointStop (s : State) (n kernel : Nat) : Bool :=
  let l := s.active.filter fun e => decide (e.2.flags % 4 ≠ 0 ∧ e.2.slot = n) && decide (e.2.kernel = 0x20 ∨ e.2.kernel = 0x21 ∨ e.2.kernel = 0x22)
  !l.isEmpty && l.all fun e => decide (e.2.kernel = kernel)

/-- Members that a definition changes. -/
def defineSlots (s : State) (k : Packet) : List Nat :=
  (List.range 128).filter fun n => decide (n ∈ mapSlots k ∨ n ∈ s.membersSoon k.groupNo)

def defineBad (s : State) (k : Packet) : Bad :=
  let ms := mapSlots k
  let lead := ms.headD 0
  (firstFail [badAt (decide (8 < ms.length)) 0]).or
    (firstBadOf (fun n => firstFail [(!s.setPointStop n 0x21 || decide (s.pn n 2 ≠ s.pn lead 2 ∨ s.pn n 3 ≠ s.pn lead 3), ST.badValue, n)]) ms)

def opGroupDefine : OpSpec :=
  { group := true, yes := true, len := lenIs 16
    named := fun s k => (mapSlots k).find? (fun n => decide (s.part.slots ≤ n)) |>.map fun n => (ST.absentUnit, n)
    check := defineBad, slots := defineSlots
    slot := fun s k n => firstFail [(!s.axOff n, ST.axisState, 0),
      (match s.groupSoon n with | some g => decide (g ≠ k.groupNo) | none => false, ST.inUse, 0)]
    apply := holdsIf (fun s _ n => s.axOff n) fun t s =>
      let ms := mapSlots t.pkt
      let s := s.setGroup t.pkt.groupNo { members := ms }
      t.slots.foldl (fun s n => s.sflag n 3 (decide (n ∈ ms))) s }

/-- Where the retired path of a group ends: its staged segments count (R271). -/
def State.pathEnds (s : State) (g : Nat) : List Int :=
  let n := (s.group g).members.length
  (s.staged.filter fun t => decide (t.pkt.op = 0x0408 ∧ t.pkt.groupNo = g) && !t.cut).foldl
    (fun p t => (pathSegOf t.pkt.payload p).ends) ((List.range n).map fun m => s.groupEnd g m)

/-- Two radii, given by their squares, differ by at most 2^24. -/
def radiiMeet (a b : Int) : Bool :=
  let d := a + b - 2 ^ 48
  decide (d ≤ 0 ∨ d * d ≤ 4 * a * b)

def sq (x : Int) : Int := x * x

def pathSegBad (s : State) (k : Packet) : Bad :=
  let st := s.pathEnds k.groupNo
  let n := st.length
  let p := pathSegOf k.payload st
  let arc := decide (p.kind = 1)
  let r (l : List Int) : Int := sq (listAt l p.px - p.cx) + sq (listAt l p.py - p.cy)
  let off := !radiiMeet (r st) (r p.ends)
    || (List.range n).any fun m => decide (m ≠ p.px ∧ m ≠ p.py ∧ listAt st m ≠ listAt p.ends m)
  firstFail [
    badAt (decide (2 < k.n 0 1)) 0, badAt (decide (3 < k.n 1 1)) 1,
    badAt (arc && decide (n ≤ p.px)) 2, badAt (arc && decide (n ≤ p.py ∨ p.px = p.py)) 3,
    badAt (if p.kind = 2 then decide (p.dwell = 0 ∨ 2 ^ 24 < p.dwell) else decide (p.dwell ≠ 0)) 8,
    badAt (decide (k.n 12 4 ≠ 0)) 12,
    badAt (!arc && decide (p.cx ≠ 0)) 16, badAt (!arc && decide (p.cy ≠ 0)) 24,
    badAt (arc && off) 32, needRun s,
    (decide (n = 0), ST.axisState, 0)]

/-- An arc from angle `a` over `d` passes between the angles `lo` and `hi`. -/
def sweeps (a d lo hi : Int) : Bool :=
  (List.range 3).any fun i => decide (max a (lo + i * 2 ^ 32) < min (a + d) (hi + i * 2 ^ 32))

/-- Directions in which a segment moves a member anywhere on its way (R283): on an arc the first axis of the plane
moves by -sin, the second by cos, and a clockwise arc runs them backwards. -/
def pathWays (p : PathSeg) (m : Nat) : List Int :=
  match p.kind with
  | 0 => [sgn (listAt p.ends m - listAt p.start m)]
  | 1 =>
    let q := p.measure
    let a : Int := if q.cw then toU 32 ((q.th0 : Int) - q.dth) else q.th0
    let sg : Int := if q.cw then -1 else 1
    let way (up down : Int) : List Int :=
      (if sweeps a q.dth up (up + 2 ^ 31) then [sg] else []) ++ (if sweeps a q.dth down (down + 2 ^ 31) then [-sg] else [])
    if m = q.px then way (-(2 ^ 31)) (-(2 ^ 32)) else if m = q.py then way (-(2 ^ 30)) (-(2 ^ 30) - 2 ^ 31) else []
  | _ => []

def pathSlotBad (s : State) (k : Packet) (n : Nat) : Bad :=
  let g := s.group k.groupNo
  let m := g.members.idxOf n
  let p := pathSegOf k.payload (s.pathEnds k.groupNo)
  firstFail [
    (decide ((s.axis n).homing.outcome = 1), ST.inUse, 0),
    (!s.moves n, ST.axisState, 0), (s.claimed n, ST.inUse, 0), (s.holdNow n, ST.safeStop, 0),
    (!(s.lims n).ok, ST.limit, 0),
    ((pathWays p m).any (s.limitMet n), ST.limitSwitch, 0),
    (s.softMet n (listAt p.ends m), ST.softLimit, 0)]

/-- A path segment meets its boundary. -/
def pathApply (k : Nat) (late : Bool) (t : Staged) (s : State) : State :=
  let stop (n : Nat) : Bool := match (s.axis n).state, (s.axis n).stop with | .stopping, .quick _ _ => true | _, _ => false
  if t.slots.any stop then restage { t with cut := true } s
  else if t.slots.isEmpty then failed t ST.axisState s
  else holdsIf (fun s _ n => s.moves n) (fun t s => joinPath t.pkt.groupNo t.pkt.payload s) k late t s

def opPathSegment : OpSpec :=
  { group := true, yes := true
    len := fun s k => decide (k.payload.length = 32 + 8 * (s.group k.groupNo).members.length)
    check := pathSegBad, slot := pathSlotBad, apply := pathApply }

end Sys2Proof.Machine
end

