-- ==== Sys2Proof/Machine/CmdGear.lean ====
section
/-!
DEFINITION. Gearing, homing and latch commands (chapter 05 classes 0x05, 0x06 and 0x07).
-/
namespace Sys2Proof.Machine

/-! ### Masters (R140, R303, R304) -/

/-- A `MASTER` value that the table of R140 lists and that is not the follower. -/
def masterListed (n m : Nat) : Bool := decide ((m < 0x80 ∧ m ≠ n) ∨ (0x100 ≤ m ∧ m < 0x108) ∨ (0x200 ≤ m ∧ m < 0x204))

/-- The master is present. -/
def State.masterThere (s : State) (m : Nat) : Bool :=
  if m < 0x80 then decide (m < s.part.slots) else if 0x200 ≤ m ∧ m < 0x204 then s.cap 3 else true

/-- The master of a slot, as retired commands leave it. -/
def State.masterSoon (s : State) (n : Nat) : Option Nat :=
  let g := (s.axis n).gear
  let now := if g.kind = 0 then none else some g.master
  (s.staged.filter fun t => decide (n ∈ t.slots ∧ (t.pkt.op = 0x0501 ∨ t.pkt.op = 0x0505))).foldl
    (fun _ t => some (t.pkt.n (if t.pkt.op = 0x0501 then 0 else 2) 2)) now

/-- `SH[c].CFG` as retired commands leave it. -/
def State.shaftSoon (s : State) (c : Nat) : Word :=
  (s.staged.filter fun t => decide (t.pkt.op = 0x0508 ∧ t.pkt.n 0 1 = c)).foldl (fun _ t => Bytes.word t.pkt.payload 4)
    (s.reg (Reg.chnShCfg c))

/-- The slot that a master takes its motion from: a virtual master from its bound slot, a shaft channel that this
device originates from its source. -/
def State.masterSlot (s : State) (m : Nat) : Option Nat :=
  if m < 0x80 then some m
  else if 0x100 ≤ m ∧ m < 0x108 then s.vmSlot (m - 0x100)
  else if 0x200 ≤ m ∧ m < 0x204 then
    let cfg := s.shaftSoon (m - 0x200)
    if !bit cfg 0 || !bit cfg 1 then none
    else if bits cfg 3 2 < 2 then some (bits cfg 10 4)
    else s.vmSlot (bits cfg 10 4)
  else none

/-- Following masters from `m` leads to slot `n`. -/
def State.leadsTo (s : State) (n : Nat) : Nat → Nat → Bool
  | 0, _ => false
  | fuel + 1, m =>
    match s.masterSlot m with
    | none => false
    | some a => decide (a = n) || (match s.masterSoon a with | some q => s.leadsTo n fuel q | none => false)

/-- The rate rule and the loop rule of R304. -/
def State.masterBad (s : State) (n m : Nat) : Bool :=
  (decide (m < 0x80 ∧ s.pn m 2 ≠ 0 ∧ (s.pn m 2 ≠ s.pn n 2 ∨ s.pn m 3 ≠ s.pn n 3))) || s.leadsTo n 256 m

/-- Steps 9 to 11 of a link, an engagement or a homing; homing refuses it first (R293). -/
def followBad (s : State) (_ : Packet) (n : Nat) : Bad :=
  firstFail [(decide ((s.axis n).homing.outcome = 1), ST.inUse, 0), ((s.axis n).state != .enabled, ST.axisState, 0), (s.claimed n || (s.groupSoon n).isSome, ST.inUse, 0),
    (s.holdNow n, ST.safeStop, 0)]

/-- The follower can begin to follow. -/
def State.follows (s : State) (n : Nat) : Bool :=
  (s.axis n).state == .enabled && decide ((s.axis n).gear.kind = 0) && decide ((s.axis n).homing.outcome ≠ 1)

/-- The slot of a command aimed at an axis. -/
def Staged.slot (t : Staged) : Nat := t.pkt.hdr.target.toNat

/-! ### Dovetails (R307 to R310) -/

def opLink : OpSpec :=
  { axis := true, yes := true, len := lenIs 12
    named := fun s k => if masterListed k.hdr.target.toNat (k.n 0 2) && !s.masterThere (k.n 0 2) then some (ST.absentUnit, 0) else none
    check := fun s k =>
      let n := k.hdr.target.toNat
      firstFail [badAt (!masterListed n (k.n 0 2) || s.masterBad n (k.n 0 2)) 0, badAt (decide (k.n 2 2 ≠ 0)) 2,
        badAt (decide (k.n 8 4 = 0)) 8]
    slot := followBad
    apply := holdsIf (fun s _ n => s.follows n) fun t s =>
      let n := t.slot
      let m := t.pkt.n 0 2
      let s := (s.setAxb64 n 0xB0 0).setAxb64 n 0xB8 0
      s.onAxis n fun a =>
        { a with
          state := .moving, ofs := {}, plan := {}
          gear := { kind := 1, master := m, num := t.pkt.i 4 4, den := t.pkt.n 8 4, gPrev := (s.masterAt n m).1, fresh := true } } }

/-- The slot follows by a dovetail or a cam, as retired commands leave it. -/
def State.linked (s : State) (n kind op : Nat) : Bool := decide ((s.axis n).gear.kind = kind) || s.stagedOp n [op]

def opRatio : OpSpec :=
  { axis := true, yes := true, len := lenIs 8
    check := fun _ k => firstFail [badAt (decide (k.n 4 4 = 0)) 4]
    slot := fun s _ n => firstFail [(!s.linked n 1 0x0501, ST.axisState, 0)]
    apply := holdsIf (fun s _ n => decide ((s.axis n).gear.kind = 1)) fun t s =>
      s.onAxis t.slot fun a =>
        let g := a.gear
        { a with gear := { g with num := t.pkt.i 0 4, den := t.pkt.n 4 4, gRem := g.gRem * (t.pkt.n 4 4 : Nat) / (max 1 g.den : Nat) } } }

def opUnlink (kind op : Nat) : OpSpec :=
  { axis := true, yes := true
    slot := fun s _ n => firstFail [(!s.linked n kind op, ST.axisState, 0)]
    apply := holdsIf (fun s _ n => decide ((s.axis n).gear.kind = kind)) fun t s => haltAxis t.slot s }

/-! ### Cams (R312 to R315) -/

def State.cam (s : State) (t : Nat) : Option CamTable := Map.get (fun _ => none) s.camHdr t
def State.camPt (s : State) (t i : Nat) : Option Int := Map.get (fun _ => none) s.camPoints (2048 * t + i)

/-- A table is engaged, or a retired command engages it. -/
def State.camBusy (s : State) (t : Nat) : Bool :=
  (List.range s.part.slots).any (fun n => decide ((s.axis n).gear.kind = 2 ∧ (s.axis n).gear.table = t))
    || s.staged.any fun d => decide (d.pkt.op = 0x0505 ∧ d.pkt.n 0 1 = t)

/-- Points that the other tables hold. -/
def State.camOthers (s : State) (t : Nat) : Nat :=
  ((List.range 64).map fun i => if i = t then 0 else match s.cam i with | some c => c.n | none => 0).sum

/-- Every point has been written. -/
def State.camComplete (s : State) (t : Nat) : Bool :=
  match s.cam t with
  | some c => (List.range c.n).all fun i => (s.camPt t i).isSome
  | none => false

def camHeader (k : Packet) : Bool := decide (k.n 4 4 = 0xFFFFFFFF)

def camLoad (k : Packet) (s : State) : State :=
  let t := k.n 0 1
  if camHeader k then
    { s with
      camHdr := Map.set (fun _ => none) s.camHdr t (some ⟨k.n 8 4, k.n 12 4, k.i 16 8⟩)
      camPoints := s.camPoints.filter fun e => decide (e.1 / 2048 ≠ t) }
  else
    { s with
      camPoints := (List.range ((k.payload.length - 8) / 8)).foldl
        (fun m i => Map.set (fun _ => none) m (2048 * t + k.n 4 4 + i) (some (k.i (8 + 8 * i) 8))) s.camPoints }

def opCamLoad : OpSpec :=
  { device := true
    len := fun _ k => if camHeader k then decide (k.payload.length = 24)
      else decide (k.payload.length % 8 = 0 ∧ 16 ≤ k.payload.length ∧ k.payload.length ≤ 8 + 8 * 61)
    check := fun s k =>
      let t := k.n 0 1
      let head := camHeader k
      let n := match s.cam t with | some c => c.n | none => 0
      firstFail ([badAt (decide (63 < t)) 0] ++ mustZero k 1 3 ++ [
        badAt (head && decide (k.n 8 4 < 2 ∨ 2048 < k.n 8 4)) 8,
        badAt (head && decide (k.n 12 4 = 0 ∨ 0x7FFFFFFF < k.n 12 4)) 12,
        (!head && (s.cam t).isNone, ST.badFormat, 0),
        badAt (!head && decide (n < k.n 4 4 + (k.payload.length - 8) / 8)) 4,
        (s.camBusy t, ST.inUse, 0),
        (head && decide (65536 < s.camOthers t + k.n 8 4), ST.noMemory, 0)])
    act := actsAs camLoad }

/-- Parts of an engine's cam region in use: start and length, engaged or being copied (R313). -/
def State.camUsed (s : State) (le : Nat) : List (Nat × Nat) :=
  ((List.range s.part.slots).filterMap fun n =>
    let g := (s.axis n).gear
    if g.kind = 2 ∧ s.slotLe n = le then some (g.camAt, g.camN) else none)
    ++ s.staged.filterMap fun d =>
      if d.pkt.op = 0x0505 ∧ s.slotLe d.slot = le then
        some (d.camAt, match s.cam (d.pkt.n 0 1) with | some c => c.n | none => 0)
      else none

/-- The first place in the region for `n` points (DESIGN CHOICE, log 43). -/
def State.camPlace (s : State) (le n : Nat) : Option Nat :=
  let used := s.camUsed le
  (0 :: used.map fun u => u.1 + u.2).foldl (fun best p =>
    if p + n ≤ 2048 ∧ used.all (fun u => decide (p + n ≤ u.1 ∨ u.1 + u.2 ≤ p)) then
      match best with | some b => some (min b p) | none => some p
    else best) none

def camN (s : State) (k : Packet) : Nat := match s.cam (k.n 0 1) with | some c => c.n | none => 0

/-- One boundary's share of the copy of each engagement (R313). -/
def copyCams (s : State) : State :=
  s.staged.foldl (fun s d =>
    if d.pkt.op = 0x0505 then
      let n := camN s d.pkt
      let upTo := min n (d.copied + 256)
      let le := s.slotLe d.slot
      let s := (List.range (upTo - d.copied)).foldl (fun s i =>
        let j := d.copied + i
        s.setLe le (0xC000 + 8 * ((d.camAt + j) % 2048)) (sleBytes 8 ((s.camPt (d.pkt.n 0 1) j).getD 0))) s
      restage { d with copied := upTo } s
    else s) s

/-- An engagement meets a boundary: it waits for its copy (R313), then the table drives the slot (R314). -/
def engageApply (k : Nat) (late : Bool) (t : Staged) (s : State) : State :=
  let n := t.slot
  if !s.follows n then failed t ST.axisState s
  else if t.copied < camN s t.pkt then restage { t with waiting := true } s
  else
    let m := t.pkt.n 2 2
    let c := (s.cam (t.pkt.n 0 1)).getD {}
    let x := (s.masterAt n m).1
    let g : Gear := { kind := 2, master := m, table := t.pkt.n 0 1, camN := c.n, camSpan := c.span, camRise := c.rise,
                      camAt := t.camAt, gPrev := x, fresh := true }
    let ph := wrap64 (x - s.pi n 0x806) % g.span
    let g := { g with ph := ph, base := s.ax64 n 0x10 - (s.camAt (s.slotLe n) g ph).1 }
    let s := (s.setAxb64 n 0xB0 0).setAxb64 n 0xB8 0
    tookHold t k late (s.onAxis n fun a =>
      { a with state := .moving, plan := {}, ofs := { a.ofs with pos := 0 }, gear := g })

def opCamEngage : OpSpec :=
  { axis := true, yes := true, len := lenIs 8
    named := fun s k => if masterListed k.hdr.target.toNat (k.n 2 2) && !s.masterThere (k.n 2 2) then some (ST.absentUnit, 2) else none
    check := fun s k =>
      let n := k.hdr.target.toNat
      firstFail [badAt (decide (63 < k.n 0 1)) 0, badAt (decide (k.n 1 1 ≠ 0)) 1,
        badAt (!masterListed n (k.n 2 2) || s.masterBad n (k.n 2 2)) 2, (!s.camComplete (k.n 0 1), ST.badFormat, 0)]
    slot := fun s k n => (followBad s k n).or (firstFail [(!s.setPointStop n 0x22, ST.inUse, 0),
      ((s.camPlace (s.slotLe n) (camN s k)).isNone, ST.noMemory, 0)])
    act := fun k _ r s =>
      match s.camPlace (s.slotLe k.hdr.target.toNat) (camN s k) with
      | some p => { reply := r, st := s, stg := fun t => { t with camAt := p } }
      | none => { reply := { status := ST.noMemory, result := detail 0 }, st := s }
    apply := engageApply }

/-! ### Virtual masters and the line shaft (R306, R325) -/

def opVmaster : OpSpec :=
  { device := true, yes := true, len := lenIs 16
    check := fun s k => firstFail ([badAt (decide (7 < k.n 0 1)) 0] ++ mustZero k 1 7
      ++ [badAt (s.vmSlot (k.n 0 1)).isNone 0, needRun s])
    slots := State.moveSlots, slot := moveBad, act := moveAct, apply := moveApply }

/-- A word that `SHAFT_CONFIG` refuses. -/
def shaftBad (s : State) (w : Word) : Bool :=
  let src := bits w 10 4
  decide (bits w 19 16 = 0 ∨ bits w 27 20 = 0 ∨ bits w 15 11 ≠ 0 ∨ bits w 31 28 ≠ 0)
    || (bit w 1 && (match bits w 3 2 with
      | 0 => decide (s.part.slots ≤ src)
      | 1 => decide (s.part.slots ≤ src)
      | 2 => decide (7 < src)
      | _ => true))

def opShaftConfig : OpSpec :=
  { device := true, yes := true, cap := some 3, len := lenIs 8, slots := fun _ _ => []
    check := fun s k => firstFail ([badAt (decide (3 < k.n 0 1)) 0] ++ mustZero k 1 3
      ++ [badAt (shaftBad s (Bytes.word k.payload 4)) 4])
    apply := holds fun t s => shaftConfig (t.pkt.n 0 1) (Bytes.word t.pkt.payload 4) s }

/-! ### Homing (R292, R298) -/

/-- The switch that a method needs is named. -/
def State.homeMissing (s : State) (n method : Nat) : Bool :=
  let sw (i : Nat) : Bool := decide (s.pn n i % 256 = 255)
  match method with
  | 1 => sw 0x701
  | 2 => sw 0x701
  | 3 => sw (if s.pn n 0x700 = 0 then 0x900 else 0x901)
  | 4 => sw (if s.pn n 0x700 = 0 then 0x900 else 0x901)
  | 7 => decide (s.pn n 0x100 ≠ 1)
  | _ => false

def opHomeStart : OpSpec :=
  { axis := true, yes := true, len := lenIs 4
    check := fun s k => firstFail ([badAt (decide (k.n 0 1 = 0 ∨ 7 < k.n 0 1) || s.homeMissing k.hdr.target.toNat (k.n 0 1)) 0]
      ++ mustZero k 1 3 ++ [needRun s])
    slot := followBad
    apply := holdsIf (fun s _ n => s.follows n) fun t s => homeStart t.slot (t.pkt.n 0 1) s }

/-- READY or ENABLED. -/
def State.homeable (s : State) (n : Nat) : Bool := (s.axis n).state == .ready || (s.axis n).state == .enabled

def opHomeSet : OpSpec :=
  { axis := true, yes := true, len := lenIs 8
    slot := fun s _ n => firstFail [(!s.homeable n, ST.axisState, 0)]
    apply := holdsIf (fun s _ n => s.homeable n) fun t s =>
      clearFb t.slot 5 (homeComplete t.slot (t.pkt.i 0 8) (s.ax64 t.slot 0x80) s) }

def opHomeAbort : OpSpec :=
  { axis := true, yes := true
    apply := holds fun t s =>
      if (s.axis t.slot).homing.outcome = 1 then haltAxis t.slot (endHoming t.slot 3 s) else s }

/-! ### Latches and registration (R317 to R319, R321, R324) -/

def opLatchArm : OpSpec :=
  { axis := true, yes := true, cap := some 8, len := lenIs 20
    check := fun _ k => firstFail [badAt (decide (31 < k.n 0 1)) 0, badAt (decide (15 < k.n 1 1)) 1, badAt (decide (k.n 2 2 ≠ 0)) 2]
    slot := fun s k n =>
      let now := match (s.latch (k.n 0 1)).slot with | some m => decide (m ≠ n) | none => false
      let soon := s.staged.any fun t => decide (t.pkt.op = 0x0701 ∧ t.pkt.n 0 1 = k.n 0 1 ∧ t.slot ≠ n)
      firstFail [(now || soon, ST.inUse, 0)]
    apply := fun k late t s =>
      let i := t.pkt.n 0 1
      match (s.latch i).slot with
      | some m => if m ≠ t.slot then failed t ST.inUse s else tookHold t k late (s.onLatch i (arm t))
      | none => tookHold t k late (s.onLatch i (arm t)) }
where
  arm (t : Staged) (l : Latch) : Latch :=
    { l with slot := some t.slot, mode := BitVec.ofNat 8 (t.pkt.n 1 1), winStart := BitVec.ofNat 64 (t.pkt.n 4 8),
             winEnd := BitVec.ofNat 64 (t.pkt.n 12 8) }

def opLatchDisarm : OpSpec :=
  { axis := true, yes := true, cap := some 8, len := lenIs 4
    check := fun _ k => firstFail ([badAt (decide (31 < k.n 0 1)) 0] ++ mustZero k 1 3)
    apply := holds fun t s => s.onLatch (t.pkt.n 0 1) fun l => { l with slot := none } }

/-- The 24 bytes of a latch record (R140). -/
def LatchRec.bytes (r : LatchRec) (input : Nat) : Bytes :=
  leBytes 1 input ++ leBytes 1 (b2n r.falling) ++ leBytes 2 (r.stamp.sec / 2 ^ 32) ++ leBytes 4 r.stamp.sec
    ++ leBytes 4 r.stamp.ns ++ leBytes 4 r.stamp.frac ++ sleBytes 8 (r.pos.getD 0)

/-- The records of an input that are complete, up to `n` of the oldest (R140, R318). -/
def Latch.taken (l : Latch) (n : Nat) : List LatchRec := (l.host.takeWhile fun r => r.pos.isSome).take n

def opLatchRead : OpSpec :=
  { axis := true, cap := some 8, len := lenIs 4
    check := fun _ k => firstFail [badAt (decide (31 < k.n 0 1)) 0, badAt (decide (k.n 1 1 = 0 ∨ 20 < k.n 1 1)) 1,
      badAt (decide (k.n 2 2 ≠ 0)) 2]
    act := fun k _ r s =>
      let i := k.n 0 1
      let l := s.latch i
      let got := l.taken (k.n 1 1)
      { reply := { r with result := got.flatMap fun x => x.bytes i }
        st := s.onLatch i fun l => { l with host := l.host.drop got.length } } }

/-- `REGISTER_CFG` binds. -/
def binds (k : Packet) : Bool := decide (k.n 1 1 / 2 % 2 = 1)

/-- The input is free for the slot and armed for its reference. -/
def State.bindable (s : State) (n i : Nat) : Bool := decide ((s.latch i).slot = some (s.pn n 0x810))
def State.boundElse (s : State) (n i : Nat) : Bool := match (s.latch i).bound with | some m => decide (m ≠ n) | none => false

/-- Undo the binding of a slot. -/
def unbind (n : Nat) (s : State) : State :=
  match (s.axis n).reg.input with
  | some i => (s.onLatch i fun l => { l with bound := none, reg := [] }).onAxis n fun a => { a with reg := { a.reg with input := none } }
  | none => s

def opRegister : OpSpec :=
  { axis := true, yes := true, cap := some 8, len := lenIs 4
    check := fun s k =>
      let n := k.hdr.target.toNat
      firstFail [badAt (decide (31 < k.n 0 1) || !s.bindable n (k.n 0 1)) 0, badAt (decide (3 < k.n 1 1)) 1,
        badAt (decide (k.n 2 2 ≠ 0)) 2]
    slot := fun s k n => firstFail [((s.axis n).state != .enabled, ST.axisState, 0),
      (s.boundElse n (k.n 0 1), ST.inUse, 0), (binds k && !(s.ofsLims n).ok, ST.limit, 0x802)]
    apply := holdsIf (fun s t n => (s.axis n).state.on && !s.boundElse n (t.pkt.n 0 1)) fun t s =>
      let n := t.slot
      let i := t.pkt.n 0 1
      if binds t.pkt then
        ((unbind n s).onLatch i fun l => { l with bound := some n, reg := [] }).onAxis n fun a =>
          { a with reg := { a.reg with input := some i, falling := decide (t.pkt.n 1 1 % 2 = 1) } }
      else if (s.axis n).reg.input = some i then unbind n s else s }

end Sys2Proof.Machine
end

