-- ==== Sys2Proof/Machine/CmdTable.lean ====
section
/-!
DEFINITION. Timetable and kernel commands (chapter 05 classes 0x08 and 0x09).
-/
namespace Sys2Proof.Machine

/-- The loop engine that a payload names is absent (R141). -/
def absentEngine (s : State) (k : Packet) : Bad := if s.engineThere (k.n 0 1) then none else some (ST.absentUnit, 0)

/-! ### Tables (R154, R155) -/

/-- Reserved bits of the record at payload offset `o` (R155). -/
def stopBad (k : Packet) (o : Nat) : Bad :=
  firstFail [badAt (decide (k.n (o + 3) 1 % 4 = 3 ∨ 16 ≤ k.n (o + 3) 1)) (o + 3), badAt (decide (2047 < k.n (o + 4) 2)) (o + 4),
    badAt (decide (k.n (o + 13) 1 ≠ 0)) (o + 13), badAt (decide (k.n (o + 14) 2 ≠ 0)) (o + 14)]

/-- The records of a `TT_WRITE` stand in the shadow table. -/
def writeStops (k : Packet) (s : State) : State :=
  (List.range (k.n 4 2)).foldl (fun s i =>
    { s with shadow := Map.set (fun _ => {}) s.shadow (k.n 0 1 * 512 + k.n 2 2 + i) (stopOf (k.payload.drop (8 + 16 * i))) }) s

def opTtWrite : OpSpec :=
  { device := true, named := absentEngine
    len := fun _ k => decide (k.payload.length = 8 + 16 * k.n 4 2)
    check := fun _ k => (firstFail (mustZero k 1 1 ++ [badAt (decide (512 < k.n 2 2 + k.n 4 2)) 2] ++ mustZero k 6 2)).or
      (firstBadOf (fun i => stopBad k (8 + 16 * i)) (List.range (k.n 4 2)))
    act := actsAs writeStops }

def opTtClear : OpSpec :=
  { device := true, named := absentEngine, len := lenIs 4, check := fun _ k => firstFail (mustZero k 1 3)
    act := actsAs fun k s => { s with shadow := s.shadow.filter fun e => decide (e.1 / 512 ≠ k.n 0 1) } }

def opTtRead : OpSpec :=
  { device := true, named := absentEngine, len := lenIs 6
    check := fun _ k => firstFail (mustZero k 1 1 ++ [badAt (decide (512 < k.n 2 2 + k.n 4 2)) 2,
      badAt (decide (k.n 4 2 = 0 ∨ 31 < k.n 4 2)) 4])
    result := fun s k => (List.range (k.n 4 2)).flatMap fun i =>
      (Map.get (fun _ => {}) s.active (k.n 0 1 * 512 + k.n 2 2 + i) : StopRec).bytes }

/-! ### BUILD_TIMETABLE (R141, R169, R171) -/

/-- Engines of the mask. -/
def maskEngines (k : Packet) : List Nat := (List.range 16).filter fun n => (k.n 0 2).testBit n

/-- The table that a build takes from the shadow table, with the header of each custom kernel that it found (R192). -/
def builtTable (le : Nat) (s : State) : Map StopRec :=
  (tableOf s.shadow le).map fun e =>
    (e.1, { e.2 with hdr := match romKernel e.2.kernel with | some _ => 0 | none => (s.kernelHdr le e.2.kernel).getD 0 })

/-- The build is judged at retirement, over the parameters of R145. -/
def buildAct (k : Packet) (_ : Nat) (r : Reply) (s : State) : Ran :=
  let soon := s.paramsSoon
  let rs := (maskEngines k).map fun n => (n, soon.buildCheck n)
  let bad := rs.findSome? fun x => match x.2 with | .inr e => some e | .inl _ => none
  let s := rs.foldl (fun s x => showBuild bad.isSome x.1 x.2 s) s
  match bad with
  | some e => { reply := { r with status := buildStatus e.2.1, result := detail (if buildStatus e.2.1 = ST.badFormat then 0 else e.2.2) }, st := s }
  | none =>
    let spare (n : Nat) : Nat := match rs.find? fun x => decide (x.1 = n) with
      | some (_, .inl v) => v
      | _ => 0
    { reply := { r with result := (List.range 16).flatMap fun n => leBytes 2 (spare n) }, st := s
      stg := fun t => { t with tables := (maskEngines k).map fun n => (n, spare n, builtTable n s) } }

def opBuild : OpSpec :=
  { device := true, yes := true, len := lenIs 4, slots := fun _ _ => []
    named := fun s k => if (maskEngines k).all s.engineThere then none else some (ST.absentUnit, 0)
    check := fun _ k => firstFail [badAt (decide (k.n 2 2 ≠ 0)) 2]
    act := buildAct
    apply := holds fun t s => t.tables.foldl (fun s x => takeBuild x.1 x.2.1 x.2.2 s) s }

/-! ### Kernel memory (R193) -/

/-- Bytes `o` to `o + n - 1` of kernel memory touch a kernel that a stop of the active table names. -/
def State.kernelUsed (s : State) (le o n : Nat) : Bool :=
  let named (k : Nat) : Bool := s.active.any fun e => decide (e.1 / 512 = le ∧ e.2.flags % 4 ≠ 0 ∧ e.2.kernel = k)
  let meets (a b : Nat) : Bool := decide (a < o + n ∧ o < b)
  (List.range 64).any fun i =>
    let e := s.dirEntry le i
    decide (e.1 ≠ 0) && named e.1 && (meets (4 * i) (4 * i + 4) || meets e.2 (e.2 + s.kernelSpan le e.2))

def kernelLoad (k : Packet) (s : State) : State :=
  (s.setLe (k.n 0 1) (0x20000 + k.n 4 4) (k.payload.drop 8)).event (Reg.leStat (k.n 0 1)) 3

def opKernelLoad : OpSpec :=
  { device := true, named := absentEngine
    len := fun _ k => decide (9 ≤ k.payload.length ∧ k.payload.length ≤ 488)
    check := fun s k =>
      let n := k.payload.length - 8
      firstFail (mustZero k 1 3 ++ [badAt (decide (k.n 4 4 % 16 ≠ 0 ∨ 0x8000 < k.n 4 4 + n)) 4,
        (s.kernelUsed (k.n 0 1) (k.n 4 4) n, ST.inUse, 0)])
    act := actsAs kernelLoad }

def opKernelCheck : OpSpec :=
  { device := true, named := absentEngine, len := lenIs 16
    check := fun s k => firstFail (mustZero k 1 3 ++ [badAt (decide (0x8000 < k.n 4 4)) 4,
      badAt (decide (0x8000 < k.n 4 4 + k.n 8 4)) 8,
      (decide (crc32 (s.kmem (k.n 0 1) (k.n 4 4) (k.n 8 4)) ≠ k.n 12 4), ST.imageCheck, 0)]) }

def opKernelList : OpSpec :=
  { device := true, named := absentEngine, len := lenIs 4, check := fun _ k => firstFail (mustZero k 1 3)
    result := fun s k =>
      let le := k.n 0 1
      let d := s.directory le
      leBytes 2 d.length ++ leBytes 2 (s.kernelFree le) ++ d.flatMap fun e =>
        let h := s.kmem le e.2 32
        leBytes 2 e.1 ++ leBytes 2 (Bytes.num h 6 2) ++ leBytes 2 (Bytes.num h 4 2) }

end Sys2Proof.Machine
end

