-- ==== Sys2Proof/Machine/CmdMgmt.lean ====
section
/-!
DEFINITION. Session, device, acquisition, field, time, pair, safety, update and nameplate commands (chapter 05
classes 0x01, 0x02 and 0x0A to 0x10), and the table of all opcodes.
-/
namespace Sys2Proof.Machine

/-! ### Classes 0x01 and 0x02 (R138) -/

def opNop : OpSpec := { axis := true, group := true, device := true, slots := fun _ _ => [] }

def opEcho : OpSpec :=
  { device := true, slots := fun _ _ => [], len := fun _ k => decide (k.payload.length ≤ 496), result := fun _ k => k.payload }

def sessionInfo (s : State) (k : Packet) : Bytes :=
  let n := k.hdr.ses
  leBytes 1 (s.field (Reg.cmdState n) 15 8) ++ leBytes 1 n ++ leBytes 2 (s.ses n).opened.credit
    ++ wordBytes (s.reg (Reg.cmdAcceptedSeq n)) ++ wordBytes (s.reg (Reg.cmdRetiredSeq n))
    ++ leBytes 2 (s.ses n).inFlight ++ leBytes 2 0

def opSessionInfo : OpSpec := { device := true, slots := fun _ _ => [], result := sessionInfo }

/-- `PWR.STATE` as it reads. -/
def State.pwrStateView (s : State) : Word := (s.pwrView Reg.pwrState).getD 0

/-- The version of the running firmware (R524). -/
def State.firmware (s : State) : Nat :=
  if s.power.image.isEmpty then Config.romId.toNat % 65536 else Bytes.num s.power.image 8 4

def devInfo (s : State) (_ : Packet) : Bytes :=
  wordBytes s.part.id ++ wordBytes (s.reg Reg.sysIfver) ++ wordBytes (s.reg Reg.sysCapLive) ++ wordBytes (s.reg Reg.sysCapLiveX)
    ++ wordBytes (s.reg Reg.sysStrap) ++ leBytes 4 s.firmware ++ wordBytes s.pwrStateView

def opDevInfo : OpSpec := { device := true, slots := fun _ _ => [], result := devInfo }

/-- Slots in some states. -/
def State.countAxes (s : State) (f : AxState → Bool) : Nat := ((List.range s.part.slots).filter fun n => f (s.axis n).state).length

def devStatus (s : State) (_ : Packet) : Bytes :=
  leBytes 8 s.periodNow ++ leBytes 2 (s.countAxes (· == .fault)) ++ leBytes 2 (s.countAxes fun x => x == .enabled || x == .moving)
    ++ leBytes 4 s.droppedStops

def opDevStatus : OpSpec := { device := true, slots := fun _ _ => [], result := devStatus }

/-- An active table is built. -/
def State.someBuilt (s : State) : Bool := s.engines?.any fun n => bit (s.reg (Reg.ttbState n)) 0

/-- The device enters RUN at a boundary (R27): built tables become active, drop counters and `INIT` flags are
cleared (R164, R238). -/
def enterRun (s : State) : State :=
  let s := s.onPower fun p => { p with mode := .run, target := .run }
  let s := s.engines?.foldl (fun s n =>
    let st := s.reg (Reg.ttbState n)
    if bit st 0 then
      (s.setReg (Reg.ttbState n) (setBit (setBit st 1 true) 2 (decide (bits st 25 16 = 0)))).onEng n fun e => { e with ended := false }
    else s) s
  (List.range s.part.slots).foldl (fun s n =>
    clearFb n 0 (s.onAxis n fun a => { a with drops := 0, stale := 0, dropped := false })) { s with droppedStops := 0 }

/-- `MS` of every `STEP_GEN` is 8 after an entry to READY (R349). -/
def genReady (s : State) : State :=
  (s.blocks.map Prod.fst).foldl (fun s k => s.onBlk k fun b => { b with words := Map.set (fun _ => 0) b.words 23 0 }) s

/-- The device leaves RUN (R27): every slot becomes DISABLED, PWM channels are forced off (R346), tables stop. -/
def leaveRun (s : State) : State :=
  let s := pwmLeave s
  let s := (List.range s.part.slots).foldl (fun s n =>
    (enterDisabled (s.axis n).state.on n s).onAxis n fun a => { a with causes := [] }) s
  let s := s.engines?.foldl (fun s n =>
    let st := s.reg (Reg.ttbState n)
    (s.setReg (Reg.ttbState n) (setBit (setBit st 1 false) 2 true)).onEng n fun e => { writeQ := e.writeQ }) s
  (genReady s).onPower fun p => { p with mode := .ready, target := .ready }

def opRunStart : OpSpec :=
  { device := true, yes := true, slots := fun _ _ => []
    check := fun s _ => firstFail [needReady s, (!s.someBuilt, ST.notBuilt, 0)]
    apply := fun k late t s =>
      if s.power.mode ≠ .ready then failed t ST.devState s
      else if !s.someBuilt then failed t ST.notBuilt s
      else tookHold t k late (enterRun s) }

/-- Every axis is DISABLED or READY; else the lowest that is not. -/
def State.busyAxis (s : State) : Option Nat := (List.range s.part.slots).find? fun n => !s.axOff n

def opRunStop : OpSpec :=
  { device := true, yes := true, slots := fun _ _ => []
    check := fun s _ => (firstFail [needRun s]).or (s.busyAxis.map fun n => (ST.busy, n))
    apply := fun k late t s =>
      if !s.running then failed t ST.devState s
      else match s.busyAxis with
        | some n => failedAt t n ST.busy s
        | none => tookHold t k late (leaveRun s) }

/-- Every active table becomes unbuilt. -/
def unbuildAll (s : State) : State := s.engines?.foldl (fun s n => unbuild n s) s

/-- A new base period (R149): the next boundary is the first multiple of it at or after this one; when this
instant is itself a multiple, this boundary is counted anew. -/
def setPeriod (ticks k : Nat) (s : State) : State :=
  let t := k * s.tBase
  let s := s.setField Reg.tmuPeriod 15 0 ticks
  unbuildAll (s.onTmu fun x => { x with period := t / s.tBase })

def opSetPeriod : OpSpec :=
  { device := true, yes := true, slots := fun _ _ => [], len := lenIs 4
    check := fun s k => firstFail [badAt (decide (k.n 0 4 < 250 ∨ 25000 < k.n 0 4)) 0, needReady s]
    apply := fun k late t s =>
      if s.power.mode ≠ .ready then failed t ST.devState s
      else tookHold t k late (setPeriod (t.pkt.n 0 4) k s) }

/-! ### Class 0x0A (R507, R508, R510) -/

/-- The device that a command names: 0 a single device, 1 side A, 2 side B. -/
def State.sideNo (s : State) : Nat := if s.paired then (if s.sideB then 2 else 1) else 0

/-- A command that names the partner goes there, unless the mirror record of a pair in step has brought it already, and its
reply brings the partner's result (R395): a free one of the codes of R136 (log 40). -/
def forwarded (k : Packet) (r : Reply) (s : State) : Bool × Ran :=
  let s := if s.active? && !s.inStep then pairSend 2 19 (k.hdr.ses :: k.bytes.map BitVec.toNat) s else s
  let d := s.draw
  let st := statusCodes.getD (Config.num d.1 % statusCodes.length) 0
  (decide (st = 0), { reply := if st = 0 then r else { r with status := st, result := detail 0 }, st := d.2 })

/-- `SIDE` names the partner. -/
def State.acqThere (s : State) (k : Packet) : Bool :=
  s.paired && decide (k.n 0 1 ≠ s.sideNo ∧ (k.n 0 1 = 1 ∨ k.n 0 1 = 2))

def opAcqConfig : OpSpec :=
  { device := true, cap := some 1, slots := fun _ _ => []
    len := fun _ k => decide (k.payload.length = 32 + 4 * k.n 1 1)
    check := fun s k =>
      if s.acqThere k then firstFail [needUnit (bit (s.reg Reg.pairLink) 0)]
      else match s.acqBad k.payload with
        | some o => some (ST.badValue, o)
        | none => firstFail [needUnit (!s.acqRunning || decide (k.n 0 1 ≠ s.sideNo))]
    act := fun k _ r s =>
      if s.acqThere k then (forwarded k r s).2
      else { reply := r, st := if k.n 0 1 = s.sideNo then acqConfig k.payload s else s } }

def opAcqStart : OpSpec :=
  { device := true, cap := some 1, yes := true, slots := fun _ _ => []
    check := fun s _ => firstFail [needUnit (s.paired || s.acqConfigured)]
    apply := holds fun _ s => if s.acqConfigured then acqStart s else s }

def opAcqStop : OpSpec :=
  { device := true, cap := some 1, yes := true, slots := fun _ _ => [], apply := holds fun _ s => acqStop s }

def opAcqMark : OpSpec :=
  { device := true, cap := some 1, yes := true, slots := fun _ _ => [], len := lenIs 4
    check := fun s _ => firstFail [needUnit (s.paired || s.acqRunning)]
    apply := holds fun t s => acqNote 4 (t.pkt.payload.take 4) s }

/-! ### Class 0x0B (R452, R458) -/

/-- `FIO_SET` at its boundary. -/
def fioSet (mask value : Nat) (s : State) : State :=
  let old := s.field Reg.fioOutCmd 15 0
  (s.setReg Reg.fioOutCmd (w32 ((List.range 16).foldl (fun v i =>
    v + b2n (if mask.testBit i then value.testBit i else old.testBit i) * 2 ^ i) 0))).onDie fun d =>
      { d with written := d.written ||| BitVec.ofNat 16 mask }

def opFioSet : OpSpec :=
  { device := true, cap := some 4, yes := true, slots := fun _ _ => [], len := lenIs 4
    apply := holds fun t s => fioSet (t.pkt.n 0 2) (t.pkt.n 2 2) s }

def opFioGet : OpSpec :=
  { device := true, cap := some 4, slots := fun _ _ => []
    result := fun s _ => wordBytes (s.reg Reg.fioIn) ++ leBytes 2 (s.field Reg.fioOutCmd 15 0) ++ leBytes 2 (s.field Reg.fioOutRb 15 0)
      ++ wordBytes (s.reg Reg.fioState) }

def fioConfig (k : Packet) (s : State) : State :=
  let s := ((s.setReg Reg.fioInType (w32 (k.n 0 4))).setReg Reg.fioWakeRise (w32 (k.n 4 4))).setReg Reg.fioWakeFall (w32 (k.n 8 4))
  (List.range 32).foldl (fun s i => s.setReg (Reg.fioFilt i) (w32 (k.n (12 + i) 1))) s

def opFioConfig : OpSpec :=
  { device := true, cap := some 4, yes := true, slots := fun _ _ => [], len := lenIs 44
    check := fun _ k => firstFail [badAt (decide (15 < k.n 0 4)) 0]
    apply := holds fun t s => fioConfig t.pkt s }

/-! ### Class 0x0C (R472) -/

def timeGet (s : State) (_ : Packet) : Bytes :=
  let sec := s.tmu.ns / 10 ^ 9
  leBytes 2 (sec / 2 ^ 32) ++ leBytes 2 0 ++ leBytes 4 sec ++ leBytes 4 (s.tmu.ns % 10 ^ 9) ++ leBytes 4 s.tmu.frac
    ++ leBytes 8 s.periodNow ++ wordBytes (s.reg Reg.tmuState)

def opTimeGet : OpSpec := { device := true, slots := fun _ _ => [], result := timeGet }

/-- The alarm is set and armed (R471). -/
def timeAlarm (k : Packet) (s : State) : State :=
  ((s.setReg Reg.tmuAlarmSecLo (w32 (k.n 4 4))).setReg Reg.tmuAlarmNs (w32 (k.n 8 4))).setReg Reg.tmuAlarmSecHi
    (w32 (k.n 0 2 + 2 ^ 31))

def opTimeAlarm : OpSpec :=
  { device := true, slots := fun _ _ => [], len := lenIs 12
    check := fun _ k => firstFail [badAt (decide (k.n 2 2 ≠ 0)) 2, badAt (decide (10 ^ 9 ≤ k.n 8 4)) 8]
    act := actsAs timeAlarm }

def opTimeRestep : OpSpec :=
  { device := true, slots := fun _ _ => [], check := fun s _ => firstFail [needReady s], act := actsAs fun _ s => restep s }

/-- A write of `TMU.RATE_TRIM`: beyond ±200,000 the register takes the bound (R486; DEDUCED, log 45). -/
def rateTrimWrite (v : Word) (s : State) : State := s.setReg Reg.tmuRateTrim (wInt (clampI (-200000) 200000 v.toInt))

/-- A host write of `TMU.ALARM_NS` (R471). -/
def alarmNsWrite (v : Word) (s : State) : State := s.setReg Reg.tmuAlarmNs (w32 (min 999999999 v.toNat))

/-- A write of `TMU.GUARD`: ignored in RUN; in READY the tables become unbuilt (R156). The register takes
the nearest bound (R486; DEDUCED, log 45). -/
def guardWrite (v : Word) (s : State) : State :=
  if s.running then s
  else
    let s' := s.setReg Reg.tmuGuard (w32 (max 200 (min 50000 (bits v 15 0))))
    if s.power.mode = .ready then unbuildAll s' else s'

def timeConfig (k : Packet) (s : State) : State :=
  let s := (s.setReg Reg.tmuPtpCfg (w32 (k.n 0 4))).setReg Reg.tmuServo (w32 (k.n 4 4))
  let s := rateTrimWrite (w32 (k.n 12 4)) (s.setReg Reg.tmuThr (w32 (k.n 8 4)))
  let s := guardWrite (w32 (k.n 16 4)) s
  ptpStart ((List.range 9).foldl (fun s i => s.setReg (Reg.tmuSmpOfs i) (w32 (k.n (20 + 4 * i) 2))) s)

def opTimeConfig : OpSpec :=
  { device := true, slots := fun _ _ => [], len := lenIs 56
    check := fun s k => firstFail ([badAt (w32 (k.n 0 4) &&& ~~~ 0x0FFFFF0F#32 != 0) 0, badAt (decide (0xFFFF < k.n 16 4)) 16]
      ++ ((List.range 9).map fun i => badAt (decide (k.i (20 + 4 * i) 4 < -32768 ∨ 32767 < k.i (20 + 4 * i) 4)) (20 + 4 * i))
      ++ [needReady s])
    act := actsAs timeConfig }

/-! ### Class 0x0D (R411 to R415) -/

def pairStatus (s : State) (_ : Packet) : Bytes :=
  wordBytes (s.reg Reg.pairState) ++ wordBytes s.pair.partnerState ++ leBytes 4 s.pair.diffs ++ leBytes 4 s.pair.adopted
    ++ wordBytes (s.reg Reg.pairLastDiff) ++ wordBytes (s.reg Reg.pairTimeOfs) ++ wordBytes (s.reg Reg.pairPartner)
    ++ wordBytes s.pair.roleAt

def opPairStatus : OpSpec := { device := true, cap := some 2, slots := fun _ _ => [], result := pairStatus }

/-- Retired replies whose intents are acknowledged are written out. -/
def writeAcked (s : State) : State :=
  (List.range 4).foldl (fun s n => if (s.ses n).replies.any fun r => decide (r.intent = 2) then writeReply n s else s) s

/-- The roles change together on both devices (R412). -/
def handover (s : State) : State :=
  let s := if s.active? then
      let s := setRole false (admitMirrored (writeAcked s))
      { s with sessions := s.sessions.map fun e => (e.1, { e.2 with replies := e.2.replies.map fun r => { r with intent := 0 } }) }
    else
      let s := latchOwn (setProxy false (setRole true s))
      let s := (List.range 4).foldl (fun s n => s.onSes n fun x => { x with covered := [], ahead := none }) s
      (List.range 4).foldl (fun s n => writeReply n s) s
  (s.event Reg.pairStat 7).log 0x0503 0 0xFFFF (s.reg Reg.pairState) 0

def opPairHandover : OpSpec :=
  { device := true, cap := some 2, yes := true, slots := fun _ _ => []
    check := fun s _ => firstFail [needUnit s.inStep]
    apply := fun k late t s =>
      if s.inStep then handover (tookHold t k late s) else failed t ST.devState s }

/-- The pair is taken apart (R413): the partner leaves RUN. DESIGN CHOICE (log 40): at the boundary that R413 names, where
R27 speaks of a sealing. -/
def pairRelease (s : State) : State :=
  if s.active? then
    let k : Packet := { op := 0x0D03, hdr := { target := 0xFFFF } }
    let s := if s.inStep then s else pairSend 2 19 (0 :: k.bytes.map BitVec.toNat) s
    beAlone (dropStandby s)
  else setPhase 7 (setProxy false (if s.running then leaveRun s else s))

/-- The device is paired with a partner. -/
def State.withPartner (s : State) : Bool := s.pairUp && s.pair.partner.isSome && decide (2 ≤ s.pairPhase ∧ s.pairPhase ≤ 5)

def opPairRelease : OpSpec :=
  { device := true, cap := some 2, yes := true, slots := fun _ _ => []
    check := fun s _ => firstFail [needUnit s.withPartner]
    apply := fun k late t s =>
      if s.withPartner then pairRelease (tookHold t k late s) else failed t ST.devState s }

def opPairResync : OpSpec :=
  { device := true, cap := some 2, slots := fun _ _ => []
    check := fun s _ => firstFail [needUnit (s.withPartner && decide (s.pairPhase = 2 ∨ s.standby))]
    act := actsAs fun _ s => if s.active? && decide (s.pairPhase = 2) then beginResync s else s }

/-! ### Class 0x0E (R443, R444) -/

/-- The island can open its configuration (DEDUCED, log 36). -/
def State.islandOpens (s : State) : Bool := decide (s.island.st = 1 ∨ s.island.st = 2 ∨ s.island.st = 3)

/-- A slot of a safe axis that is not DISABLED. -/
def State.safeBusy (s : State) : Option Nat :=
  (s.safeAxes.map fun a => s.axImg a 0 1).find? fun n => decide (n < s.part.slots) && !s.axOff n

/-- `SAFE_OPEN` is judged by the island as it retires. -/
def safeOpenAct (k : Packet) (_ : Nat) (r : Reply) (s : State) : Ran :=
  let no (st d : Nat) (s : State) : Ran := { reply := { r with status := st, result := detail d }, st := s }
  if 0 < s.island.lockout then no ST.auth 0 s
  else
    let right := if s.island.valid then decide (k.n 0 4 = s.img 8 4) else decide (k.n 0 4 = 0)
    match right, s.safeBusy with
    | true, some n => no ST.axisState n (safeShow (s.onIsland fun i => { i with fails := 0 }))
    | _, _ =>
      let o := safeOpen (k.n 0 4) s
      if o.1 then { reply := r, st := o.2 } else no ST.auth 0 o.2

def opSafeOpen : OpSpec :=
  { device := true, cap := some 0, slots := fun _ _ => [], len := lenIs 8
    check := fun s k => firstFail [badAt (decide (k.n 4 4 ≠ 0)) 4, (!s.islandOpens, ST.safetyLocked, 0)]
    act := safeOpenAct }

/-- The configuration is open. -/
def needOpen (s : State) : Bool × Nat × Nat := (decide (s.island.st ≠ 3), ST.safetyLocked, 0)

/-- The limits of `SAFE_WRITE` and `SAFE_READ`. -/
def safeRange (k : Packet) : List (Bool × Nat × Nat) :=
  [badAt (decide (k.n 2 2 = 0 ∨ 480 < k.n 2 2)) 2, badAt (decide (2048 < k.n 0 2 + k.n 2 2)) 0]

def safeWrite (k : Packet) (s : State) : State :=
  s.onIsland fun i => { i with
    working := (List.range (k.n 2 2)).foldl (fun m j =>
      let o := k.n 0 2 + j
      if 60 ≤ o ∧ o < 64 then m else Map.set (fun _ => 0) m o (BitVec.ofNat 8 (k.n (4 + j) 1))) i.working }

def opSafeWrite : OpSpec :=
  { device := true, cap := some 0, slots := fun _ _ => [], len := fun _ _ => true
    check := fun s k => firstFail (safeRange k ++ [badAt (decide (k.payload.length ≠ 4 + k.n 2 2)) 2, needOpen s])
    act := actsAs safeWrite }

def opSafeRead : OpSpec :=
  { device := true, cap := some 0, slots := fun _ _ => [], len := lenIs 4
    check := fun _ k => firstFail (safeRange k)
    result := fun s k => (s.safeImage.drop (k.n 0 2)).take (k.n 2 2) }

/-- `SAFE_COMMIT` checks the working image, then writes it to the flash safety area. -/
def opSafeCommit : OpSpec :=
  { device := true, cap := some 0, slots := fun _ _ => [], len := lenIs 4
    check := fun s k =>
      let p := imageBytes s.island.working
      ((firstFail [needOpen s]).or ((imageError p).map fun o => (ST.badValue, o))).or
        (firstFail [(decide (k.n 0 4 ≠ imageCheck p), ST.checkMismatch, 0), (s.island.writing.isSome, ST.busy, 0)])
    act := fun k _ r s =>
      let p := checkedImage (imageBytes s.island.working)
      { reply := r, due := false
        st := s.onIsland fun i => { i with writing := some (k.hdr.ses, k.hdr.seq), commit := some p
                                           working := Map.setRun (fun _ => 0) i.working 60 ((p.drop 60).take 4) } } }

def opSafeClose : OpSpec :=
  { device := true, cap := some 0, slots := fun _ _ => []
    check := fun s _ => firstFail [needOpen s], act := actsAs fun _ s => safeShow (closeSafe s) }

/-- SAFETY_AREA_FLASH_WRITE_DONE (R444): both copies are written, or 2 s have passed. A commissioning that closed or an
island fault in the meantime leaves the former image in force, as a write that did not complete does (log 36). -/
def execSafetyAreaFlashWriteDone (ok : Bool) (s : State) : Host.Outcome State Fault Refusal :=
  done (match s.island.writing with
    | none => s
    | some (n, seq) =>
      let done_ := ok && s.island.commit.isSome
      let s := match s.island.commit with
        | some p => if ok then safeCommitted p s else s.onIsland fun i => { i with writing := none, commit := none }
        | none => s.onIsland fun i => { i with writing := none }
      setReply n seq (fun r => if done_ then r else { r with status := ST.timeout, result := detail 0 }) s)

/-! ### Class 0x0F: updates (R395, R526) -/

def State.upd (s : State) : Update := s.inn.update.getD {}

/-- The bank that is not running. -/
def State.openBank (s : State) : Nat := 1 - s.inn.runBank

/-- The command belongs to an update of the other device of the pair. -/
def State.elsewhere (s : State) (k : Packet) : Bool :=
  let dest := if k.op = 0x0F01 then k.n 0 1 else s.upd.dest
  let port := if k.op = 0x0F01 then k.n 1 1 else s.upd.port
  s.paired && (if dest = 0 then decide (port ≠ s.sideNo ∧ (port = 1 ∨ port = 2)) else !s.active?)
    && (decide (k.op = 0x0F01) || s.inn.update.isSome)

/-- A command of an update: here, or on the other device with its bookkeeping kept here. -/
def updateAct (here : Packet → Reply → State → Ran) (book : Packet → State → State) (k : Packet) (_ : Nat) (r : Reply)
    (s : State) : Ran :=
  if s.elsewhere k then
    let f := forwarded k r s
    { f.2 with st := if f.1 then book k f.2.st else f.2.st }
  else here k r s

/-- The partner cannot be reached for a command of its update (DEDUCED, log 40). -/
def needPartner (s : State) (k : Packet) : Bool × Nat × Nat := (s.elsewhere k && !s.pairUp, ST.devState, 0)

/-- A station of a trained ring. -/
def State.stationThere (s : State) (p i : Nat) : Bool := s.ringUp p && decide (i < (s.stationsOf (s.westOf p)).length)

def updateBegin (k : Packet) (s : State) : State :=
  let u : Update :=
    { dest := k.n 0 1, port := if k.n 0 1 = 1 then s.westOf (k.n 1 1) else k.n 1 1, station := k.n 2 2, size := k.n 4 4,
      last := s.inn.uptime }
  s.onInn fun i => { i with update := some u }

def opUpdateBegin : OpSpec :=
  { device := true, slots := fun _ _ => [], len := lenIs 8
    named := fun s k => if k.n 0 1 = 1 && !s.elsewhere k && !s.stationThere (k.n 1 1) (k.n 2 2) then some (ST.absentUnit, 1) else none
    check := fun s k => firstFail [badAt (decide (1 < k.n 0 1)) 0,
      badAt (decide (k.n 0 1 = 0) && s.paired && !decide (k.n 1 1 = 1 ∨ k.n 1 1 = 2)) 1, needPartner s k,
      (s.inn.update.isSome, ST.noEntry, 0),
      (!s.elsewhere k && decide ((if k.n 0 1 = 0 then 0x800000 else 0x100000) < k.n 4 4), ST.limit, 4)]
    act := updateAct (fun k r s => { reply := r, st := updateBegin k s }) updateBegin }

/-- The bytes of an image that the update has received. -/
def State.updImage (s : State) : (Bytes × Option Nat) × State :=
  if s.upd.dest = 0 then ((s.flashRun (bankBase s.openBank) s.upd.size, none), s) else sramRead s sramOwn s.upd.size

def updateBook (k : Packet) (s : State) : State :=
  s.onInn fun i => { i with update := i.update.map fun u => { u with received := k.n 0 4 + (k.payload.length - 4) } }

def updateData (k : Packet) (r : Reply) (s : State) : Ran :=
  let p := k.payload.drop 4
  let s := if s.upd.dest = 0 then s.setFlash (bankBase s.openBank + k.n 0 4) p else (sramWrite s (sramOwn + k.n 0 4) p).2
  { reply := r, st := updateBook k s }

/-- An update is open, and no earlier command of it is in progress. -/
def needUpdate (s : State) : List (Bool × Nat × Nat) :=
  [needUnit s.inn.update.isSome, (s.upd.waiting.isSome, ST.busy, 0)]

def opUpdateData : OpSpec :=
  { device := true, slots := fun _ _ => [], len := fun _ k => decide (5 ≤ k.payload.length ∧ k.payload.length ≤ 484)
    check := fun s k => firstFail (needUpdate s ++ [needPartner s k,
      badAt (!s.elsewhere k && decide (k.n 0 4 ≠ s.upd.received ∨ s.upd.size < k.n 0 4 + (k.payload.length - 4))) 0])
    act := updateAct updateData updateBook }

/-- The checks of a complete image (R526). -/
def imageStatus (s : State) (p : Bytes) : Nat :=
  let u := s.upd
  let x := (s.stationsOf u.port).getD u.station {}
  if Bytes.num p 0 4 ≠ 0xB7F10A6E ∨ Bytes.num p 4 1 ≠ u.dest ∨ Bytes.num p 12 4 ≠ u.size
      ∨ (u.dest = 1 ∧ (Bytes.num p 16 2 ≠ x.vendor ∨ Bytes.num p 18 2 ≠ x.product)) then ST.badFormat
  else if u.dest = 1 then ST.ok
  else if !Config.signatureOk p then ST.signature
  else if Bytes.num p 5 1 < s.inn.floor then ST.rollback
  else ST.ok

/-- A head image is sent on the side channel. -/
def sendHeadImage (p : Bytes) (s : State) : State :=
  let u := s.upd
  let s := sideRequest u.port u.station 0x20 (leBytes 4 u.size) s
  let s := (List.range ((u.size + 199) / 200)).foldl (fun s i =>
    sideRequest u.port u.station 0x21 (leBytes 4 (200 * i) ++ (p.drop (200 * i)).take 200) s) s
  sideRequest u.port u.station 0x22 [] s

/-- A command waits for the head's response. -/
def awaitHead (k : Packet) (s : State) : State :=
  s.onInn fun i => { i with update := i.update.map fun u => { u with waiting := some (k.hdr.ses, k.hdr.seq) } }

def updateBooked (_ : Packet) (s : State) : State :=
  s.onInn fun i => { i with update := i.update.map fun u => { u with committed := true } }

def updateCommit (k : Packet) (r : Reply) (s : State) : Ran :=
  let im := s.updImage
  let s := im.2
  let u := s.upd
  let no (st : Nat) (s : State) : Ran := { reply := { r with status := st, result := detail 0 }, st := s }
  match im.1.2 with
  | some _ => no ST.sramUe s
  | none =>
    let st := imageStatus s im.1.1
    let unit := if u.dest = 0 then 0xFFFF else u.port
    if st ≠ ST.ok then no st ((s.event Reg.mgtStat 5).log 0x0403 1 unit (w32 u.dest) (w32 u.station))
    else if u.dest = 1 then { reply := r, due := false, st := awaitHead k (sendHeadImage im.1.1 s) }
    else { reply := r, st := (updateBooked k (s.event Reg.mgtStat 5)).log 0x0402 0 unit (w32 u.dest) (w32 u.station) }

def opUpdateCommit : OpSpec :=
  { device := true, slots := fun _ _ => []
    check := fun s k => firstFail (needUpdate s ++ [needPartner s k, needUnit (decide (s.upd.received = s.upd.size))])
    act := updateAct updateCommit updateBooked }

/-- `UPDATE_ACTIVATE`: the bank record is written and the reset waits for the reply; a head is told to change
its image. -/
def updateActivate (k : Packet) (r : Reply) (s : State) : Ran :=
  let u := s.upd
  if u.dest = 1 then { reply := r, due := false, st := awaitHead k (sideRequest u.port u.station 0x23 [] s) }
  else
    let b := s.openBank
    let act := ((s.bankRec (1 - b)).act + 1) % 2 ^ 32
    let s := s.onInn fun i => { i with
      banks := Map.set (fun _ => {}) i.banks b { act := act, valid := true }, resetDue := some (k.hdr.ses, k.hdr.seq) }
    let s := s.onPower fun p => { p with fuseFloorDue := true }
    { reply := r, st := (s.event Reg.mgtStat 5).log 0x0404 0 0xFFFF (w32 b) 0 }

def opUpdateActivate : OpSpec :=
  { device := true, slots := fun _ _ => []
    check := fun s k => firstFail (needUpdate s ++ [needPartner s k, needUnit s.upd.committed,
      needUnit (s.elsewhere k || decide (s.upd.dest ≠ 0) || !s.running)])
    act := updateAct updateActivate fun _ s => s.onInn fun i => { i with update := none } }

/-! ### Class 0x0F: ledger and health (R523, R535) -/

def ledgerRead (s : State) (k : Packet) : Bytes :=
  let first := Bytes.word k.payload 0
  let all := s.inn.records
  let old := match all with | e :: _ => decide (seqDiff first e.index < 0) | [] => false
  let start := match all with | e :: _ => if old then e.index else first | [] => first
  let rs := (all.filter fun e => decide (0 ≤ seqDiff e.index start)).take (k.n 4 2)
  let next := match rs.getLast? with | some e => e.index + 1 | none => start
  wordBytes next ++ leBytes 2 rs.length ++ leBytes 2 (b2n old + 2 * b2n s.inn.incomplete) ++ rs.flatMap Event.bytes

def opLedgerRead : OpSpec :=
  { device := true, slots := fun _ _ => [], len := lenIs 8
    check := fun _ k => firstFail [badAt (decide (k.n 4 2 = 0 ∨ 15 < k.n 4 2)) 4, badAt (decide (k.n 6 2 ≠ 0)) 6]
    result := ledgerRead }

def opHealthRead : OpSpec := { device := true, slots := fun _ _ => [], result := fun s _ => s.health }

/-! ### Class 0x10 (R527 to R533) -/

/-- The nameplate of an account of a slot: the bound one, else the part of that number of the slot's station,
or on the local bus. -/
def State.plateOf (s : State) (n part : Nat) : Bytes :=
  let w := s.wearOf n part
  s.plate (if w.state ≠ 0 then s.platePlace n w.source w.np
    else s.platePlace n (if s.outKind n = 1 then 0 else 1) part)

/-- `PART` with three zero bytes. -/
def partBad (k : Packet) : List (Bool × Nat × Nat) := badAt (decide (3 < k.n 0 1)) 0 :: mustZero k 1 3

def opNpRead : OpSpec :=
  { axis := true, len := lenIs 4
    check := fun s k => firstFail (partBad k
      ++ [(!identityOk (s.plateOf k.hdr.target.toNat (k.n 0 1)), ST.nameplate, 0)])
    result := fun s k => (s.plateOf k.hdr.target.toNat (k.n 0 1)).take 192 }

/-- `NP_BIND` (R529). DESIGN CHOICE (log 48): a nameplate with another record version is unreadable and answers
`ST_NAMEPLATE` (R527, R529), not the `ST_VERSION` of R9; so too in `NP_READ` and `WEAR_REPLACE`. -/
def opNpBind : OpSpec :=
  { axis := true, yes := true, len := lenIs 8
    check := fun _ k => firstFail [badAt (decide (3 < k.n 0 1)) 0, badAt (decide (1 < k.n 1 1)) 1,
      badAt (decide ((if k.n 1 1 = 0 then 3 else 7) < k.n 2 1)) 2, badAt (decide (1 < k.n 3 1)) 3, badAt (decide (k.n 4 4 = 0)) 4]
    apply := fun k late t s =>
      let n := t.slot
      let p := t.pkt
      if p.n 3 1 = 1 then tookHold t k late (s.setWear n (p.n 0 1) {})
      else if identityOk (s.plate (s.platePlace n (p.n 1 1) (p.n 2 1))) then
        tookHold t k late (startAccount s n (p.n 0 1) (p.n 1 1) (p.n 2 1) (p.n 4 4))
      else failed t ST.nameplate s }

def opWearRead : OpSpec :=
  { axis := true, len := lenIs 4, check := fun _ k => firstFail (partBad k)
    result := fun s k => (s.wearOf k.hdr.target.toNat (k.n 0 1)).read }

def opWearReplace : OpSpec :=
  { axis := true, yes := true, len := lenIs 4, check := fun _ k => firstFail (partBad k)
    slot := fun s k n => firstFail [(!s.axOff n, ST.axisState, 0), (decide ((s.wearOf n (k.n 0 1)).state = 0), ST.noEntry, 0)]
    apply := fun k late t s =>
      let n := t.slot
      let w := s.wearOf n (t.pkt.n 0 1)
      if !s.axOff n then failed t ST.axisState s
      else if w.state = 0 then failed t ST.noEntry s
      else if identityOk (s.plate (s.platePlace n w.source w.np)) then
        tookHold t k late ((startAccount s n (t.pkt.n 0 1) w.source w.np w.incRev).log 0x0804 0 n (w32 (t.pkt.n 0 1)) 0)
      else failed t ST.nameplate s }

/-! ### The opcodes (R138 to R142) -/

/-- The declaration of an opcode but for `GET_PARAMS`; `none`: not in the tables. -/
def opBase : Nat → Option OpSpec
  | 0x0101 => some opNop
  | 0x0102 => some opEcho
  | 0x0103 => some opSessionInfo
  | 0x0201 => some opDevInfo
  | 0x0202 => some opRunStart
  | 0x0203 => some opRunStop
  | 0x0204 => some opSetPeriod
  | 0x0205 => some opDevStatus
  | 0x0302 => some opSetParams
  | 0x0303 => some opDefaultParams
  | 0x0304 => some opEnable
  | 0x0305 => some opDisable
  | 0x0306 => some opClearFault
  | 0x0307 => some opAxisStatus
  | 0x0401 => some opMove
  | 0x0402 => some opMove
  | 0x0403 => some opMove
  | 0x0404 => some opStream
  | 0x0405 => some opHalt
  | 0x0406 => some opQuickStop
  | 0x0407 => some opGroupDefine
  | 0x0408 => some opPathSegment
  | 0x0409 => some opFlush
  | 0x0501 => some opLink
  | 0x0502 => some opRatio
  | 0x0503 => some (opUnlink 1 0x0501)
  | 0x0504 => some opCamLoad
  | 0x0505 => some opCamEngage
  | 0x0506 => some (opUnlink 2 0x0505)
  | 0x0507 => some opVmaster
  | 0x0508 => some opShaftConfig
  | 0x0601 => some opHomeStart
  | 0x0602 => some opHomeSet
  | 0x0603 => some opHomeAbort
  | 0x0701 => some opLatchArm
  | 0x0702 => some opLatchDisarm
  | 0x0703 => some opLatchRead
  | 0x0704 => some opRegister
  | 0x0801 => some opTtWrite
  | 0x0802 => some opTtClear
  | 0x0803 => some opBuild
  | 0x0804 => some opTtRead
  | 0x0901 => some opKernelLoad
  | 0x0902 => some opKernelCheck
  | 0x0903 => some opKernelList
  | 0x0A01 => some opAcqConfig
  | 0x0A02 => some opAcqStart
  | 0x0A03 => some opAcqStop
  | 0x0A04 => some opAcqMark
  | 0x0B01 => some opFioSet
  | 0x0B02 => some opFioGet
  | 0x0B03 => some opFioConfig
  | 0x0C01 => some opTimeGet
  | 0x0C02 => some opTimeAlarm
  | 0x0C03 => some opTimeRestep
  | 0x0C04 => some opTimeConfig
  | 0x0D01 => some opPairStatus
  | 0x0D02 => some opPairHandover
  | 0x0D03 => some opPairRelease
  | 0x0D04 => some opPairResync
  | 0x0E01 => some opSafeOpen
  | 0x0E02 => some opSafeWrite
  | 0x0E03 => some opSafeRead
  | 0x0E04 => some opSafeCommit
  | 0x0E05 => some opSafeClose
  | 0x0F01 => some opUpdateBegin
  | 0x0F02 => some opUpdateData
  | 0x0F03 => some opUpdateCommit
  | 0x0F04 => some opUpdateActivate
  | 0x0F05 => some opLedgerRead
  | 0x0F06 => some opHealthRead
  | 0x1001 => some opNpRead
  | 0x1002 => some opNpBind
  | 0x1003 => some opWearRead
  | 0x1004 => some opWearReplace
  | _ => none

/-! ### GET_PARAMS (R143, R145) -/

/-- The slot once every retired effect of it has taken hold, each at its boundary (R145). -/
def State.soon (s : State) (n : Nat) : State :=
  s.staged.foldl (fun s t =>
    match opBase t.pkt.op with
    | some o => if n ∈ t.slots then o.apply (max t.eff (s.tmu.period + 1)) t.late { t with copied := camN s t.pkt } s else s
    | none => s) s

/-- Parameters of R277, R330 and R355 that show the last boundary in any case. -/
def atBoundary (i : Nat) : Bool := decide (i = 0x614 ∨ i = 0x820 ∨ i = 0xA10 ∨ i = 0xA11)

/-- A parameter as it stood at the last boundary: writable ones change nowhere else. -/
def State.parAtBoundary (s : State) (n i : Nat) : BitVec 64 :=
  match (s.axis n).snap.find? fun e => decide (e.1 = i) with
  | some e => e.2
  | none => s.parView n i

/-- Entries read (R143, R145). -/
def getParams (s : State) (k : Packet) : Bytes :=
  let n := k.hdr.target.toNat
  let soon := s.soon n
  (List.range (k.n 0 2)).flatMap fun j =>
    let i := k.n (4 + 2 * j) 2
    let v := if k.n 2 2 % 2 = 1 ∨ atBoundary i then s.parAtBoundary n i else soon.parView n i
    leBytes 2 i ++ leBytes 2 0 ++ leBytes 8 v.toNat

def opGetParams : OpSpec :=
  { axis := true
    len := fun _ k => decide (k.payload.length = 4 + 2 * k.n 0 2)
    check := fun _ k =>
      (firstFail [badAt (decide (k.n 0 2 = 0 ∨ 40 < k.n 0 2)) 0, badAt (decide (1 < k.n 2 2)) 2]).or
        (badIndex ((List.range (k.n 0 2)).map fun j => k.n (4 + 2 * j) 2) ST.badParam fun i => (paramDef i).isNone)
    result := getParams }

/-- The declaration of an opcode; `none`: not in the tables. -/
def opSpec : Nat → Option OpSpec
  | 0x0301 => some opGetParams
  | op => opBase op

end Sys2Proof.Machine
end

