-- ==== Sys2Proof/Machine/Sessions.lean ====
section
/-!
DEFINITION. The command path from fetch to reply (chapter 04, R106 to R119, R134, R135): fetch, interpretation,
retirement, reply writing, and the commands of the host as whole.
-/
namespace Sys2Proof.Machine

/-! ### Fetch (R106 to R108) -/

/-- PACKET_FETCH: the packet at `SQ_HEAD`, read from shared SRAM or, through the host link, as `slot`. -/
def fetchPacket (n : Nat) (slot : Bytes) (s : State) : State :=
  if s.mayFetch n && decide (s.reg (Reg.cmdSqHead n) ≠ s.reg (Reg.cmdSqTail n)) then
    let c := (s.ses n).opened
    if c.sqSram then
      let r := sramRead s (sramBase c.sqBase + (s.reg (Reg.cmdSqHead n)).toNat % c.depth * 512) 512
      match r.1.2 with
      | some _ => haltSes n 4 r.2
      | none => let k := packetOf n r.1.1; takePacket n k.1 k.2 r.2
    else let k := packetOf n (padTo 512 slot); takePacket n k.1 k.2 s
  else s

def execPacketFetch (n : Nat) (slot : Bytes) (s : State) : Host.Outcome State Fault Refusal := done (fetchPacket n slot s)

/-! ### Interpretation (R115, R119, R134, R135) -/

/-- The target kind is one that the opcode allows. -/
def OpSpec.targets (o : OpSpec) (t : Nat) : Bool :=
  if t < 128 then o.axis else if 0x8000 ≤ t ∧ t < 0x8020 then o.group else decide (t = 0xFFFF) && o.device

/-- Steps 9 to 11 of the slots, each step of all slots before the next: `DETAIL` names the lowest slot that fails
it, for a group or device target (R134, R135). -/
def slotsBad (o : OpSpec) (s : State) (k : Packet) : Bad :=
  soonestOf (fun n => (o.slot s k n).map fun b => if k.hdr.target.toNat < 128 then b else (b.1, n)) (o.slots s k)

/-- The checks of R134 in their order. -/
def checkCommand (o : OpSpec) (s : State) (k : Packet) : Bad :=
  let t := k.hdr.target.toNat
  ((firstFail [
    (k.hdr.flags != 0, ST.badFlags, 0), (!o.targets t, ST.badTarget, 0),
    (decide (t < 128) && decide (s.part.slots ≤ t), ST.absentUnit, 0),
    (match o.cap with | some c => !s.cap c | none => false, ST.absentUnit, 0)]).or (o.named s k)).or
    ((firstFail [(!o.len s k, ST.badLength, 0)]).or ((o.check s k).sooner (slotsBad o s k)))

/-- The declaration that the running firmware serves (R134 step 1). -/
def State.serves? (s : State) (op : Nat) : Option OpSpec :=
  if s.power.recovery && decide (op / 256 ≠ 1 ∧ op / 256 ≠ 0x0F) then none else opSpec op

/-- The effect period of a command lies too far ahead (R119). -/
def State.distant (s : State) (f : Flight) : Bool :=
  match f.eff with
  | some e => decide (s.tmu.period + 2 ^ 20 < e)
  | none => s.tooFar f.pkt.hdr

/-- What a service core makes of a command. A too-distant effect period is judged before the opcode; `EP`
is ignored on an opcode of the tables without an effect (R130). -/
def interpret (s : State) (f : Flight) : Reply :=
  let k := f.pkt
  let no (b : Nat × Nat) : Reply := { status := b.1, result := detail b.2 }
  if (match opSpec k.op with | some o => o.yes | none => true) && s.distant f then no (ST.limit, 0)
  else match s.serves? k.op with
    | none => no (ST.badOpcode, 0)
    | some o => match checkCommand o s k with
      | some b => no b
      | none => { result := o.result s k }

/-- A service core ends its task: the reply waits at the retire stage. -/
def finishTask (c : Nat) (s : State) : State :=
  match s.coreTask c with
  | none => s
  | some t =>
    if 4 ≤ t.ses then firmwareEnds c t s
    else
    let s := s.setCore c none
    match (s.ses t.ses).flights.find? fun f => f.seq = t.seq with
    | some f => if f.phase = .running then finishFlight t.ses t.seq (interpret s f) s else s
    | none => s

/-- TASK_FINISH (R115). -/
def execTaskFinish (c : Nat) (s : State) : Host.Outcome State Fault Refusal :=
  done (if s.up && decide (c < 4) then finishTask c s else s)

/-! ### Retirement (R116 to R119, R394) -/

/-- Queue entries that a slot will hold: those there or, past a staged replacement, those after it. -/
def State.queueSoon (s : State) (n : Nat) : Nat :=
  (s.movesOf n).foldl (fun c t => if t.append then c + 1 else 1) (s.axis n).queue.length

/-- The effect of a command fits the motion queues (R117). -/
def State.queueFits (s : State) (o : OpSpec) (k : Packet) : Bool :=
  if k.op = 0x0408 then
    let g := k.groupNo
    decide ((s.group g).segs.length
      + (s.staged.filter fun t => decide (t.pkt.op = 0x0408 ∧ t.pkt.groupNo = g)).length < 64)
  else if isMove k.op && k.appends then (o.slots s k).all fun n => decide (s.queueSoon n < 64)
  else true

/-- The command may retire now: the pair's order, room for its reply, and room for its effect. -/
def State.mayRetire (s : State) (n : Nat) (f : Flight) (r : Reply) : Bool :=
  let mine := (n, f.seq)
  s.cmdUp n && decide (s.sesState n ≠ 0) && (s.forwards || !s.cqFull n)
    && (!s.inStep || !decide (mine ∈ s.pair.order) || decide (s.pair.order.head? = some mine))
    && (decide (r.status ≠ 0) || match s.serves? f.pkt.op with | some o => s.queueFits o f.pkt | none => true)

/-- Put a retired command's effect on the staging, with its boundary (R118, R119, R394). -/
def stageEffect (n : Nat) (f : Flight) (slots : List Nat) (g : Staged → Staged) (s : State) : State :=
  let k := f.pkt
  let e := s.effectAt k.hdr f.eff slots
  let t := g { ses := n, pkt := k, eff := e, asked := k.hdr.ep, slots := slots }
  let put (t : Staged) (s : State) : State := { s with staged := s.staged ++ [t] }
  if !s.inStep || f.eff.isNone then put { t with acked := true } s
  else if s.active? then
    let e' := if s.tmu.ns + 20000 ≤ e * s.tBase then e else max e (s.boundaryAfter 20000)
    pairSend 1 10 [n, k.hdr.seq.toNat, e'] (put { t with eff := e' } s)
  else match s.pair.retires.find? fun r => decide (r.1 = n ∧ r.2.1 = k.hdr.seq) with
    | some r => put { t with eff := r.2.2, acked := true } (s.onPair fun p => { p with retires := without r p.retires })
    | none => put t s

/-- What a class of commands keeps alive by itself (R443, R526). -/
def touchUnit (op : Nat) (s : State) : State :=
  if op / 256 = 0x0E then s.onIsland fun i => { i with closeAt := 0 }
  else if op / 256 = 0x0F then s.onInn fun i => { i with update := i.update.map fun u => { u with last := i.uptime } }
  else s

/-- The oldest finished command of a session retires. -/
def retire (n : Nat) (s : State) : State :=
  match (s.ses n).flights with
  | [] => s
  | f :: rest =>
    match f.phase, f.reply with
    | .finished, some r =>
      if !s.mayRetire n f r then s
      else
        let k := f.pkt
        let second := s.standby
        let s := touchUnit k.op s
        let yes := match s.serves? k.op with | some o => o.yes | none => false
        let slots := match s.serves? k.op with | some o => o.slots s k | none => []
        let ran : Ran := match s.serves? k.op with
          | some o => if r.status = 0 then o.act k (s.effectAt k.hdr f.eff slots) r s else { reply := r, st := s }
          | none => { reply := r, st := s }
        let staged := yes && decide (ran.reply.status = 0)
        let s := if staged then stageEffect n f slots ran.stg ran.st else ran.st
        let s := (s.targetSlots k.hdr.target.toNat).foldl (fun s a => s.onAxis a fun x => { x with seq := f.seq, seqSes := n }) s
        let q : StoredReply := { seq := f.seq, op := k.op, reply := ran.reply, due := !staged && ran.due }
        let s := s.onSes n fun x => { x with flights := rest, replies := x.replies ++ [q] }
        let s := s.onPair fun p => { p with order := without (n, f.seq) p.order }
        let s := examineAll (writeJournal n true (s.setReg (Reg.cmdRetiredSeq n) f.seq))
        if second then coverDue n s else s
    | _, _ => s

/-- RETIREMENT (R116). -/
def execRetirement (n : Nat) (s : State) : Host.Outcome State Fault Refusal := done (retire n s)

/-- REPLY_WRITE (R103, R116): the oldest settled reply of a session, or on a Standby the one that an intent names (R397);
an activation then restarts the device. -/
def execReplyWrite (n : Nat) (s : State) : Host.Outcome State Fault Refusal := done (activationReset (writeReply n (coverDue n s)))

/-! ### Records of the partner that bring a command (R392, R395) -/

/-- A command that names this device comes from the Active outside a pair in step; its status goes back (R395). -/
def runForwarded (k : Packet) (s : State) : State :=
  if k.op = 0x0D03 then pairRelease s
  else match (if k.op = 0x0A01 ∨ (0x0F01 ≤ k.op ∧ k.op ≤ 0x0F04) then s.serves? k.op else none) with
    | none => s
    | some o =>
      let r := interpret s { pkt := k }
      let ran : Ran := if r.status = 0 then o.act k 0 r s else { reply := r, st := s }
      activationReset (pairSend 2 20 [k.op, ran.reply.status] (touchUnit k.op ran.st))

/-- MIRROR_RECORD (R392): the Standby stores the command, journals it and acknowledges. A packet that the
Standby did not fetch itself shows that the Active's link is up again (R398; DEDUCED, log 40). Outside a pair in step the
record brings a command that the Active forwards (R395; log 40). -/
def execMirrorRecord (n : Nat) (head : Word) (eff : Nat) (slot : Bytes) (s : State) : Host.Outcome State Fault Refusal :=
  let k := (packetOf n slot).1
  done (
    if s.pairUp && !s.active? && !s.inStep then runForwarded k s
    else if !s.standby || !s.cmdUp n || s.sesState n = 0 || decide (k.hdr.seq ≠ s.reg (Reg.cmdNextSeq n)) then s
    else
      let s := if s.pair.proxied = some (n, k.hdr.seq) then s else setProxy false s
      let s := (s.setReg (Reg.cmdSqHead n) head).setReg (Reg.cmdSqTail n) head
      let f : Flight := { pkt := k, eff := some eff, phase := .mirror, tick := s.reg Reg.ptrTick }
      let s := writeJournal n true (s.onSes n fun x => { x with flights := x.flights ++ [f] })
      let s := s.onPair fun p => { p with order := p.order ++ [(n, k.hdr.seq)] }
      pairSend 2 9 [n, k.hdr.seq.toNat] (acceptPacket n k.hdr.seq s))

/-! ### A command of the host, whole -/

/-- The Porter would give this command to an idle core next. -/
def State.nextCore (s : State) (n : Nat) (seq : Word) : Option Nat :=
  match s.nextReady with
  | none => none
  | some p => match s.readyList p with
    | t :: _ => if t.ses = n ∧ t.seq = seq then (List.range 4).find? s.coreIdle else none
    | [] => none

/-- A command as the host issues it (log 37): its packet, with the doorbell when none is outstanding, is fetched
and accepted; when nothing stands before it, it is also dispatched, interpreted, retired and, if its reply is
settled, answered. In a pair it stops at the mirror record. -/
def hostCommand (op : Nat) (h : Hdr) (p : Bytes) (s : State) : State :=
  let n := h.ses
  if !s.mayFetch n then s
  else
    let head := s.reg (Reg.cmdSqHead n)
    let s := if head = s.reg (Reg.cmdSqTail n) then s.setReg (Reg.cmdSqTail n) (head + 1) else s
    let s := takePacket n { op := op, hdr := h, payload := p } p.length s
    let s := match s.nextCore n h.seq with
      | some c => finishTask c (dispatch c s)
      | none => s
    let s := match (s.ses n).flights with
      | f :: _ => if f.seq = h.seq then retire n s else s
      | [] => s
    match (s.ses n).ready with
    | some r => if r.seq = h.seq then activationReset (writeReply n s) else s
    | none => s

/-! ### The commands of the host (R138 to R142) -/

/-- NOP (R138): Command that does nothing; with target 0xFFFF it acts as a fence in its session. -/
def execNop (h : Hdr) (p : Bytes) (s : State) : Host.Outcome State Fault Refusal := done (hostCommand 0x0101 h p s)
/-- ECHO (R138): Command that returns its payload unchanged. -/
def execEcho (h : Hdr) (p : Bytes) (s : State) : Host.Outcome State Fault Refusal := done (hostCommand 0x0102 h p s)
/-- SESSION_INFO (R138): Command that returns the session's version, credit and sequence counters. -/
def execSessionInfo (h : Hdr) (p : Bytes) (s : State) : Host.Outcome State Fault Refusal := done (hostCommand 0x0103 h p s)
/-- DEV_INFO (R138): Command that returns identity, capability, strap, firmware and state words. -/
def execDevInfo (h : Hdr) (p : Bytes) (s : State) : Host.Outcome State Fault Refusal := done (hostCommand 0x0201 h p s)
/-- RUN_START (R27): Command that moves the device from READY to RUN at a boundary. -/
def execRunStart (h : Hdr) (p : Bytes) (s : State) : Host.Outcome State Fault Refusal := done (hostCommand 0x0202 h p s)
/-- RUN_STOP (R27): Command that moves the device from RUN to READY when every axis is DISABLED or READY. -/
def execRunStop (h : Hdr) (p : Bytes) (s : State) : Host.Outcome State Fault Refusal := done (hostCommand 0x0203 h p s)
/-- SET_PERIOD (R149): Command that changes the base period at its effect boundary and unbuilds every active table. -/
def execSetPeriod (h : Hdr) (p : Bytes) (s : State) : Host.Outcome State Fault Refusal := done (hostCommand 0x0204 h p s)
/-- DEV_STATUS (R138): Command that returns the period number, axis counts and dropped stops. -/
def execDevStatus (h : Hdr) (p : Bytes) (s : State) : Host.Outcome State Fault Refusal := done (hostCommand 0x0205 h p s)
/-- GET_PARAMS (R145): Command that reads parameter entries of an axis slot. -/
def execGetParams (h : Hdr) (p : Bytes) (s : State) : Host.Outcome State Fault Refusal := done (hostCommand 0x0301 h p s)
/-- SET_PARAMS (R144): Command that checks all its parameter entries and stages them to take hold together at one boundary. -/
def execSetParams (h : Hdr) (p : Bytes) (s : State) : Host.Outcome State Fault Refusal := done (hostCommand 0x0302 h p s)
/-- DEFAULT_PARAMS (R139): Command that restores the defaults of a parameter range of a DISABLED slot. -/
def execDefaultParams (h : Hdr) (p : Bytes) (s : State) : Host.Outcome State Fault Refusal := done (hostCommand 0x0303 h p s)
/-- ENABLE (R214): Command that takes a READY slot to ENABLED and initialises its loop and set-point state. -/
def execEnable (h : Hdr) (p : Bytes) (s : State) : Host.Outcome State Fault Refusal := done (hostCommand 0x0304 h p s)
/-- DISABLE (R291): Command that disables an axis, stopping a moving axis by quick or immediate stop. -/
def execDisable (h : Hdr) (p : Bytes) (s : State) : Host.Outcome State Fault Refusal := done (hostCommand 0x0305 h p s)
/-- CLEAR_FAULT (R139): Command that takes a FAULT axis whose cause has gone to DISABLED. -/
def execClearFault (h : Hdr) (p : Bytes) (s : State) : Host.Outcome State Fault Refusal := done (hostCommand 0x0306 h p s)
/-- AXIS_STATUS (R139): Command that returns the axis record as at the last sealing. -/
def execAxisStatus (h : Hdr) (p : Bytes) (s : State) : Host.Outcome State Fault Refusal := done (hostCommand 0x0307 h p s)
/-- MOVE_ABS (R264): Command that plans a move to an absolute position, replacing or appending. -/
def execMoveAbs (h : Hdr) (p : Bytes) (s : State) : Host.Outcome State Fault Refusal := done (hostCommand 0x0401 h p s)
/-- MOVE_REL (R557): Command that plans a move by a distance from the end position of the motion it follows. -/
def execMoveRel (h : Hdr) (p : Bytes) (s : State) : Host.Outcome State Fault Refusal := done (hostCommand 0x0402 h p s)
/-- MOVE_VEL (R264): Command that plans a ramp to a target velocity. -/
def execMoveVel (h : Hdr) (p : Bytes) (s : State) : Host.Outcome State Fault Refusal := done (hostCommand 0x0403 h p s)
/-- STREAM (R268): Command that queues a segment of streamed set-point positions. -/
def execStream (h : Hdr) (p : Bytes) (s : State) : Host.Outcome State Fault Refusal := done (hostCommand 0x0404 h p s)
/-- HALT (R261): Command that empties the queue and plans a jerk-limited stop. -/
def execHalt (h : Hdr) (p : Bytes) (s : State) : Host.Outcome State Fault Refusal := done (hostCommand 0x0405 h p s)
/-- QUICK_STOP (R287): Command that replaces the plan by a deceleration at QS_DEC without jerk limit. -/
def execQuickStop (h : Hdr) (p : Bytes) (s : State) : Host.Outcome State Fault Refusal := done (hostCommand 0x0406 h p s)
/-- GROUP_DEFINE (R270): Command that defines or dissolves a coordination group. -/
def execGroupDefine (h : Hdr) (p : Bytes) (s : State) : Host.Outcome State Fault Refusal := done (hostCommand 0x0407 h p s)
/-- PATH_SEGMENT (R271): Command that queues a linear, arc or dwell segment of a group path. -/
def execPathSegment (h : Hdr) (p : Bytes) (s : State) : Host.Outcome State Fault Refusal := done (hostCommand 0x0408 h p s)
/-- FLUSH_QUEUE (R261): Command that removes the queue entries behind the segment in progress. -/
def execFlushQueue (h : Hdr) (p : Bytes) (s : State) : Host.Outcome State Fault Refusal := done (hostCommand 0x0409 h p s)
/-- DOVETAIL_LINK (R307): Command that links a follower to a master by an exact ratio. -/
def execDovetailLink (h : Hdr) (p : Bytes) (s : State) : Host.Outcome State Fault Refusal := done (hostCommand 0x0501 h p s)
/-- DOVETAIL_RATIO (R309): Command that changes the ratio of a linked follower. -/
def execDovetailRatio (h : Hdr) (p : Bytes) (s : State) : Host.Outcome State Fault Refusal := done (hostCommand 0x0502 h p s)
/-- DOVETAIL_UNLINK (R310): Command that unlinks a follower and halts it from its total set-point state. -/
def execDovetailUnlink (h : Hdr) (p : Bytes) (s : State) : Host.Outcome State Fault Refusal := done (hostCommand 0x0503 h p s)
/-- CAM_LOAD (R312): Command that writes a cam table header or points. -/
def execCamLoad (h : Hdr) (p : Bytes) (s : State) : Host.Outcome State Fault Refusal := done (hostCommand 0x0504 h p s)
/-- CAM_ENGAGE (R313): Command that copies a cam table to the follower engine and engages it. -/
def execCamEngage (h : Hdr) (p : Bytes) (s : State) : Host.Outcome State Fault Refusal := done (hostCommand 0x0505 h p s)
/-- CAM_DISENGAGE (R315): Command that releases a cam follower as an unlink does. -/
def execCamDisengage (h : Hdr) (p : Bytes) (s : State) : Host.Outcome State Fault Refusal := done (hostCommand 0x0506 h p s)
/-- VMASTER_SET (R306): Command that sets a virtual master's velocity through its bound slot. -/
def execVmasterSet (h : Hdr) (p : Bytes) (s : State) : Host.Outcome State Fault Refusal := done (hostCommand 0x0507 h p s)
/-- SHAFT_CONFIG (R325): Command that configures a line-shaft channel. -/
def execShaftConfig (h : Hdr) (p : Bytes) (s : State) : Host.Outcome State Fault Refusal := done (hostCommand 0x0508 h p s)
/-- HOME_START (R292): Command that starts homing with a chosen method. -/
def execHomeStart (h : Hdr) (p : Bytes) (s : State) : Host.Outcome State Fault Refusal := done (hostCommand 0x0601 h p s)
/-- HOME_SET (R298): Command that applies the homing completion rule at the current position. -/
def execHomeSet (h : Hdr) (p : Bytes) (s : State) : Host.Outcome State Fault Refusal := done (hostCommand 0x0602 h p s)
/-- HOME_ABORT (R298): Command that ends homing with a stop and leaves HOMED clear. -/
def execHomeAbort (h : Hdr) (p : Bytes) (s : State) : Host.Outcome State Fault Refusal := done (hostCommand 0x0603 h p s)
/-- LATCH_ARM (R317): Command that selects a latch input's edges for a slot, with an optional window. -/
def execLatchArm (h : Hdr) (p : Bytes) (s : State) : Host.Outcome State Fault Refusal := done (hostCommand 0x0701 h p s)
/-- LATCH_DISARM (R140): Command that disarms a latch input. -/
def execLatchDisarm (h : Hdr) (p : Bytes) (s : State) : Host.Outcome State Fault Refusal := done (hostCommand 0x0702 h p s)
/-- LATCH_READ (R140): Command that returns and removes latch records from the host FIFO. -/
def execLatchRead (h : Hdr) (p : Bytes) (s : State) : Host.Outcome State Fault Refusal := done (hostCommand 0x0703 h p s)
/-- REGISTER_CFG (R321): Command that binds or unbinds a latch input to a slot's registration. -/
def execRegisterCfg (h : Hdr) (p : Bytes) (s : State) : Host.Outcome State Fault Refusal := done (hostCommand 0x0704 h p s)
/-- TT_WRITE (R154): Command that writes stop records into a shadow table. -/
def execTtWrite (h : Hdr) (p : Bytes) (s : State) : Host.Outcome State Fault Refusal := done (hostCommand 0x0801 h p s)
/-- TT_CLEAR (R154): Command that zeroes a shadow table. -/
def execTtClear (h : Hdr) (p : Bytes) (s : State) : Host.Outcome State Fault Refusal := done (hostCommand 0x0802 h p s)
/-- BUILD_TIMETABLE (R169): Command that checks shadow tables and, if all pass, makes them active at one boundary. -/
def execBuildTimetable (h : Hdr) (p : Bytes) (s : State) : Host.Outcome State Fault Refusal := done (hostCommand 0x0803 h p s)
/-- TT_READ (R154): Command that returns records of an active table. -/
def execTtRead (h : Hdr) (p : Bytes) (s : State) : Host.Outcome State Fault Refusal := done (hostCommand 0x0804 h p s)
/-- KERNEL_LOAD (R193): Command that writes custom kernel bytes into kernel memory. -/
def execKernelLoad (h : Hdr) (p : Bytes) (s : State) : Host.Outcome State Fault Refusal := done (hostCommand 0x0901 h p s)
/-- KERNEL_CHECK (R193): Command that checks a CRC over kernel memory. -/
def execKernelCheck (h : Hdr) (p : Bytes) (s : State) : Host.Outcome State Fault Refusal := done (hostCommand 0x0902 h p s)
/-- KERNEL_LIST (R193): Command that lists the custom kernel directory. -/
def execKernelList (h : Hdr) (p : Bytes) (s : State) : Host.Outcome State Fault Refusal := done (hostCommand 0x0903 h p s)
/-- ACQ_CONFIG (R507): Command that configures the acquisition stream. -/
def execAcqConfig (h : Hdr) (p : Bytes) (s : State) : Host.Outcome State Fault Refusal := done (hostCommand 0x0A01 h p s)
/-- ACQ_START (R508): Command that starts acquisition records at its boundary. -/
def execAcqStart (h : Hdr) (p : Bytes) (s : State) : Host.Outcome State Fault Refusal := done (hostCommand 0x0A02 h p s)
/-- ACQ_STOP (R508): Command that ends acquisition records from its boundary. -/
def execAcqStop (h : Hdr) (p : Bytes) (s : State) : Host.Outcome State Fault Refusal := done (hostCommand 0x0A03 h p s)
/-- ACQ_MARK (R510): Command that writes a host mark into the acquisition stream. -/
def execAcqMark (h : Hdr) (p : Bytes) (s : State) : Host.Outcome State Fault Refusal := done (hostCommand 0x0A04 h p s)
/-- FIO_SET (R452): Command that replaces masked bits of the general output commands. -/
def execFioSet (h : Hdr) (p : Bytes) (s : State) : Host.Outcome State Fault Refusal := done (hostCommand 0x0B01 h p s)
/-- FIO_GET (R458): Command that returns field inputs, output commands, readback and state. -/
def execFioGet (h : Hdr) (p : Bytes) (s : State) : Host.Outcome State Fault Refusal := done (hostCommand 0x0B02 h p s)
/-- FIO_CONFIG (R458): Command that writes input types, wake enables and filters. -/
def execFioConfig (h : Hdr) (p : Bytes) (s : State) : Host.Outcome State Fault Refusal := done (hostCommand 0x0B03 h p s)
/-- TIME_GET (R141): Command that returns network time, period number and time flags. -/
def execTimeGet (h : Hdr) (p : Bytes) (s : State) : Host.Outcome State Fault Refusal := done (hostCommand 0x0C01 h p s)
/-- TIME_ALARM (R471): Command that sets and arms the time alarm. -/
def execTimeAlarm (h : Hdr) (p : Bytes) (s : State) : Host.Outcome State Fault Refusal := done (hostCommand 0x0C02 h p s)
/-- TIME_RESTEP (R464): Command that arms the first-lock step again in READY or below. -/
def execTimeRestep (h : Hdr) (p : Bytes) (s : State) : Host.Outcome State Fault Refusal := done (hostCommand 0x0C03 h p s)
/-- TIME_CONFIG (R472): Command that writes the PTP, servo, threshold, guard and sample-offset registers. -/
def execTimeConfig (h : Hdr) (p : Bytes) (s : State) : Host.Outcome State Fault Refusal := done (hostCommand 0x0C04 h p s)
/-- PAIR_STATUS (R415): Command that returns pair state and counters. -/
def execPairStatus (h : Hdr) (p : Bytes) (s : State) : Host.Outcome State Fault Refusal := done (hostCommand 0x0D01 h p s)
/-- PAIR_HANDOVER (R412): Command that swaps the Active and Standby roles at a boundary. -/
def execPairHandover (h : Hdr) (p : Bytes) (s : State) : Host.Outcome State Fault Refusal := done (hostCommand 0x0D02 h p s)
/-- PAIR_RELEASE (R413): Command that releases the Standby from RUN and leaves the Active alone. -/
def execPairRelease (h : Hdr) (p : Bytes) (s : State) : Host.Outcome State Fault Refusal := done (hostCommand 0x0D03 h p s)
/-- PAIR_RESYNC (R389): Command that starts resynchronisation of a waiting partner. -/
def execPairResync (h : Hdr) (p : Bytes) (s : State) : Host.Outcome State Fault Refusal := done (hostCommand 0x0D04 h p s)
/-- SAFE_OPEN (R443): Command that opens safety commissioning with a credential. -/
def execSafeOpen (h : Hdr) (p : Bytes) (s : State) : Host.Outcome State Fault Refusal := done (hostCommand 0x0E01 h p s)
/-- SAFE_WRITE (R444): Command that writes bytes of the working safety image. -/
def execSafeWrite (h : Hdr) (p : Bytes) (s : State) : Host.Outcome State Fault Refusal := done (hostCommand 0x0E02 h p s)
/-- SAFE_READ (R444): Command that reads the working or committed safety image. -/
def execSafeRead (h : Hdr) (p : Bytes) (s : State) : Host.Outcome State Fault Refusal := done (hostCommand 0x0E03 h p s)
/-- SAFE_COMMIT (R444): Command that checks the working image and commits it to flash. -/
def execSafeCommit (h : Hdr) (p : Bytes) (s : State) : Host.Outcome State Fault Refusal := done (hostCommand 0x0E04 h p s)
/-- SAFE_CLOSE (R444): Command that discards uncommitted changes and closes commissioning. -/
def execSafeClose (h : Hdr) (p : Bytes) (s : State) : Host.Outcome State Fault Refusal := done (hostCommand 0x0E05 h p s)
/-- UPDATE_BEGIN (R526): Command that opens an update of a device bank or a drive head. -/
def execUpdateBegin (h : Hdr) (p : Bytes) (s : State) : Host.Outcome State Fault Refusal := done (hostCommand 0x0F01 h p s)
/-- UPDATE_DATA (R526): Command that delivers the next bytes of an update image. -/
def execUpdateData (h : Hdr) (p : Bytes) (s : State) : Host.Outcome State Fault Refusal := done (hostCommand 0x0F02 h p s)
/-- UPDATE_COMMIT (R526): Command that verifies an update image and commits it. -/
def execUpdateCommit (h : Hdr) (p : Bytes) (s : State) : Host.Outcome State Fault Refusal := done (hostCommand 0x0F03 h p s)
/-- UPDATE_ACTIVATE (R526): Command that activates a committed image, resetting the device or the head. -/
def execUpdateActivate (h : Hdr) (p : Bytes) (s : State) : Host.Outcome State Fault Refusal := done (hostCommand 0x0F04 h p s)
/-- LEDGER_READ (R523): Command that returns event-ledger records. -/
def execLedgerRead (h : Hdr) (p : Bytes) (s : State) : Host.Outcome State Fault Refusal := done (hostCommand 0x0F05 h p s)
/-- HEALTH_READ (R535): Command that returns the health report. -/
def execHealthRead (h : Hdr) (p : Bytes) (s : State) : Host.Outcome State Fault Refusal := done (hostCommand 0x0F06 h p s)
/-- NP_READ (R527): Command that returns a nameplate record. -/
def execNpRead (h : Hdr) (p : Bytes) (s : State) : Host.Outcome State Fault Refusal := done (hostCommand 0x1001 h p s)
/-- NP_BIND (R529): Command that binds a nameplate to a wear account of a slot. -/
def execNpBind (h : Hdr) (p : Bytes) (s : State) : Host.Outcome State Fault Refusal := done (hostCommand 0x1002 h p s)
/-- WEAR_READ (R533): Command that returns a wear account. -/
def execWearRead (h : Hdr) (p : Bytes) (s : State) : Host.Outcome State Fault Refusal := done (hostCommand 0x1003 h p s)
/-- WEAR_REPLACE (R532): Command that binds the part now fitted and starts from its own wear block. -/
def execWearReplace (h : Hdr) (p : Bytes) (s : State) : Host.Outcome State Fault Refusal := done (hostCommand 0x1004 h p s)

end Sys2Proof.Machine
end

