-- ==== Sys2Proof/Machine/Period.lean ====
section
/-!
DEFINITION. The two instants of every period at which the whole device acts: the boundary and the sealing
(R14 to R21, R24, R61, R62, R118, R119, R158, R159, R164, R165, R289, R345, R353, R354, R400, R401, R411, R436).
-/
namespace Sys2Proof.Machine

/-! ### Staged effects at boundary `k` (R118, R119, R133, R394, R436) -/

/-- An earlier effect of one of its slots is still ahead (R119). -/
def State.heldBack (s : State) (k : Nat) (t : Staged) : Bool :=
  (s.staged.takeWhile fun x => !x.is t.ses t.pkt.hdr.seq).any fun x =>
    (x.slots.any fun n => decide (n ∈ t.slots)) && (decide (k < x.eff) || (x.waiting && decide (x.pkt.op = 0x0505)))

/-- Effects that a hold of the island refuses (R436). -/
def holdRefuses (op : Nat) : Bool := isMove op || decide (op = 0x0304 ∨ op = 0x0601 ∨ op = 0x0501 ∨ op = 0x0505)

/-- An effect whose retire record has no acknowledgement takes the Standby out of step (R394). -/
def unacknowledged (t : Staged) (s : State) : State := if s.inStep && !t.acked then breakStep s else s

/-- An effect of a Standby waits for the Active's retire record (R394, R407). -/
def State.recordless (s : State) (t : Staged) : Bool := s.paired && !s.active? && !t.acked

/-- One staged effect meets boundary `k`. -/
def stagedAt (k : Nat) (t : Staged) (s : State) : State :=
  if t.cut || (t.waiting && isMove t.pkt.op) || decide (k < t.eff) || s.recordless t || s.heldBack k t then s
  else match (if holdRefuses t.pkt.op then t.slots.find? fun n => decide ((s.axis n).holdKind ≠ 0) else none), opSpec t.pkt.op with
    | some n, _ => failedAt t n ST.safeStop s
    | none, some o => o.apply k (t.lateAt k) t (unacknowledged t s)
    | none, none => s

/-- The staged effects in the order in which their commands retired. -/
def stagedBoundary (k : Nat) (s : State) : State :=
  s.staged.foldl (fun s t =>
    match s.staged.find? fun x => x.is t.ses t.pkt.hdr.seq with
    | some x => stagedAt k x s
    | none => s) s

/-- Handover and release take hold before frames and messages of the new period leave (R412, R413). -/
def rolesBoundary (k : Nat) (s : State) : State :=
  s.staged.foldl (fun s t => if t.pkt.op = 0x0D02 ∨ t.pkt.op = 0x0D03 then stagedAt k t s else s) s

/-- A retire record of the Active names a period that has come, and the own command has not retired (R394). -/
def retiresDue (k : Nat) (s : State) : State :=
  if s.standby && s.pair.retires.any (fun r => decide (r.2.2 ≤ k)) then s.onPair fun p => { p with leave := true } else s

/-! ### Holds of the island (R436) -/

/-- This device uses its own samples of switches and holds, its partner's otherwise (R399, R436). -/
def State.ownSamples (s : State) : Bool := s.leads || s.pair.partner.isNone

/-- The boundary reads the hold of a slot, and applies it: an immediate stop takes hold here, and its disabled words
follow at the sealing (R286, R288, R436). Kind 1 makes one quick stop; a slot at rest stays ENABLED under it, and a
quick stop already running ends so too, where `QS_END` would have it DISABLED. -/
def holdSlot (s : State) (n : Nat) : State :=
  let h := if s.ownSamples then s.ownHold n else s.pair.holds.getD n 0
  let fresh := decide ((s.axis n).holdKind ≠ h)
  let s := if (s.axis n).holdKind = h then s else s.onAxis n fun a => { a with holdKind := h }
  if h = 1 ∧ (s.axis n).state.on then
    match (s.axis n).stop with
    | .quick c d => s.onAxis n fun a => { a with stop := .quick c (d && !s.qsEnd n) }
    | .immediate _ => s
    | _ => if !fresh ∧ (s.axis n).state = .enabled then s else quickSlots n none (fun _ => false) (failStaged n ST.safeStop (fun t => isMove t.pkt.op) s)
  else if h = 2 ∧ (s.axis n).state.on ∧ (s.axis n).stop ≠ .immediate none then (hardStop n s).onAxis n fun a => { a with stop := .immediate none }
  else s

/-! ### READY (R24) -/

/-- The conditions of R24. -/
def State.readyNow (s : State) (n : Nat) : Bool :=
  let st := s.stopsOf n
  s.running && decide (s.axisType n ≠ 0) && bit (s.reg (Reg.ttbState (s.slotLe n))) 0 && decide (s.slotLe n < s.part.engines)
    && !st.isEmpty && (decide (s.outKind n = 0) || st.any fun e => e.2.seals)
    && (decide (s.fbkSrc n = 3) || bit (s.axWord n 0x98) 0) && s.causeGone n

/-- A slot changes between DISABLED and READY. -/
def readySlot (s : State) (n : Nat) : State :=
  match (s.axis n).state, s.readyNow n with
  | .disabled, true => s.onAxis n fun a => { a with state := .ready }
  | .ready, false => s.onAxis n fun a => { a with state := .disabled }
  | _, _ => s

/-! ### Values read at the boundary -/

/-- The count of the slot's multi-turn channel, while it is valid (R243). -/
def State.mtNow (s : State) (n : Nat) : Option Int :=
  if s.mtNamed n && bit (s.reg (Reg.fbkMtMstat (s.pn n 0x113))) 0 then some (s.reg (Reg.fbkMtCount (s.pn n 0x113))).toInt else none

/-- The sample of the period that begins reports `RESTART`: one taken already does, or one still to come will. -/
def State.restarts (s : State) (n : Nat) : Bool :=
  let c := s.fb n
  if !s.sampleEarly then c.restart else if c.cur.done then bit c.cur.status 5 else c.cur.started && c.restart

/-- The count of the slot's multi-turn channel now. -/
def State.mtCount (s : State) (n : Nat) : Int := (s.reg (Reg.fbkMtCount (s.pn n 0x113))).toInt

/-- The boundary of a period in which a slot's feedback initialises copies the count of its multi-turn channel into `MT_QT`
(R236, R243). A restart that a ring sample reports comes with the returning frame, after the boundary: there the count of
the boundary is shown with the run (DEDUCED, log 26). -/
def mtCopy (n : Nat) (s : State) : State :=
  let due := !bit (s.axWord n 0x98) 0 || (decide (s.fbkSrc n = 1 ∧ s.fbkCh n < 16) && s.restarts (s.fbkCh n))
  if s.mtNamed n && due then s.setAxb n 0xA4 (wInt (s.mtCount n)) else s

/-- A slot as it stands at the boundary: its read-only parameters, which `GET_PARAMS` can read until the next
one (R145, R277, R330, R355), and the count of its multi-turn channel. -/
def snapSlot (k : Nat) (s : State) (n : Nat) : State :=
  let s := s.onAxis n fun a =>
    { a with mtQt := s.mtNow n, mtAt := s.mtCount n, snapK := s.planK n, snap := viewIndices.map fun i => (i, s.parView n i) }
  calibBoundary n k (mtCopy n s)

/-! ### The pair at a boundary (R399, R401, R411, R436) -/

/-- Images received are installed, and the requests of the ended period are forgotten (R401). -/
def imagesBoundary (s : State) : State :=
  if !s.paired then s
  else
    let s := (s.pair.images ++ s.pair.late).foldl installImage s
    s.onPair fun p => { p with images := [], late := [], asked := 0, requests := [] }

/-- The Active sends its switch samples and holds (R399, R436). -/
def sendSamples (s : State) : State :=
  if s.pairUp && s.active? then
    pairSend 0 7 ([(s.reg Reg.fioIn).toNat, s.latLevel.toNat] ++ (List.range s.part.slots).map fun n => (s.axis n).holdKind) s
  else s

/-- `CFG.ADOPT_MAX` as taken (R416). -/
def State.adoptMax (s : State) : Nat := max 1 (min 16 (s.field Reg.pairCfg 28 24))

/-- Slots that an adoption round goes through. -/
def State.roundSlots (s : State) : List Nat := (s.slots.filter fun n => decide (s.pair.roundAt ≤ n) && !(s.stopsOf n).isEmpty).take s.adoptMax

/-- Slots whose local I/O the partner has: their images are asked for in every due period (R403). -/
def askLocal (k : Nat) (s : State) : State :=
  if s.running && s.inStep then
    (s.slots.filter fun n => s.localThere n && s.dueIn n k).foldl (fun s n => pairSend 0 5 [n] s) s
  else s

/-- The joiner in its boundary: it enters RUN, then asks for the slots of its round (R411). -/
def joinBoundary (s : State) : State :=
  if !s.pairUp || decide (s.pairPhase ≠ 3) then s
  else if s.active? then (if s.resyncPhase = 3 then setResync 4 s else s)
  else if s.resyncPhase = 3 then
    let s := if s.running || !(s.engines?.any fun n => bit (s.reg (Reg.ttbState n)) 1 || bit (s.reg (Reg.ttbState n)) 0) then s else enterRun s
    setResync 4 s
  else if s.resyncPhase = 4 then
    let ns := s.roundSlots
    let s := ns.foldl (fun s n => pairSend 0 5 [n] s) s
    let from_ := match ns.getLast? with | some n => n + 1 | none => 0
    let s := s.onPair fun p => { p with
      roundAt := if ns.length < s.adoptMax then 0 else from_, rounds := if p.roundAt = 0 then p.rounds + 1 else p.rounds }
    s.setReg Reg.pairResync (w32 (256 * s.resyncPhase + s.pair.rounds % 256))
  else s

/-! ### The exchange (R178, R306) -/

/-- A stop of an active table is the kernel of virtual master `v`. -/
def State.vmRuns (s : State) (v : Nat) : Bool :=
  s.active.any fun e => decide (e.2.mode ≠ 0 ∧ e.2.kernel = 0x71) && decide ((s.leWord (e.1 / 512) (e.2.param * 64)).toNat % 8 = v)

/-- Every next copy becomes the current one; a virtual master without a stop publishes 0. -/
def exchangeBoundary (s : State) : State :=
  let idle (a : Nat) : Bool := decide (1024 ≤ a ∧ a < 1088) && !s.vmRuns ((a - 1024) / 8)
  let m := s.exchNext.filter fun e => !idle e.1
  { s with exchange := m, exchNext := m, exchAt := s.exchAtNext }

/-! ### PERIOD_BOUNDARY -/

/-- The firmware's work of boundary `k`, from the samples of switches and holds on: effects, groups, slots. -/
def firmwareWork (k : Nat) (s : State) : State :=
  let own := s.ownSamples
  let s := switchBoundary k (if own then s.reg Reg.fioIn else s.pair.field) (if own then s.latLevel else s.pair.latch) s
  let s := latchForget s
  let s := (List.range s.part.slots).foldl holdSlot s
  let s := sendSamples s
  let s := retiresDue k (stagedBoundary k (copyCams s))
  let s := (List.range 4).foldl (fun s n => coverDue n s) s
  let s := (List.range 32).foldl groupBoundary s
  let s := stpBoundary s
  let s := s.slots.foldl (snapSlot k) s
  joinBoundary ((List.range s.part.slots).foldl readySlot (markCauses s))

/-- The work of the running period that still waits for the Active's samples is done (R399). -/
def catchUp (s : State) : State :=
  if s.pair.swDue then firmwareWork s.tmu.period (s.onPair fun p => { p with swDue := false }) else s

/-- What the device does at boundary `k` while its fabric is powered. A device that takes the Active's samples does the
firmware's part once they are here (R399; DESIGN CHOICE, log 40: at the latest at the sealing). -/
def boundaryWork (k : Nat) (s : State) : State :=
  let ns := s.tmu.ns
  let s := listenBoundary k (smpTake (exchangeBoundary (fbkBoundary (imagesBoundary s))))
  let s := ringBoundary k (rolesBoundary k s)
  let s := pwmBoundary (emuBoundary s)
  let s := shaftBoundary k ((List.range s.part.engines).foldl applyWriteQueue s)
  let s := (List.range s.part.engines).foldl engineBoundary s
  let s := askLocal k (latchBoundary ns s)
  if s.ownSamples then firmwareWork k s else s.onPair fun p => { p with swDue := true }

/-- SWITCH_SOURCE_SAMPLE (R399, R436): the Active's samples replace the own ones, and the boundary's work goes on. -/
def execSwitchSourceSample (field latch : Word) (holds : List Nat) (s : State) : Host.Outcome State Fault Refusal :=
  done (if s.pairUp && !s.active? then catchUp (s.onPair fun p => { p with field := field, latch := latch, holds := holds }) else s)

/-- The next period begins at its time (R13, R148). -/
def beginPeriod (s : State) : State :=
  let k := s.tmu.period + 1
  (s.advanceTo (k * s.tBase)).onTmu fun t => { t with period := k, sealed := false, sampled := [] }

/-- PERIOD_BOUNDARY (R13, R16, R21): the next period begins, and the boundary's work is done. -/
def periodBoundary (s : State) : State :=
  if s.up then
    let s := beginPeriod (catchUp s)
    boundaryWork s.tmu.period s
  else smpTake (beginPeriod s)

def execPeriodBoundary (s : State) : Host.Outcome State Fault Refusal :=
  done (if s.counts then periodBoundary s else s)

/-! ### Fault causes at the sealing (R165, R239, R289, R347, R353) -/

/-- `LAG` of the slot's step channel is beyond its limit (R353). -/
def State.lagBad (s : State) (n : Nat) : Bool :=
  decide (s.outKind n = 3) && decide (s.pn n 0xA09 < (s.reg (Reg.stpChLag (s.pn n 9))).toInt.natAbs)

/-- A slot of a pair in step seals the partner's output: one of its stops was dropped, or its local I/O is there (R401,
R403). -/
def State.adopts (s : State) (n : Nat) : Bool := s.inStep && ((s.axis n).dropped || s.localThere n)

/-- An image stands in for the slot's own output (R401, R411). -/
def State.imageFor (s : State) (n : Nat) : Option Bytes :=
  if s.adopts n || (decide (s.pairPhase = 3 ∧ s.resyncPhase = 4) && !s.active?) then
    s.pair.images.find? fun b => decide (Bytes.num b 0 2 = n)
  else none

/-- The output of a due slot is stale once more, or is not (R165). DESIGN CHOICE (log 44): a slot with `OUT_KIND` 0 has
no output that could be stale. -/
def countStale (n : Nat) (s : State) : State :=
  let a := s.axis n
  if !a.state.on || decide (s.outKind n = 0) then s
  else if (a.fresh && !s.adopts n) || (s.imageFor n).isSome then s.onAxis n fun a => { a with stale := 0 }
  else
    let s := s.onAxis n fun a => { a with stale := a.stale + 1 }
    if 2 ≤ (s.axis n).stale then s.cause n ST.drops else s

/-- A slot's feedback is in fault (R239). -/
def feedbackCause (n : Nat) (s : State) : State := if bit (s.axWord n 0x98) 4 then s.cause n ST.feedback else s

/-- FEEDBACK_FAULT (R239): the kernel has set `FB_FLAGS.FAULT`; the axis faults at the next sealing. -/
def execFeedbackFault (n : Nat) (s : State) : Host.Outcome State Fault Refusal :=
  done (if s.running && decide (n < s.part.slots ∧ s.axisType n ≠ 0) then feedbackCause n s else s)

/-- DROPS_FAULT (R165): the second stale output in a row puts the axis in FAULT. -/
def execDropsFault (n : Nat) (s : State) : Host.Outcome State Fault Refusal :=
  done (if s.running && (s.axis n).state.on && decide (2 ≤ (s.axis n).stale) then react n (s.cause n ST.drops) else s)

/-- The causes that the sealing of period `k` finds for a slot, and the stops that end: one that ends here has made
its last step, one that begins here has made none (R289). -/
def judgeSlot (k : Nat) (s : State) (n : Nat) : State :=
  let due := s.dueIn n k
  let s := if due then limitCauses n s else s
  let s := if (s.axis n).state.on && (s.slotTripped n || s.lagBad n) then s.cause n ST.drive else s
  let s := feedbackCause n s
  let s := if due then homeSat n (countStale n s) else s
  let s := react n (quickEnd n s)
  match (s.axis n).stop with
  | .immediate (some c) => enterFault false n c s
  | .immediate none => enterDisabled false n s
  | _ => s

/-! ### Sealed words (R159, R345, R346, R352, R370, R401 to R404) -/

/-- A device of a pair that is neither Active nor in step, nor adopting, seals `STALE` (R404; DEDUCED for the phases but
OUT_OF_STEP, log 44). -/
def State.sealsStale (s : State) : Bool :=
  s.paired && !s.active? && decide (s.pairPhase ≠ 4) && !decide (s.pairPhase = 3 ∧ s.resyncPhase = 4)

/-- Kind and output words of a slot at the sealing of period `k` (R159). DESIGN CHOICE (log 44): a due slot that is on and
whose `SEAL` stop neither completed nor was dropped seals STALE. -/
def State.sealWord (s : State) (k n : Nat) : Nat × List Word :=
  let a := s.axis n
  if s.sealsStale then (1, [])
  else if !s.dueIn n k then (2, [])
  else if !a.state.on then (3, if s.axisType n = 3 ∧ s.pn n 0xA04 = 1 then [1] else [])
  else match s.imageFor n with
    | some b => (0, imageOut b)
    | none => if a.fresh && !s.adopts n then (0, a.out) else (1, [])

/-- A local output takes its sealed word; a disabled word acts on the channels that the slot owned until then, and on
those of a stepper always (R346, R351). The side without the slot's local I/O keeps its channels forced off (R403). -/
def sealLocal (n : Nat) (w : Nat × List Word) (s : State) : State :=
  if !s.localHere n then
    let s := (s.slotPwm n).foldl (fun s c => s.onPw c fun p => { p with next := some 1, held := none }) s
    if s.outKind n = 3 then s.onStp (s.pn n 9) fun x => { x with word := 0 } else s
  else match w.1 with
    | 0 =>
      let s := pwmSeal n w.2 s
      if s.outKind n = 3 then s.onStp (s.pn n 9) fun x => { x with word := (w.2.headD 0).toInt } else s
    | 3 =>
      if (s.axis n).drove || decide (s.axisType n = 3) then (pwmDisable n s).onAxis n fun a => { a with drove := false } else s
    | _ => s

/-- A slot seals its word (R159). -/
def sealSlot (k : Nat) (s : State) (n : Nat) : State :=
  let w := s.sealWord k n
  let s := if (s.imageFor n).isSome && s.dueIn n k && !s.sealsStale then
      ((s.countUp Reg.pairAdoptCnt 15 0 1).event Reg.pairStat 5).onPair fun p => { p with adopted := p.adopted + 1 }
    else s
  let s := s.onAxis n fun a => { a with sealed := w.1 }
  if s.outKind n = 1 then
    s.onPort (s.westOf (s.pn n 5)) fun x =>
      { x with words := Map.set (fun _ => [3]) x.words (4 * s.pn n 6 + s.pn n 7) (w32 w.1 :: w.2) }
  else if s.dueIn n k then sealLocal n w s
  else s

/-! ### Axis records (R61, R62, R164) -/

/-- Words of a slot's record, by number, but for its tags. -/
def State.axsWords (s : State) (n : Nat) : List (Nat × Word) :=
  let a := s.axis n
  let st := match s.imageFor n with | some b => imageState b | none => s.axsState n
  let pair (o i : Nat) : List (Nat × Word) := [(i, s.axWord n o), (i + 1, s.axWord n (o + 4))]
  if (s.stopsOf n).isEmpty then [(1, st)]
  else [(1, st)] ++ pair 0x00 2 ++ pair 0x10 4 ++ pair 0x08 6
    ++ [(8, s.axWord n 0x4C), (9, s.axWord n 0x44), (10, wInt (s.e32 n)), (11, a.seq),
        (12, w32 (a.queue.length + 256 * a.seqSes)), (13, w32 a.drops)]

/-- The record of a due slot at the sealing of period `k`; its drop counter counts first. -/
def axsSlot (k : Nat) (s : State) (n : Nat) : State :=
  if !s.dueIn n k then s
  else
    let s := if (s.axis n).dropped then s.onAxis n fun a => { a with drops := min 0xFFFF (a.drops + 1) } else s
    let s := (s.axsWords n).foldl (fun s e => s.setReg (Reg.axsRec (16 * n + e.1)) e.2) s
    (s.setReg (Reg.axsRec (16 * n)) (w32 k)).setReg (Reg.axsRec (16 * n + 15)) (w32 k)

/-! ### Period records (R400) -/

/-- The 20-byte entry of a slot as sealed. The words of a kind without outputs count as 0 (DEDUCED, log 44). -/
def State.periodEntry (s : State) (k n : Nat) : Bytes :=
  let w := s.sealWord k n
  leBytes 1 n ++ leBytes 1 w.1 ++ ((List.range 4).flatMap fun i => wordBytes (w.2.getD i 0))
    ++ leBytes 2 (s.reg (Reg.axsRec (16 * n + 1))).toNat

/-- The period record of this device, sent and compared. -/
def periodRecord (k : Nat) (s : State) : State :=
  if !s.pairUp || s.pair.partner.isNone then s
  else
    let due (n : Nat) : Bool := s.running && decide (n < s.part.slots ∧ s.axisType n ≠ 0) && s.dueIn n k
    let entry (n : Nat) : Bytes := if due n then s.periodEntry k n else []
    let digest := w32 (crc32 ((List.range s.part.slots).flatMap entry))
    let slots := (List.range 128).map fun n => if due n then BitVec.ofNat 16 (crc32 (entry n)) else 0
    let s := pairSend 1 2 (k :: digest.toNat :: slots.map BitVec.toNat) s
    let got := match s.pair.theirs with | some t => decide (t.1 = w32 k) | none => false
    compareRecords (s.onPair fun p => { p with digest := some (w32 k, digest, slots), received := got })

/-! ### SEALING -/

/-- What ends or begins with a sealing for the pair: the Standby leaves step, the lower side gives up its
role (R389, R404, R414). -/
def pairSeal (s : State) : State :=
  let s := if s.pair.leave then leaveStep s else s
  if !s.pair.clear then s
  else
    let again := s.pair.rejoin
    let s := s.onPair fun p => { p with clear := false, rejoin := false }
    if again then
      let s := if s.running then leaveRun s else s
      beJoiner s.autoResync ((List.range 4).foldl (fun s n => s.setReg (Reg.cmdState n) 0) (closeSessions s))
    else setPhase 5 (setRole false s)

/-- More own drops in a period than the partner may be asked for (R401). -/
def adoptOverflow (s : State) : State :=
  if s.inStep && decide (s.adoptMax < (s.slots.filter fun n => s.adopts n && s.dueIn n s.tmu.period).length) then breakStep s else s

/-- The work of the sealing of period `k`. -/
def sealWork (k : Nat) (s : State) : State :=
  let s := (List.range s.part.engines).foldl sealEngine (ringSeal (pairSeal s))
  let s := if s.running then s.slots.foldl (judgeSlot k) (adoptOverflow s) else s
  let s := (List.range s.part.rings).foldl (fun s p => if (s.port p).words.isEmpty then s else s.onPort p fun x => { x with words := [] }) s
  let s := if s.running then s.slots.foldl (sealSlot k) s else s
  let s := (List.range s.part.slots).foldl (axsSlot k) s
  let s := acqSeal (wearUpdate (periodRecord k s))
  s.slots.foldl (fun s n => s.onAxis n fun a => { a with fresh := false, dropped := false }) s

/-- SEALING (R16, R156, R159): the period that runs is sealed, once. -/
def sealing (s : State) : State :=
  let s := catchUp s
  let s := s.advanceTo (s.tmu.period * s.tBase + s.sealNs)
  (sealWork s.tmu.period s).onTmu fun t => { t with sealed := true }

def execSealing (s : State) : Host.Outcome State Fault Refusal :=
  done (if s.counts && s.up && !s.tmu.sealed then sealing s else s)

end Sys2Proof.Machine
end

