-- ==== Sys2Proof/Machine/HostBus.lean ====
section
/-!
DEFINITION. The host's accesses to the register space: what a register shows, a 32-bit read and write
with their side effects, wider and narrower accesses, the quad-SPI target, and the rows of the registers
that a host writes (R36 to R59, R97, R98).
-/
namespace Sys2Proof.Machine

/-! ### What a register shows -/

/-- `MGT.ID`: version and pair level of the running firmware (R524, R537). -/
def State.mgtId (s : State) : Word :=
  w32 (s.firmware + 65536 * (if s.power.image.isEmpty then Config.romId.toNat / 65536
    else Bytes.num s.power.image 6 2))

/-- Channel of an address in a run of records. -/
def runOf (a base stride : Nat) : Nat := (a - base) / stride
/-- The address is that of one register of a run of `count` records. -/
def inRun (a base stride count : Nat) : Bool :=
  decide (base ≤ a) && decide ((a - base) % stride = 0) && decide (runOf a base stride < count)

/-- `CFG_WIN`: the half of the working image that `WIN_SEL` names, during commissioning (R446). -/
def State.cfgWin (s : State) (a : Nat) : Word :=
  if s.island.st = 3 then
    Bytes.word (imageBytes s.island.working) (1024 * s.field Reg.safeWinSel 0 0 + (a - Reg.safeCfgWin 0))
  else 0

/-- The value a register shows at address `a` in window `win`: most are held as they read, the others are
views of the units' own state. -/
def State.view (s : State) (win inst a : Nat) : Word :=
  match win with
  | 0x00 => if a = Reg.sysIrqStat then s.irqStat else s.reg a
  | 0x01 => (s.pwrView a).getD (s.reg a)
  | 0x02 => (s.cmdView a).getD (s.reg a)
  | 0x03 => (s.ptrView a).getD (s.reg a)
  | 0x04 => if a = Reg.tmuRate then wInt s.rho else s.reg a
  | 0x07 => (s.dmaView a).getD (s.reg a)
  | 0x09 =>
    if a = Reg.leState inst then s.leView inst
    else if a = Reg.leWq inst then w32 (s.eng inst).writeQ.length
    else if a = Reg.leKmem inst then s.kmemView inst
    else s.reg a
  | 0x0B =>
    if inRun a (Reg.pwmChState 0) 0x20 32 then s.pwmState (runOf a (Reg.pwmChState 0) 0x20) else s.reg a
  | 0x0D =>
    if inRun a (Reg.stpChCount 0) 0x10 16 then s.stpCount (runOf a (Reg.stpChCount 0) 0x10)
    else if inRun a (Reg.stpChLevel 0) 0x10 16 then s.stpLevel (runOf a (Reg.stpChLevel 0) 0x10)
    else s.reg a
  | 0x0E =>
    if a = Reg.latLevel then s.latLevel
    else if inRun a (Reg.latChFill 0) 0x10 32 then (s.latch (runOf a (Reg.latChFill 0) 0x10)).fill
    else s.reg a
  | 0x0F =>
    if inRun a (Reg.emuChCount 0) 0x20 8 then s.emuCount (runOf a (Reg.emuChCount 0) 0x20) else s.reg a
  | 0x13 => if Reg.safeCfgWin 0 ≤ a then s.cfgWin a else s.reg a
  | 0x16 => if a = Reg.mgtId then s.mgtId else (s.mgtView a).getD (s.reg a)
  | _ => s.reg a

/-- Registers whose value is not yet valid before the first stage ends (R87): their reads are free. -/
def notYetValid (a : Nat) : Bool := a = Reg.sysCapLive || a = Reg.sysCapLiveX || a = Reg.pwrBist

/-- A read of `PWR.CLK` while the PLLs lock (R72): each of them may have locked, and stays locked. The
instants are not fixed: free (log 38). -/
def pllRead (s : State) : Word × State :=
  let d := s.draw
  let s := d.2.onPower fun p => { p with locks := p.locks ||| BitVec.ofNat 3 (Config.num d.1) }
  (s.view 0x01 0 Reg.pwrClk, s)

/-! ### Reads (R46, R50, R51, R57) -/

/-- A read of a register that answers: its value and the state after its side effects. -/
def readReg (p : Place) (r : RegDef) (s : State) : Word × State :=
  let a := p.addr
  match r.acc with
  | .wo => (0, s)
  | .rc => (s.view p.win p.inst a, s.lower a (w32 r.rcmask))
  | .pairLo => (s.view p.win p.inst a,
      s.onBus fun b => { b with rhold := Map.set (fun _ => 0) b.rhold a (s.reg (a + 4)) })
  | .pairHi => (Map.get (fun _ => 0) s.bus.rhold (a - 4), s)
  | .peek o => (s.reg (a - p.off + o), s)
  | .peekBack n => (s.reg (a - n), s)
  | _ =>
    if a = Reg.tmuNowNs then nowNs s
    else if a = Reg.pwrClk && s.power.phase == .secondStage then pllRead s
    else if notYetValid a && s.power.phase == .firstStage then
      let d := s.draw
      (Config.word d.1, d.2)
    else (s.view p.win p.inst a, s)

/-- The MSI-X table and pending-bit array (R37, R38). -/
def State.msixRead (s : State) (a : Nat) : Word :=
  if s.qspi then 0
  else if 0x3E0000 ≤ a ∧ a < 0x3E0400 then s.msixWord (a - 0x3E0000)
  else if a = 0x3E1000 then w32 s.bus.msixPba.toNat
  else if a = 0x3E1004 then w32 (s.bus.msixPba.toNat / 2 ^ 32)
  else 0

/-- A 32-bit read of BAR0: what is absent, off, reserved or unaligned reads 0 without effect (R57). -/
def hostRead32 (a : Nat) (s : State) : Word × State :=
  if !s.serves || decide (a % 4 ≠ 0) then (0, s)
  else if 0x400000 ≤ a then
    (if a < 0x800000 then leHostRead ((a - 0x400000) / 0x40000) ((a - 0x400000) % 0x40000) s else 0, s)
  else
    match decodeAddr a with
    | none => (s.msixRead a, s)
    | some p =>
      match p.reg with
      | some r => if s.answers p.win p.inst then readReg p r s else (0, s)
      | none => (0, s)

/-- Words read in ascending order from `a`, each an access of its own. -/
def hostReadWords : Nat → Nat → State → List Word × State
  | 0, _, s => ([], s)
  | n + 1, a, s =>
    let r := hostRead32 a s
    let t := hostReadWords n (a + 4) (settle r.2)
    (r.1 :: t.1, t.2)

/-- Bytes for the host. -/
def giveHost (p : Bytes) (s : State) : State := s.onBus fun b => { b with rdata := p }

/-- A read of `n` bytes within one word (R45, R46): an aligned one returns the addressed lanes and has the
side effects of the whole register. DESIGN CHOICE (log 53): any other part of a word (3 bytes, or 2 across a half)
reads 0 without effect, also in a long or odd-sized read. -/
def hostReadPart (a n : Nat) (s : State) : Bytes × State :=
  if n ∈ [1, 2, 4] ∧ a % n = 0 then
    let r := hostRead32 (a - a % 4) s
    (((wordBytes r.1).drop (a % 4)).take n, settle r.2)
  else (zeros n, s)

/-- A long read: each word that it touches is judged on its own (R49); `k` bounds their number. -/
def hostReadParts (a n : Nat) (s : State) : Nat → Bytes × State
  | 0 => ([], s)
  | k + 1 =>
    if n = 0 then ([], s)
    else
      let m := min n (4 - a % 4)
      let r := hostReadPart a m s
      let t := hostReadParts (a + m) (n - m) r.2 k
      (r.1 ++ t.1, t.2)

/-- A read of `size` bytes (R45, R46, R48, R49): aligned, it returns the addressed lanes of the words it
touches; an unaligned one of 2, 4 or 8 bytes returns 0, and any other size is read word by word. -/
def hostRead (addr size : Nat) (s : State) : State :=
  if size ∈ [1, 2, 4, 8] then
    if addr % size = 0 then
      let r := hostReadWords (if size = 8 then 2 else 1) (addr - addr % 4) s
      giveHost (((r.1.flatMap wordBytes).drop (addr % 4)).take size) r.2
    else giveHost (zeros size) s
  else
    let r := hostReadParts addr size s (size / 4 + 2)
    giveHost r.1 r.2

/-! ### Writes (R47, R50, R53 to R55, R57) -/

/-- A write of an `RW` register: bits outside the fields that can be written keep their value. -/
def plainWrite (a : Nat) (r : RegDef) (v : Word) (s : State) : State :=
  s.setReg a ((s.reg a &&& ~~~ w32 r.wmask) ||| (v &&& w32 r.wmask))

/-- A write of `SYS.IRQ_EOI` (R65): the source's arm is set; its message follows if it is still due. -/
def irqEoi (v : Word) (s : State) : State := if bits v 4 0 < 28 then s.arm (bits v 4 0) true else s

/-- A write of `SYS.SWI` (R63). -/
def swi (v : Word) (s : State) : State := if bit v 0 then s.event Reg.sysStat 3 else s

/-- A write to a word of a CAN transmit entry: ignored while the controller owns the entry (R481);
`CTL` has bits [6:0] alone (R488). -/
def canTxeWrite (c a : Nat) (r : RegDef) (v : Word) (s : State) : State :=
  let e := runOf a (Reg.canTxe c 0) 0x50
  if bit (s.reg (Reg.canTxReq c)) e then s
  else plainWrite a r (if a = Reg.canTxe c (20 * e) + 4 then v &&& 0x7F else v) s

/-- A host write of a DMA channel's `CFG`, `CTRL` or `HEAD`: that of a firmware channel is ignored and
reported (R490). -/
def dmaHost (ch : Nat) (f : State → State) (s : State) : State := if firmwareCh ch then chStat ch 5 s else f s

/-- A write of `STP.CH[n].CFG`: `EN` stays set while a slot's output record names the channel (R351). -/
def stpCfg (n a : Nat) (r : RegDef) (v : Word) (s : State) : State :=
  let s := plainWrite a r v s
  if s.stpOwned n then s.raise a 1#32 else s

/-- A write of a register that is neither guarded nor a latched pair, with its side effects. -/
def writeReg (p : Place) (r : RegDef) (v : Word) (s : State) : State :=
  let a := p.addr
  let n := p.inst
  match p.win with
  | 0x00 => if a = Reg.sysIrqEoi then irqEoi v s else if a = Reg.sysSwi then swi v s else plainWrite a r v s
  | 0x02 =>
    if a = Reg.cmdSqTail n then sqTail n v s
    else if a = Reg.cmdCqHead n then cqHead n v s
    else if a = Reg.cmdCfg n ∧ s.forwards then s
    else plainWrite a r v s
  | 0x04 =>
    if a = Reg.tmuGuard then guardWrite v s
    else if a = Reg.tmuRateTrim then rateTrimWrite v s
    else if a = Reg.tmuAlarmNs then alarmNsWrite v s
    else plainWrite a r v s
  | 0x06 =>
    if a = Reg.canCfg n then canCfg n v s
    else if a = Reg.canCtrl n then canCtrl n v s
    else if a = Reg.canRxRet n then canRxRet n v s
    else if a = Reg.canTxReq n then canTxReq n v s
    else if a = Reg.canTxAbort n then canTxAbort n v s
    else if Reg.canTxe n 0 ≤ a then canTxeWrite n a r v s
    else plainWrite a r v s
  | 0x07 =>
    if 0x70100 ≤ a ∧ a < 0x70500 then
      let ch := runOf a 0x70100 0x20
      if a = Reg.dmaChCtrl ch then dmaCtrl ch v s else dmaHost ch (plainWrite a r v) s
    else plainWrite a r v s
  | 0x0B =>
    if a = Reg.pwmArm then pwmArm v s
    else if a = Reg.pwmTripCfg then tripCfg v s
    else if a = Reg.pwmTripClr then tripClr v s
    else if Reg.pwmChCfg 0 ≤ a then
      let ch := runOf a (Reg.pwmChCfg 0) 0x20
      if a = Reg.pwmChCfg ch then pwmCfg ch v s else pwmShadow ch ((a - Reg.pwmChPer ch) / 4) v s
    else plainWrite a r v s
  | 0x0C =>
    if inRun a (Reg.fbkChCfg 0) 0x40 16 then fbkCfg (runOf a (Reg.fbkChCfg 0) 0x40) v s
    else if inRun a (Reg.fbkMtCfg 0) 0x10 8 then mtCfg (runOf a (Reg.fbkMtCfg 0) 0x10) (plainWrite a r v s)
    else if inRun a (Reg.fbkMtCtrl 0) 0x10 8 then mtCtrl (runOf a (Reg.fbkMtCtrl 0) 0x10) v s
    else plainWrite a r v s
  | 0x0D =>
    if inRun a (Reg.stpChCfg 0) 0x10 16 then stpCfg (runOf a (Reg.stpChCfg 0) 0x10) a r v s else plainWrite a r v s
  | 0x0F => if a = Reg.emuArm then emuArm v s else plainWrite a r v s
  | 0x14 => if a = Reg.fioOutCmd then fioOutCmd v s else plainWrite a r v s
  | 0x15 =>
    if a = Reg.acqRd then acqRdWrite v s else if a = Reg.acqCtrl then acqCtrl v s else plainWrite a r v s
  | _ => plainWrite a r v s

/-- The effect of a completed guarded write (R53). -/
def guardedReg (p : Place) (v : Word) (s : State) : State :=
  match p.win with
  | 0x01 => if p.addr = Reg.pwrReq then pwrReq v s else if p.addr = Reg.pwrRst then pwrRst v s else s
  | 0x02 => if p.addr = Reg.cmdCtrl p.inst then cmdCtrl p.inst v s else s
  | 0x04 => if p.addr = Reg.tmuCtrl then tmuCtrl v s else s
  | 0x10 => if p.addr = Reg.vlkCtrl p.inst then vlkCtrl p.inst v s else s
  | 0x11 => if p.addr = Reg.pairCtrl then pairCtrl v false s else s
  | 0x14 => if p.addr = Reg.fioRearm then fioRearm v s else s
  | _ => s

/-- A write of a word of a latched pair: refused to a firmware DMA channel (R490) and to the Standby's
ring bases (R396). -/
def pairWrite (p : Place) (f : State → State) (s : State) : State :=
  match p.win with
  | 0x02 => if s.forwards then s else f s
  | 0x07 => dmaHost (runOf p.addr 0x70100 0x20) f s
  | _ => f s

/-- A write of the low word: it goes to the write hold of the pair (R50). -/
def loWrite (a : Nat) (v : Word) (s : State) : State :=
  s.onBus fun b => { b with whold := Map.set (fun _ => 0) b.whold a v }

/-- A write of the high word: the write hold and the word are written together (R50). -/
def hiWrite (a : Nat) (v : Word) (s : State) : State :=
  s.setReg64 (a - 4) a (v.toNat * 2 ^ 32 + (Map.get (fun _ => 0) s.bus.whold (a - 4)).toNat)

/-- A write of a register that answers. -/
def registerEffect (p : Place) (r : RegDef) (v : Word) (s : State) : State :=
  match r.acc with
  | .rw => writeReg p r v s
  | .wo => writeReg p r v s
  | .pairLo => pairWrite p (loWrite p.addr v) s
  | .pairHi => pairWrite p (hiWrite p.addr v) s
  | .gw => s.onBus fun b =>
      { b with guard := Map.set (fun _ => none) b.guard p.win (some { inst := p.inst, off := p.off, val := v }) }
  | _ => s

/-- Bytes written to the MSI-X table (R38); the pending-bit array is read-only. -/
def msixWrite (a : Nat) (p : Bytes) (s : State) : State :=
  (p.zip (List.range p.length)).foldl (fun s e =>
    let o := a + e.2
    if !s.qspi && decide (0x3E0000 ≤ o ∧ o < 0x3E0400) then
      s.onBus fun b => { b with msixTable := Map.set msixDefault b.msixTable (o - 0x3E0000) e.1 }
    else s) s

/-- A 32-bit write to a register window at an aligned place: the hold of the window goes first (R54),
and completes if this write is its complement (R53, R55). -/
def windowWrite (p : Place) (v : Word) (s : State) : State :=
  let hold := Map.get (fun _ => none) s.bus.guard p.win
  let s := writeReaches p.win s
  if !s.answers p.win p.inst then s
  else if p.compl then
    if hold = some { inst := p.inst, off := p.off, val := ~~~ v } then guardedReg p (~~~ v) s else s
  else
    match p.reg with
    | some r => registerEffect p r v s
    | none => s

/-- A write that is ignored for its width, alignment or byte enables discards the hold of a register
window (R47, R54, R57). -/
def ignoredWrite (a : Nat) (s : State) : State :=
  match blockOf (a / 0x10000) with
  | some _ => writeReaches (a / 0x10000) s
  | none => s

/-- A 32-bit write to BAR0. -/
def hostWrite32 (a : Nat) (v : Word) (s : State) : State :=
  if !s.serves then s
  else if decide (a % 4 ≠ 0) then ignoredWrite a s
  else if 0x400000 ≤ a then
    if a < 0x800000 then leHostWrite ((a - 0x400000) / 0x40000) ((a - 0x400000) % 0x40000) v s else s
  else
    match decodeAddr a with
    | none => msixWrite a (wordBytes v) s
    | some p => windowWrite p v s

/-- Consecutive words (R49), each an access of its own. -/
def hostWriteWords : List Word → Nat → State → State
  | [], _, s => s
  | v :: r, a, s => hostWriteWords r (a + 4) (settle (hostWrite32 a v s))

/-- The address lies in the MSI-X table or its pending-bit array. -/
def inMsix (a : Nat) : Bool := decide (0x3E0000 ≤ a ∧ a < 0x3E0400) || decide (0x3E1000 ≤ a ∧ a < 0x3E1008)

/-- A request that is not one aligned access, word by word; a word that it covers in part is a narrow write
(R47, R49). -/
def longWrite (addr : Nat) (p : Bytes) (s : State) : State :=
  let head := (4 - addr % 4) % 4
  let s := if head = 0 then s else ignoredWrite addr s
  let body := p.drop head
  let a := addr + head
  let s := hostWriteWords (bytesWords body) a s
  if body.length % 4 = 0 then s else ignoredWrite (a + body.length / 4 * 4) s

/-- A host write of bytes to BAR0 (R45, R47 to R49). -/
def hostWrite (addr : Nat) (p : Bytes) (s : State) : State :=
  if !s.serves then s
  else if inMsix addr then msixWrite addr p s
  else if p.length = 4 ∧ addr % 4 = 0 ∨ p.length = 8 ∧ addr % 8 = 0 then hostWriteWords (bytesWords p) addr s
  else if p.length ≤ 4 ∨ p.length = 8 then ignoredWrite addr s
  else longWrite addr p s

/-! ### The quad-SPI target (R97, R98, R555) -/

/-- One word written through quad-SPI. -/
def qspiWord (a : Nat) (v : Word) (s : State) : State :=
  if a < 0x800000 then hostWrite32 a v s
  else if 0x1000000 ≤ a ∧ a < 0x1C00000 ∧ a % 4 = 0 then hostSramWrite s (a - 0x1000000) (wordBytes v)
  else s

/-- One word read through quad-SPI. -/
def qspiGet (a : Nat) (s : State) : Word × State :=
  if a < 0x800000 then hostRead32 a s
  else if 0x1000000 ≤ a ∧ a < 0x1C00000 ∧ a % 4 = 0 then
    let r := hostSramRead s (a - 0x1000000) 4
    (Bytes.word r.1 0, r.2)
  else (0, s)

/-- Words written in order; the last one is a narrow write where the chip select cut it (R98). -/
def qspiWords : List Word → Bool → Nat → State → State
  | [], _, _, s => s
  | [v], cut, a, s => if cut then (if a < 0x800000 then ignoredWrite a s else s) else qspiWord a v s
  | v :: r, cut, a, s => qspiWords r cut (a + 4) (settle (qspiWord a v s))

/-- Words read in order, each with its side effects (R98). -/
def qspiGets : Nat → Nat → State → List Word × State
  | 0, _, s => ([], s)
  | n + 1, a, s =>
    let r := qspiGet a s
    let t := qspiGets n (a + 4) (settle r.2)
    (r.1 :: t.1, t.2)

/-- A quad-SPI read while a reset is held returns undefined data (R87): free words. -/
def freeWords : Nat → State → List Word × State
  | 0, s => ([], s)
  | n + 1, s =>
    let d := s.draw
    let t := freeWords n d.2
    (Config.word d.1 :: t.1, t.2)

/-- What a quad-SPI read of `count` words answers. -/
def qspiAnswer (count : Nat) (f : State → List Word × State) (s : State) : State :=
  if !s.qspi then s
  else
    let r := if s.serves then f s else if s.power.phase == .held then freeWords count s else ([], s)
    giveHost (r.1.flatMap wordBytes) r.2

/-- A quad-SPI transaction by its instruction byte (R97): words written, of which those beyond the 256th are
ignored, words read, or `SYS.ID` as one word. Any other byte is ignored until the chip select rises. -/
def qspiTransaction (instr addr : Nat) (words : List Word) (cut : Bool) (count : Nat) (s : State) : State :=
  match instr with
  | 0xA1 =>
    if s.qspi && s.serves then qspiWords (words.take 256) (cut && decide (words.length ≤ 256)) addr s else s
  | 0xA2 => qspiAnswer count (qspiGets count addr) s
  | 0xA5 => qspiAnswer 1 (hostReadWords 1 Reg.sysId) s
  | _ => s

/-- QSPI_WRITE (R97, R98). -/
def execQspiWrite (addr : Nat) (words : List Word) (cut : Bool) (s : State) : Host.Outcome State Fault Refusal :=
  done (qspiTransaction 0xA1 addr words cut 0 s)

/-- QSPI_READ (R97, R98). -/
def execQspiRead (addr count : Nat) (s : State) : Host.Outcome State Fault Refusal :=
  done (qspiTransaction 0xA2 addr [] false count s)

/-- QSPI_PING (R97). -/
def execQspiPing (s : State) : Host.Outcome State Fault Refusal :=
  done (qspiTransaction 0xA5 0 [] false 0 s)

/-! ### Rows of the register interface -/

/-- REGISTER_WRITE (R58). -/
def execRegisterWrite (addr : Nat) (data : Bytes) (s : State) : Host.Outcome State Fault Refusal :=
  done (hostWrite addr data s)

/-- READ_CLEAR_READ (R46, R51). -/
def execReadClearRead (addr size : Nat) (s : State) : Host.Outcome State Fault Refusal :=
  done (hostRead addr size s)

/-- LATCHED_LO_READ (R50). -/
def execLatchedLoRead (addr : Nat) (s : State) : Host.Outcome State Fault Refusal := done (hostRead addr 4 s)

/-- LATCHED_HI_READ (R50). -/
def execLatchedHiRead (addr : Nat) (s : State) : Host.Outcome State Fault Refusal := done (hostRead addr 4 s)

/-- LATCHED_LO_WRITE (R50). -/
def execLatchedLoWrite (addr : Nat) (v : Word) (s : State) : Host.Outcome State Fault Refusal :=
  done (hostWrite32 addr v s)

/-- LATCHED_HI_WRITE (R50). -/
def execLatchedHiWrite (addr : Nat) (v : Word) (s : State) : Host.Outcome State Fault Refusal :=
  done (hostWrite32 addr v s)

/-- GUARDED_VALUE_WRITE (R53). -/
def execGuardedValueWrite (addr : Nat) (v : Word) (s : State) : Host.Outcome State Fault Refusal :=
  done (hostWrite32 addr v s)

/-- GUARDED_COMPLEMENT_FAULT (R55): a write to the complement region. -/
def execGuardedComplementFault (addr : Nat) (v : Word) (s : State) : Host.Outcome State Fault Refusal :=
  done (hostWrite32 addr v s)

/-- NOW_NS_READ (R461). -/
def execNowNsRead (s : State) : Host.Outcome State Fault Refusal := done (hostRead Reg.tmuNowNs 4 s)

/-- SWI_SET (R63). -/
def execSwiSet (v : Word) (s : State) : Host.Outcome State Fault Refusal := done (hostWrite32 Reg.sysSwi v s)

/-- IRQ_EOI (R65). -/
def execIrqEoi (v : Word) (s : State) : Host.Outcome State Fault Refusal := done (hostWrite32 Reg.sysIrqEoi v s)

/-! ### Rows of the units' registers -/

/-- REARM (R448): the guarded write of `FIO.REARM` with `GO` completes. -/
def execRearm (s : State) : Host.Outcome State Fault Refusal := done (guardedPair 0x14 0 (fioRearm 1#32) s)

/-- OUT_CMD (R452). -/
def execOutCmd (v : Word) (s : State) : Host.Outcome State Fault Refusal := done (hostWrite32 Reg.fioOutCmd v s)

/-- PTP_EN (R464): the guarded write of `TMU.CTRL` completes. -/
def execPtpEn (on : Bool) (s : State) : Host.Outcome State Fault Refusal :=
  done (guardedPair 0x04 0 (tmuCtrl (w32 (b2n on))) s)

/-- RESTEP (R464, R486): a completing write of `TMU.CTRL` with `RESTEP`, `PTP_EN` as it stands. -/
def execRestep (s : State) : Host.Outcome State Fault Refusal :=
  done (guardedPair 0x04 0 (fun s => tmuCtrl (w32 (b2n s.ptpEnabled + 2)) s) s)

/-- TX_REQ (R481). -/
def execTxReq (c : Nat) (v : Word) (s : State) : Host.Outcome State Fault Refusal :=
  done (if c < 4 then hostWrite32 (Reg.canTxReq c) v s else s)

/-- TX_ABORT (R481). -/
def execTxAbort (c : Nat) (v : Word) (s : State) : Host.Outcome State Fault Refusal :=
  done (if c < 4 then hostWrite32 (Reg.canTxAbort c) v s else s)

/-- RX_RET (R480). -/
def execRxRet (c : Nat) (v : Word) (s : State) : Host.Outcome State Fault Refusal :=
  done (if c < 4 then hostWrite32 (Reg.canRxRet c) v s else s)

/-- RECOVER (R482). -/
def execRecover (c : Nat) (s : State) : Host.Outcome State Fault Refusal :=
  done (if c < 4 then hostWrite32 (Reg.canCtrl c) 1#32 s else s)

/-- DETECT (R484). -/
def execDetect (c : Nat) (s : State) : Host.Outcome State Fault Refusal :=
  done (if c < 4 then hostWrite32 (Reg.canCtrl c) 2#32 s else s)

/-- DMA_START (R498). -/
def execDmaStart (ch : Nat) (s : State) : Host.Outcome State Fault Refusal :=
  done (if ch < 32 then hostWrite32 (Reg.dmaChCtrl ch) 1#32 s else s)

/-- DMA_STOP (R499). -/
def execDmaStop (ch : Nat) (s : State) : Host.Outcome State Fault Refusal :=
  done (if ch < 32 then hostWrite32 (Reg.dmaChCtrl ch) 2#32 s else s)

/-- KICK (R493). -/
def execKick (ch : Nat) (s : State) : Host.Outcome State Fault Refusal :=
  done (if ch < 32 then hostWrite32 (Reg.dmaChCtrl ch) 4#32 s else s)

/-- ACQ_RD (R513). -/
def execAcqRd (v : Word) (s : State) : Host.Outcome State Fault Refusal := done (hostWrite32 Reg.acqRd v s)

/-- TRIG_SW (R511). -/
def execTrigSw (s : State) : Host.Outcome State Fault Refusal := done (hostWrite32 Reg.acqCtrl 1#32 s)

/-- PWM_SHADOW_WRITE (R340): 0 `PER`, 1 `CMP`, 2 `DTR`, 3 `DTF` of a channel. -/
def execPwmShadowWrite (ch reg : Nat) (v : Word) (s : State) : Host.Outcome State Fault Refusal :=
  done (if ch < 32 ∧ reg < 4 then hostWrite32 (Reg.pwmChPer ch + 4 * reg) v s else s)

/-- PWM_ARM (R339). -/
def execPwmArm (v : Word) (s : State) : Host.Outcome State Fault Refusal := done (hostWrite32 Reg.pwmArm v s)

/-- TRIP_CLR (R347). -/
def execTripClr (v : Word) (s : State) : Host.Outcome State Fault Refusal := done (hostWrite32 Reg.pwmTripClr v s)

/-- EMU_ARM (R249). -/
def execEmuArm (v : Word) (s : State) : Host.Outcome State Fault Refusal := done (hostWrite32 Reg.emuArm v s)

/-- FBK_CFG_WRITE (R252). -/
def execFbkCfgWrite (ch : Nat) (v : Word) (s : State) : Host.Outcome State Fault Refusal :=
  done (if ch < 16 then hostWrite32 (Reg.fbkChCfg ch) v s else s)

/-- MT_CLR (R252). -/
def execMtClr (ch : Nat) (s : State) : Host.Outcome State Fault Refusal :=
  done (if ch < 8 then hostWrite32 (Reg.fbkMtCtrl ch) 1#32 s else s)

/-- MT_ZERO (R242). -/
def execMtZero (ch : Nat) (s : State) : Host.Outcome State Fault Refusal :=
  done (if ch < 8 then hostWrite32 (Reg.fbkMtCtrl ch) 2#32 s else s)

end Sys2Proof.Machine
end

