-- ==== Sys2Proof/Machine/Dispatch.lean ====
section
/-!
DEFINITION. One arm per command: its meaning, or its name where it has none yet.
-/
namespace Sys2Proof.Machine

def exec (i : Instr) (s : State) : Host.Outcome State Fault Refusal :=
  match i with
  | .nop h p => Sys2Proof.Machine.execNop h p s
  | .echo h p => Sys2Proof.Machine.execEcho h p s
  | .sessionInfo h p => Sys2Proof.Machine.execSessionInfo h p s
  | .devInfo h p => Sys2Proof.Machine.execDevInfo h p s
  | .runStart h p => Sys2Proof.Machine.execRunStart h p s
  | .runStop h p => Sys2Proof.Machine.execRunStop h p s
  | .setPeriod h p => Sys2Proof.Machine.execSetPeriod h p s
  | .devStatus h p => Sys2Proof.Machine.execDevStatus h p s
  | .getParams h p => Sys2Proof.Machine.execGetParams h p s
  | .setParams h p => Sys2Proof.Machine.execSetParams h p s
  | .defaultParams h p => Sys2Proof.Machine.execDefaultParams h p s
  | .enable h p => Sys2Proof.Machine.execEnable h p s
  | .disable h p => Sys2Proof.Machine.execDisable h p s
  | .clearFault h p => Sys2Proof.Machine.execClearFault h p s
  | .axisStatus h p => Sys2Proof.Machine.execAxisStatus h p s
  | .moveAbs h p => Sys2Proof.Machine.execMoveAbs h p s
  | .moveRel h p => Sys2Proof.Machine.execMoveRel h p s
  | .moveVel h p => Sys2Proof.Machine.execMoveVel h p s
  | .stream h p => Sys2Proof.Machine.execStream h p s
  | .halt h p => Sys2Proof.Machine.execHalt h p s
  | .quickStop h p => Sys2Proof.Machine.execQuickStop h p s
  | .groupDefine h p => Sys2Proof.Machine.execGroupDefine h p s
  | .pathSegment h p => Sys2Proof.Machine.execPathSegment h p s
  | .flushQueue h p => Sys2Proof.Machine.execFlushQueue h p s
  | .dovetailLink h p => Sys2Proof.Machine.execDovetailLink h p s
  | .dovetailRatio h p => Sys2Proof.Machine.execDovetailRatio h p s
  | .dovetailUnlink h p => Sys2Proof.Machine.execDovetailUnlink h p s
  | .camLoad h p => Sys2Proof.Machine.execCamLoad h p s
  | .camEngage h p => Sys2Proof.Machine.execCamEngage h p s
  | .camDisengage h p => Sys2Proof.Machine.execCamDisengage h p s
  | .vmasterSet h p => Sys2Proof.Machine.execVmasterSet h p s
  | .shaftConfig h p => Sys2Proof.Machine.execShaftConfig h p s
  | .homeStart h p => Sys2Proof.Machine.execHomeStart h p s
  | .homeSet h p => Sys2Proof.Machine.execHomeSet h p s
  | .homeAbort h p => Sys2Proof.Machine.execHomeAbort h p s
  | .latchArm h p => Sys2Proof.Machine.execLatchArm h p s
  | .latchDisarm h p => Sys2Proof.Machine.execLatchDisarm h p s
  | .latchRead h p => Sys2Proof.Machine.execLatchRead h p s
  | .registerCfg h p => Sys2Proof.Machine.execRegisterCfg h p s
  | .ttWrite h p => Sys2Proof.Machine.execTtWrite h p s
  | .ttClear h p => Sys2Proof.Machine.execTtClear h p s
  | .buildTimetable h p => Sys2Proof.Machine.execBuildTimetable h p s
  | .ttRead h p => Sys2Proof.Machine.execTtRead h p s
  | .kernelLoad h p => Sys2Proof.Machine.execKernelLoad h p s
  | .kernelCheck h p => Sys2Proof.Machine.execKernelCheck h p s
  | .kernelList h p => Sys2Proof.Machine.execKernelList h p s
  | .acqConfig h p => Sys2Proof.Machine.execAcqConfig h p s
  | .acqStart h p => Sys2Proof.Machine.execAcqStart h p s
  | .acqStop h p => Sys2Proof.Machine.execAcqStop h p s
  | .acqMark h p => Sys2Proof.Machine.execAcqMark h p s
  | .fioSet h p => Sys2Proof.Machine.execFioSet h p s
  | .fioGet h p => Sys2Proof.Machine.execFioGet h p s
  | .fioConfig h p => Sys2Proof.Machine.execFioConfig h p s
  | .timeGet h p => Sys2Proof.Machine.execTimeGet h p s
  | .timeAlarm h p => Sys2Proof.Machine.execTimeAlarm h p s
  | .timeRestep h p => Sys2Proof.Machine.execTimeRestep h p s
  | .timeConfig h p => Sys2Proof.Machine.execTimeConfig h p s
  | .pairStatus h p => Sys2Proof.Machine.execPairStatus h p s
  | .pairHandover h p => Sys2Proof.Machine.execPairHandover h p s
  | .pairRelease h p => Sys2Proof.Machine.execPairRelease h p s
  | .pairResync h p => Sys2Proof.Machine.execPairResync h p s
  | .safeOpen h p => Sys2Proof.Machine.execSafeOpen h p s
  | .safeWrite h p => Sys2Proof.Machine.execSafeWrite h p s
  | .safeRead h p => Sys2Proof.Machine.execSafeRead h p s
  | .safeCommit h p => Sys2Proof.Machine.execSafeCommit h p s
  | .safeClose h p => Sys2Proof.Machine.execSafeClose h p s
  | .updateBegin h p => Sys2Proof.Machine.execUpdateBegin h p s
  | .updateData h p => Sys2Proof.Machine.execUpdateData h p s
  | .updateCommit h p => Sys2Proof.Machine.execUpdateCommit h p s
  | .updateActivate h p => Sys2Proof.Machine.execUpdateActivate h p s
  | .ledgerRead h p => Sys2Proof.Machine.execLedgerRead h p s
  | .healthRead h p => Sys2Proof.Machine.execHealthRead h p s
  | .npRead h p => Sys2Proof.Machine.execNpRead h p s
  | .npBind h p => Sys2Proof.Machine.execNpBind h p s
  | .wearRead h p => Sys2Proof.Machine.execWearRead h p s
  | .wearReplace h p => Sys2Proof.Machine.execWearReplace h p s
  | .qspiWrite addr words cut => Sys2Proof.Machine.execQspiWrite addr words cut s
  | .qspiRead addr count => Sys2Proof.Machine.execQspiRead addr count s
  | .qspiPing => Sys2Proof.Machine.execQspiPing s
  | .registerWrite addr data => Sys2Proof.Machine.execRegisterWrite addr data s
  | .readClearRead addr size => Sys2Proof.Machine.execReadClearRead addr size s
  | .latchedLoRead addr => Sys2Proof.Machine.execLatchedLoRead addr s
  | .latchedHiRead addr => Sys2Proof.Machine.execLatchedHiRead addr s
  | .latchedLoWrite addr val => Sys2Proof.Machine.execLatchedLoWrite addr val s
  | .latchedHiWrite addr val => Sys2Proof.Machine.execLatchedHiWrite addr val s
  | .guardedValueWrite addr val => Sys2Proof.Machine.execGuardedValueWrite addr val s
  | .guardedComplementFault addr val => Sys2Proof.Machine.execGuardedComplementFault addr val s
  | .nowNsRead => Sys2Proof.Machine.execNowNsRead s
  | .swiSet val => Sys2Proof.Machine.execSwiSet val s
  | .irqEoi val => Sys2Proof.Machine.execIrqEoi val s
  | .pwrReqReady => Sys2Proof.Machine.execPwrReqReady s
  | .pwrReqStandby => Sys2Proof.Machine.execPwrReqStandby s
  | .softwareReset => Sys2Proof.Machine.execSoftwareReset s
  | .cmdOpen ses verMin verMax => Sys2Proof.Machine.execCmdOpen ses verMin verMax s
  | .cmdClose ses => Sys2Proof.Machine.execCmdClose ses s
  | .cmdResume ses => Sys2Proof.Machine.execCmdResume ses s
  | .sessionClosed ses => Sys2Proof.Machine.execSessionClosed ses s
  | .sqTail ses val => Sys2Proof.Machine.execSqTail ses val s
  | .cqHead ses val => Sys2Proof.Machine.execCqHead ses val s
  | .packetFetch ses slot => Sys2Proof.Machine.execPacketFetch ses slot s
  | .hostBusError ses fetch => Sys2Proof.Machine.execHostBusError ses fetch s
  | .porterTick => Sys2Proof.Machine.execPorterTick s
  | .taskDispatch core => Sys2Proof.Machine.execTaskDispatch core s
  | .taskFinish core => Sys2Proof.Machine.execTaskFinish core s
  | .coreStall core => Sys2Proof.Machine.execCoreStall core s
  | .dependencyTimeout ses seq => Sys2Proof.Machine.execDependencyTimeout ses seq s
  | .retirement ses => Sys2Proof.Machine.execRetirement ses s
  | .replyWrite ses => Sys2Proof.Machine.execReplyWrite ses s
  | .cqCoalTimeout ses => Sys2Proof.Machine.execCqCoalTimeout ses s
  | .pcieLinkDown => Sys2Proof.Machine.execPcieLinkDown s
  | .pcieLinkUp => Sys2Proof.Machine.execPcieLinkUp s
  | .powerOnReset straps => Sys2Proof.Machine.execPowerOnReset straps s
  | .mainSupplyLoss rails => Sys2Proof.Machine.execMainSupplyLoss rails s
  | .mainSupplyRestored straps => Sys2Proof.Machine.execMainSupplyRestored straps s
  | .pinReset straps => Sys2Proof.Machine.execPinReset straps s
  | .runSupplyReset rails => Sys2Proof.Machine.execRunSupplyReset rails s
  | .vbakLost => Sys2Proof.Machine.execVbakLost s
  | .referenceStopped => Sys2Proof.Machine.execReferenceStopped s
  | .referenceOutOfWindow => Sys2Proof.Machine.execReferenceOutOfWindow s
  | .referenceRecovered => Sys2Proof.Machine.execReferenceRecovered s
  | .pllLossOfLock pll => Sys2Proof.Machine.execPllLossOfLock pll s
  | .pcieClockLoss => Sys2Proof.Machine.execPcieClockLoss s
  | .kaXtalFail => Sys2Proof.Machine.execKaXtalFail s
  | .firstStageDone failed flashOk => Sys2Proof.Machine.execFirstStageDone failed flashOk s
  | .hostLoadTimeout => Sys2Proof.Machine.execHostLoadTimeout s
  | .secondStageDone failed => Sys2Proof.Machine.execSecondStageDone failed s
  | .standbyPowerDown expired => Sys2Proof.Machine.execStandbyPowerDown expired s
  | .fieldWakeEdge input rising => Sys2Proof.Machine.execFieldWakeEdge input rising s
  | .canWakePattern ctl => Sys2Proof.Machine.execCanWakePattern ctl s
  | .timeAlarmFire => Sys2Proof.Machine.execTimeAlarmFire s
  | .periodBoundary => Sys2Proof.Machine.execPeriodBoundary s
  | .homingChatterAbort slot => Sys2Proof.Machine.execHomingChatterAbort slot s
  | .homingNotFound slot => Sys2Proof.Machine.execHomingNotFound slot s
  | .hardStopFound slot => Sys2Proof.Machine.execHardStopFound slot s
  | .shaftChannelLost chan => Sys2Proof.Machine.execShaftChannelLost chan s
  | .sampleTime => Sys2Proof.Machine.execSampleTime s
  | .serialEncoderDone ch data nErr nWarn crc answer delay => Sys2Proof.Machine.execSerialEncoderDone ch data nErr nWarn crc answer delay s
  | .indexEdge ch abHigh => Sys2Proof.Machine.execIndexEdge ch abHigh s
  | .returningFrame port ns frame => Sys2Proof.Machine.execReturningFrame port ns frame s
  | .returnDeadline port => Sys2Proof.Machine.execReturnDeadline port s
  | .stopVisit le => Sys2Proof.Machine.execStopVisit le s
  | .stopComplete le => Sys2Proof.Machine.execStopComplete le s
  | .stopAbort le => Sys2Proof.Machine.execStopAbort le s
  | .feedbackFault slot => Sys2Proof.Machine.execFeedbackFault slot s
  | .urgentTrigger le stop => Sys2Proof.Machine.execUrgentTrigger le stop s
  | .urgentStopComplete le => Sys2Proof.Machine.execUrgentStopComplete le s
  | .islandClockRestart le => Sys2Proof.Machine.execIslandClockRestart le s
  | .sealing => Sys2Proof.Machine.execSealing s
  | .dropsFault slot => Sys2Proof.Machine.execDropsFault slot s
  | .acqRateChange => Sys2Proof.Machine.execAcqRateChange s
  | .hopTrained port hop maskA maskB deskew => Sys2Proof.Machine.execHopTrained port hop maskA maskB deskew s
  | .retrain port => Sys2Proof.Machine.execRetrain port s
  | .reclose port => Sys2Proof.Machine.execReclose port s
  | .discoveryFrame port descriptors returnedAt contradiction => Sys2Proof.Machine.execDiscoveryFrame port descriptors returnedAt contradiction s
  | .delayFrame port roundTrip stationDiffs latencies => Sys2Proof.Machine.execDelayFrame port roundTrip stationDiffs latencies s
  | .delaySet port station fromWest delay => Sys2Proof.Machine.execDelaySet port station fromWest delay s
  | .ringUp port => Sys2Proof.Machine.execRingUp port s
  | .trainFail port => Sys2Proof.Machine.execTrainFail port s
  | .stationLinkLoss port station eastPort => Sys2Proof.Machine.execStationLinkLoss port station eastPort s
  | .stationLost port station => Sys2Proof.Machine.execStationLost port station s
  | .sideFail port => Sys2Proof.Machine.execSideFail port s
  | .headFrameReceive port station fromWest frame => Sys2Proof.Machine.execHeadFrameReceive port station fromWest frame s
  | .headApply port station => Sys2Proof.Machine.execHeadApply port station s
  | .zeroI port station chan => Sys2Proof.Machine.execZeroI port station chan s
  | .headFrameLoss port station => Sys2Proof.Machine.execHeadFrameLoss port station s
  | .updActivate port station starts => Sys2Proof.Machine.execUpdActivate port station starts s
  | .chainMessageReceive upstream ticks msg => Sys2Proof.Machine.execChainMessageReceive upstream ticks msg s
  | .pairLinkTrained delay => Sys2Proof.Machine.execPairLinkTrained delay s
  | .pairingRecord partner => Sys2Proof.Machine.execPairingRecord partner s
  | .pairActiveAlone activeSeen => Sys2Proof.Machine.execPairActiveAlone activeSeen s
  | .pairLinkRetrain => Sys2Proof.Machine.execPairLinkRetrain s
  | .aloneWaitExpiry activeSeen => Sys2Proof.Machine.execAloneWaitExpiry activeSeen s
  | .mirrorRecord ses sqHead effect slot => Sys2Proof.Machine.execMirrorRecord ses sqHead effect slot s
  | .mirrorAck ses seq => Sys2Proof.Machine.execMirrorAck ses seq s
  | .mirrorAckTimeout ses seq => Sys2Proof.Machine.execMirrorAckTimeout ses seq s
  | .retireRecord ses seq period => Sys2Proof.Machine.execRetireRecord ses seq period s
  | .retireRecordAck ses seq => Sys2Proof.Machine.execRetireRecordAck ses seq s
  | .replyIntent ses index => Sys2Proof.Machine.execReplyIntent ses index s
  | .replyIntentAck ses index => Sys2Proof.Machine.execReplyIntentAck ses index s
  | .sessionRecord ses cfg sqBase cqBase ver nextSeq retired => Sys2Proof.Machine.execSessionRecord ses cfg sqBase cqBase ver nextSeq retired s
  | .forwardedDoorbell ses reg val => Sys2Proof.Machine.execForwardedDoorbell ses reg val s
  | .proxy ses slot => Sys2Proof.Machine.execProxy ses slot s
  | .switchSourceSample field latch holds => Sys2Proof.Machine.execSwitchSourceSample field latch holds s
  | .latchStampTransfer input falling stamp => Sys2Proof.Machine.execLatchStampTransfer input falling stamp s
  | .forwardedSegment port station chan segment => Sys2Proof.Machine.execForwardedSegment port station chan segment s
  | .periodRecord period digest slotDigests timeOfs => Sys2Proof.Machine.execPeriodRecord period digest slotDigests timeOfs s
  | .periodRecordMissing => Sys2Proof.Machine.execPeriodRecordMissing s
  | .adoptionRequest slot => Sys2Proof.Machine.execAdoptionRequest slot s
  | .adoptionImage image period => Sys2Proof.Machine.execAdoptionImage image period s
  | .pairLinkLost => Sys2Proof.Machine.execPairLinkLost s
  | .failover => Sys2Proof.Machine.execFailover s
  | .resyncDrained => Sys2Proof.Machine.execResyncDrained s
  | .resyncCopyDone => Sys2Proof.Machine.execResyncCopyDone s
  | .paired => Sys2Proof.Machine.execPaired s
  | .resyncFail => Sys2Proof.Machine.execResyncFail s
  | .safetyCycle oscBad resultsDiffer silent memoryBad imageBad refBad => Sys2Proof.Machine.execSafetyCycle oscBad resultsDiffer silent memoryBad imageBad refBad s
  | .islandBootDone aOk bOk => Sys2Proof.Machine.execIslandBootDone aOk bOk s
  | .islandWatchdog => Sys2Proof.Machine.execIslandWatchdog s
  | .testPulse out low passed => Sys2Proof.Machine.execTestPulse out low passed s
  | .inputDiscrepancy input => Sys2Proof.Machine.execInputDiscrepancy input s
  | .safeFeedbackLoss axis second => Sys2Proof.Machine.execSafeFeedbackLoss axis second s
  | .stopTExpiry axis => Sys2Proof.Machine.execStopTExpiry axis s
  | .standstillConfirmed axis => Sys2Proof.Machine.execStandstillConfirmed axis s
  | .brakeDelayExpiry out => Sys2Proof.Machine.execBrakeDelayExpiry out s
  | .safeTelegramProduce conn => Sys2Proof.Machine.execSafeTelegramProduce conn s
  | .safeTelegramReceive conn telegram => Sys2Proof.Machine.execSafeTelegramReceive conn telegram s
  | .connLost conn => Sys2Proof.Machine.execConnLost conn s
  | .commissioningTimeout => Sys2Proof.Machine.execCommissioningTimeout s
  | .authLockoutExpiry => Sys2Proof.Machine.execAuthLockoutExpiry s
  | .fieldDieStart => Sys2Proof.Machine.execFieldDieStart s
  | .fieldLinkFrame valid => Sys2Proof.Machine.execFieldLinkFrame valid s
  | .fieldLinkLost => Sys2Proof.Machine.execFieldLinkLost s
  | .fieldInputSample raw => Sys2Proof.Machine.execFieldInputSample raw s
  | .rearm => Sys2Proof.Machine.execRearm s
  | .outCmd val => Sys2Proof.Machine.execOutCmd val s
  | .fieldOutputFault out => Sys2Proof.Machine.execFieldOutputFault out s
  | .fieldOutputLatchClear out => Sys2Proof.Machine.execFieldOutputLatchClear out s
  | .sag mv10 => Sys2Proof.Machine.execSag mv10 s
  | .recovered mv10 => Sys2Proof.Machine.execRecovered mv10 s
  | .referenceTick => Sys2Proof.Machine.execReferenceTick s
  | .ptpMessage msg => Sys2Proof.Machine.execPtpMessage msg s
  | .slewEnd => Sys2Proof.Machine.execSlewEnd s
  | .lockEvt => Sys2Proof.Machine.execLockEvt s
  | .holdover => Sys2Proof.Machine.execHoldover s
  | .ptpSyncSend => Sys2Proof.Machine.execPtpSyncSend s
  | .ptpEn on => Sys2Proof.Machine.execPtpEn on s
  | .restep => Sys2Proof.Machine.execRestep s
  | .ethFrameReceive mac frame fcsOk => Sys2Proof.Machine.execEthFrameReceive mac frame fcsOk s
  | .ethFrameTransmit mac => Sys2Proof.Machine.execEthFrameTransmit mac s
  | .timedFrameLaunch mac => Sys2Proof.Machine.execTimedFrameLaunch mac s
  | .timedFrameLate mac => Sys2Proof.Machine.execTimedFrameLate mac s
  | .linkEvt mac up slow => Sys2Proof.Machine.execLinkEvt mac up slow s
  | .canFrameReceive ctl frame => Sys2Proof.Machine.execCanFrameReceive ctl frame s
  | .txDone ctl entry => Sys2Proof.Machine.execTxDone ctl entry s
  | .txReq ctl val => Sys2Proof.Machine.execTxReq ctl val s
  | .txAbort ctl val => Sys2Proof.Machine.execTxAbort ctl val s
  | .rxRet ctl val => Sys2Proof.Machine.execRxRet ctl val s
  | .busOff ctl => Sys2Proof.Machine.execBusOff ctl s
  | .recover ctl => Sys2Proof.Machine.execRecover ctl s
  | .canRecoveryDone ctl => Sys2Proof.Machine.execCanRecoveryDone ctl s
  | .detect ctl => Sys2Proof.Machine.execDetect ctl s
  | .detectCandidateTimeout ctl => Sys2Proof.Machine.execDetectCandidateTimeout ctl s
  | .dmaStart ch => Sys2Proof.Machine.execDmaStart ch s
  | .dmaStop ch => Sys2Proof.Machine.execDmaStop ch s
  | .kick ch => Sys2Proof.Machine.execKick ch s
  | .descriptorFetch ch host failed => Sys2Proof.Machine.execDescriptorFetch ch host failed s
  | .waitOwnPoll ch => Sys2Proof.Machine.execWaitOwnPoll ch s
  | .descriptorComplete ch host busError writeBackFails => Sys2Proof.Machine.execDescriptorComplete ch host busError writeBackFails s
  | .powerDownDeferExpiry ch => Sys2Proof.Machine.execPowerDownDeferExpiry ch s
  | .acqRd val => Sys2Proof.Machine.execAcqRd val s
  | .trigSw => Sys2Proof.Machine.execTrigSw s
  | .acqTrigLine => Sys2Proof.Machine.execAcqTrigLine s
  | .latchEdge input level stamp => Sys2Proof.Machine.execLatchEdge input level stamp s
  | .pwmReload ch cut => Sys2Proof.Machine.execPwmReload ch cut s
  | .pwmShadowWrite ch reg val => Sys2Proof.Machine.execPwmShadowWrite ch reg val s
  | .pwmArm val => Sys2Proof.Machine.execPwmArm val s
  | .pwmTrip input active => Sys2Proof.Machine.execPwmTrip input active s
  | .tripClr val => Sys2Proof.Machine.execTripClr val s
  | .emuArm val => Sys2Proof.Machine.execEmuArm val s
  | .fbkCfgWrite ch val => Sys2Proof.Machine.execFbkCfgWrite ch val s
  | .mtStrobe ch a b => Sys2Proof.Machine.execMtStrobe ch a b s
  | .mtClr ch => Sys2Proof.Machine.execMtClr ch s
  | .mtZero ch => Sys2Proof.Machine.execMtZero ch s
  | .leMemoryWrite le offset val => Sys2Proof.Machine.execLeMemoryWrite le offset val s
  | .monitorSample values => Sys2Proof.Machine.execMonitorSample values s
  | .monitorCrossing sensor => Sys2Proof.Machine.execMonitorCrossing sensor s
  | .heartbeat core => Sys2Proof.Machine.execHeartbeat core s
  | .coreWatchdogExpiry core => Sys2Proof.Machine.execCoreWatchdogExpiry core s
  | .innkeeperWatchdogExpiry => Sys2Proof.Machine.execInnkeeperWatchdogExpiry s
  | .ledgerFlashWrite => Sys2Proof.Machine.execLedgerFlashWrite s
  | .nameplateWriteBack slot part => Sys2Proof.Machine.execNameplateWriteBack slot part s
  | .wearLedgerCopy => Sys2Proof.Machine.execWearLedgerCopy s
  | .npIdentityCheck slot part nameplate => Sys2Proof.Machine.execNpIdentityCheck slot part nameplate s
  | .flashScrub page ok copyOk => Sys2Proof.Machine.execFlashScrub page ok copyOk s
  | .flashRewrite block verified => Sys2Proof.Machine.execFlashRewrite block verified s
  | .updateTimeout => Sys2Proof.Machine.execUpdateTimeout s
  | .scrubPassDone flips => Sys2Proof.Machine.execScrubPassDone flips s
  | .awaitingHostImage failed => Sys2Proof.Machine.execAwaitingHostImage failed s
  | .kaXtalRestart => Sys2Proof.Machine.execKaXtalRestart s
  | .supplyEvt rail up => Sys2Proof.Machine.execSupplyEvt rail up s
  | .encoderEdge ch ab samples => Sys2Proof.Machine.execEncoderEdge ch ab samples s
  | .adcConversion input code atSample => Sys2Proof.Machine.execAdcConversion input code atSample s
  | .sharedSramAccess offset data read flips => Sys2Proof.Machine.execSharedSramAccess offset data read flips s
  | .safetyAreaFlashWriteDone ok => Sys2Proof.Machine.execSafetyAreaFlashWriteDone ok s
  | .chainPortLinkEvt upstream up => Sys2Proof.Machine.execChainPortLinkEvt upstream up s
  | .announceSend => Sys2Proof.Machine.execAnnounceSend s
  | .canBusError ctl tx ack dominant => Sys2Proof.Machine.execCanBusError ctl tx ack dominant s
  | .busMasterEnableWrite on => Sys2Proof.Machine.execBusMasterEnableWrite on s
  | .safeTorqueOffInput port station active => Sys2Proof.Machine.execSafeTorqueOffInput port station active s
  | .powerStageFault port station chan => Sys2Proof.Machine.execPowerStageFault port station chan s

end Sys2Proof.Machine
end

