-- ==== Sys2Proof/Safety.lean ====
section
/-!
DEFINITION. What counts as a safe run, and the terms in which claims are made: a command that completes, and
what it leaves but for the interrupt messages that follow from its effect.
-/
namespace Sys2Proof

open Machine

/-- A step of `s` completes. -/
def Completes (s : State) : Prop := ∃ t, step s = .next t

/-- `t` is `u` after interrupt messages alone (R65): nothing but the arms, the pending vectors and the messages
sent differs. -/
def Quiet (u t : State) : Prop :=
  t = { u with out := t.out, bus := { u.bus with msixArm := t.bus.msixArm, msixPba := t.bus.msixPba } }
    ∧ ∃ ms, t.out = ms ++ u.out ∧ ∀ o ∈ ms, ∃ v a d, o = Output.msix v a d

/-- The command completes in `s` with effect `u`: everything that `u` does not write is as in `s`, but for the
interrupt messages that follow. -/
def Gives (i : Instr) (s u : State) : Prop := ∃ t, exec i s = .next t ∧ Quiet u t

/-- The command completes in a state of which `P` holds. -/
def Brings (i : Instr) (s : State) (P : State → Prop) : Prop := ∃ t, exec i s = .next t ∧ P t

/-- `t` is `s` after a reset of the kind that `PWR.CAUSE` bit `k` names, 0 power-on, 1 brown-out, 2 pin, 3 run-supply,
4 software, 5 watchdog, 6 clock fault (R70, R82, R87, R93): in STANDBY before its first stage, held guarded writes,
sessions, memories, staging and axes gone, and kept what the table of R87 keeps. -/
structure Restarted (k : Nat) (straps : BitVec 14) (s t : State) : Prop where
  mode : t.power.mode = .standby ∧ t.power.phase = .firstStage ∧ t.power.straps = straps
  cause : t.reg Reg.pwrCause = w32 (2 ^ k + 65536 * b2n s.power.vbakFell)
  guard : t.bus.guard = []
  lost : t.sessions = [] ∧ t.staged = [] ∧ t.axes = [] ∧ t.params = [] ∧ t.sram = [] ∧ t.leMem = [] ∧ t.dma = [] ∧ t.active = []
  journal : t.journal = if s.power.vbakFell then [] else s.journal
  turns : s.power.vbakFell = false → t.mts = s.mts ∧ ∀ a, isMt a = true → t.reg a = s.reg a
  time : 3 ≤ k → k ≤ 5 → t.tmu.ns = s.tmu.ns ∧ t.tmu.frac = s.tmu.frac ∧ ∀ a, isTime a = true → t.reg a = s.reg a
  counts : 3 ≤ k → k ≤ 5 → t.fbk = s.fbk
  island : 3 ≤ k → t.island = s.island

/-! ### The path of a host command -/

/-- A register of the `CMD` or `PTR` blocks (R34). -/
def pathReg (a : Nat) : Bool := decide (0x20000 ≤ a ∧ a < 0x40000)

/-- `t` is `s` but for the command path: sessions, journal, Porter and the registers of `CMD` and `PTR`. -/
structure Path (s t : State) : Prop where
  rest : t = { s with regs := t.regs, sessions := t.sessions, porter := t.porter, journal := t.journal }
  reg : ∀ a, pathReg a = false → t.reg a = s.reg a

/-- Nothing stands before a command (R106 to R117): its session may fetch, the packet is the next in order, the
Porter and a core are free, no other command and no settled reply of the session is outstanding, the completion
ring lies in host memory and has room, and the device runs its full firmware outside a pair in step. -/
structure Clear (h : Hdr) (p : Bytes) (s : State) : Prop where
  fetch : s.mayFetch h.ses = true
  seq : h.seq = s.reg (Reg.cmdNextSeq h.ses)
  len : p.length ≤ 496
  dep : h.dep = false
  alone : s.inStep = false
  idle : ∃ c, s.coreIdle c = true
  ready : ∀ q, s.readyList q = []
  flights : (s.ses h.ses).flights = []
  replies : ∀ r ∈ (s.ses h.ses).replies, r.due = false ∧ r.seq ≠ h.seq
  order : (h.ses, h.seq) ∉ s.pair.order
  ring : s.cqFull h.ses = false
  host : (s.ses h.ses).opened.cqSram = false
  link : s.masters = true
  sound : (s.ses h.ses).stuck = false
  firmware : s.power.recovery = false
  restart : s.inn.resetDue = none

/-- A command as its session's fetch takes it: its packet stands behind the doorbell and is accepted (R106, R109). -/
def arrived (op : Nat) (h : Hdr) (p : Bytes) (s : State) : State :=
  let head := s.reg (Reg.cmdSqHead h.ses)
  takePacket h.ses { op := op, hdr := h, payload := p } p.length
    (if head = s.reg (Reg.cmdSqTail h.ses) then s.setReg (Reg.cmdSqTail h.ses) (head + 1) else s)

/-- The state in which a service core judges the command (R115, R134). Only the command path differs from `s`. -/
def judged (op : Nat) (h : Hdr) (p : Bytes) (s : State) : State :=
  match (arrived op h p s).nextCore h.ses h.seq with
  | some c => (dispatch c (arrived op h p s)).setCore c none
  | none => arrived op h p s

/-- The state in which the command retires (R116). Only the command path differs from `s`. -/
def finished (op : Nat) (h : Hdr) (p : Bytes) (s : State) : State :=
  match (arrived op h p s).nextCore h.ses h.seq with
  | some c => finishTask c (dispatch c (arrived op h p s))
  | none => arrived op h p s

/-- The reply of a failed check (R132, R134). -/
def refusal (st d : Nat) : Reply := { status := st, result := detail d }

/-- What a service core makes of a command of the declaration `o` (R119, R134). -/
def verdict (o : OpSpec) (op : Nat) (h : Hdr) (p : Bytes) (s : State) : Reply :=
  if o.yes && s.tooFar h then refusal ST.limit 0
  else match checkCommand o (judged op h p s) { op := op, hdr := h, payload := p } with
    | some b => refusal b.1 b.2
    | none => { result := o.result (judged op h p s) { op := op, hdr := h, payload := p } }

/-- The slots that a command holds as it retires. -/
def slotsAt (o : OpSpec) (op : Nat) (h : Hdr) (p : Bytes) (s : State) : List Nat :=
  o.slots (touchUnit op (finished op h p s)) { op := op, hdr := h, payload := p }

/-- What a command does as it retires. -/
def ranAt (o : OpSpec) (op : Nat) (h : Hdr) (p : Bytes) (s : State) : Ran :=
  let s' := touchUnit op (finished op h p s)
  let r := verdict o op h p s
  if r.status = 0 then o.act { op := op, hdr := h, payload := p } (s'.effectAt h none (slotsAt o op h p s)) r s'
  else { reply := r, st := s' }

/-- What stands on the staging of a command that retires (R118, R119). -/
def staging (o : OpSpec) (op : Nat) (h : Hdr) (p : Bytes) (s : State) : Staged :=
  let ran := ranAt o op h p s
  let x : Staged :=
    { ses := h.ses, pkt := { op := op, hdr := h, payload := p }
      eff := ran.st.effectAt h none (slotsAt o op h p s), asked := h.ep, slots := slotsAt o op h p s }
  { ran.stg x with acked := true }

/-- A command of the declaration `o` passes its checks (R119, R134), and the queues have room for it (R117). -/
structure Passes (o : OpSpec) (op : Nat) (h : Hdr) (p : Bytes) (s : State) : Prop where
  near : o.yes = true → s.tooFar h = false
  checks : checkCommand o (judged op h p s) { op := op, hdr := h, payload := p } = none
  fits : (finished op h p s).queueFits o { op := op, hdr := h, payload := p } = true

/-- The registers of `CMD` and `PTR` that a command of session `n` may write on its way. -/
def ownRegs (n : Nat) : List Nat :=
  [Reg.cmdSqTail n, Reg.cmdSqHead n, Reg.cmdAcceptedSeq n, Reg.cmdNextSeq n, Reg.cmdRetiredSeq n, Reg.cmdCqTail n,
    Reg.cmdStat n, Reg.ptrPeak, Reg.ptrDispatchCnt, Reg.ptrMaxlat, Reg.ptrStat]

/-- `t` is `e` after the command of header `h` has gone its way from `s`: the command path, the retired number in
the records of the axes it targets, replies and interrupt messages are all that differs. -/
structure Served (h : Hdr) (s e t : State) : Prop where
  rest : t = { e with
    regs := t.regs, sessions := t.sessions, porter := t.porter, journal := t.journal, axes := t.axes, out := t.out,
    bus := { e.bus with msixArm := t.bus.msixArm, msixPba := t.bus.msixPba } }
  reg : ∀ a, pathReg a = false → t.reg a = e.reg a
  path : ∀ a, pathReg a = true → a ∉ ownRegs h.ses → t.reg a = s.reg a
  axis : ∀ m, t.axis m = if m ∈ e.targetSlots h.target.toNat then { e.axis m with seq := h.seq, seqSes := h.ses } else e.axis m
  accepted : t.reg (Reg.cmdAcceptedSeq h.ses) = h.seq
  next : t.reg (Reg.cmdNextSeq h.ses) = h.seq + 1
  retired : t.reg (Reg.cmdRetiredSeq h.ses) = h.seq
  flights : (t.ses h.ses).flights = []

/-- The reply `r` of the command has been written to the completion ring in host memory (R103, R131). -/
def Answered (op : Nat) (h : Hdr) (r : Reply) (s t : State) : Prop :=
  t.reg (Reg.cmdCqTail h.ses) = s.reg (Reg.cmdCqTail h.ses) + 1
    ∧ (let c := (s.ses h.ses).opened
       let q : StoredReply := { seq := h.seq, op := op, reply := r, due := true }
       Output.hostWrite (c.cqBase + BitVec.ofNat 64 ((s.reg (Reg.cmdCqTail h.ses)).toNat % c.depth * c.cqSlot))
         ((q.bytes h.ses).take c.cqSlot) ∈ t.out)

/-- The reply `r` of the command waits in the reply store for its effect to take hold (R103, R133). -/
def Awaits (op : Nat) (h : Hdr) (r : Reply) (t : State) : Prop :=
  ({ seq := h.seq, op := op, reply := r, due := false } : StoredReply) ∈ (t.ses h.ses).replies

/-- The command completes with effect `e` and its reply is written. -/
def Serves (i : Instr) (op : Nat) (h : Hdr) (r : Reply) (s e : State) : Prop :=
  ∃ t, exec i s = .next t ∧ Served h s e t ∧ Answered op h r s t

/-- The command retires with effect `e`, and its reply waits for what settles it. -/
def Waits (i : Instr) (op : Nat) (h : Hdr) (r : Reply) (s e : State) : Prop :=
  ∃ t, exec i s = .next t ∧ Served h s e t ∧ Awaits op h r t

/-- What the staging holds of a command that retires now: its packet, for slots `l` and the boundary of R119. -/
def entry (op : Nat) (h : Hdr) (p : Bytes) (l : List Nat) (s : State) : Staged :=
  { ses := h.ses, pkt := { op := op, hdr := h, payload := p }, eff := s.effectAt h none l, asked := h.ep, slots := l, acked := true }

/-- The command retires with effect `e`: `x` stands last on the staging, and the reply waits until its boundary
(R118, R119, R133). -/
def Stages (i : Instr) (op : Nat) (h : Hdr) (r : Reply) (x : Staged) (s e : State) : Prop :=
  Waits i op h r s { e with staged := e.staged ++ [x] }

/-- A staged effect that meets boundary `k` with nothing before it (R118, R119, R394, R436). -/
structure Ripe (k : Nat) (x : Staged) (s : State) : Prop where
  whole : x.cut = false
  waits : x.waiting = false
  due : x.eff ≤ k
  first : s.heldBack k x = false
  free : ∀ n ∈ x.slots, (s.axis n).holdKind = 0
  alone : s.inStep = false
  record : s.recordless x = false

/-- The rows that are packets of the host (R138 to R142), with their opcodes. -/
def commandOf : Instr → Option (Nat × Hdr × Bytes)
  | .nop h p => some (0x0101, h, p)
  | .echo h p => some (0x0102, h, p)
  | .sessionInfo h p => some (0x0103, h, p)
  | .devInfo h p => some (0x0201, h, p)
  | .runStart h p => some (0x0202, h, p)
  | .runStop h p => some (0x0203, h, p)
  | .setPeriod h p => some (0x0204, h, p)
  | .devStatus h p => some (0x0205, h, p)
  | .getParams h p => some (0x0301, h, p)
  | .setParams h p => some (0x0302, h, p)
  | .defaultParams h p => some (0x0303, h, p)
  | .enable h p => some (0x0304, h, p)
  | .disable h p => some (0x0305, h, p)
  | .clearFault h p => some (0x0306, h, p)
  | .axisStatus h p => some (0x0307, h, p)
  | .moveAbs h p => some (0x0401, h, p)
  | .moveRel h p => some (0x0402, h, p)
  | .moveVel h p => some (0x0403, h, p)
  | .stream h p => some (0x0404, h, p)
  | .halt h p => some (0x0405, h, p)
  | .quickStop h p => some (0x0406, h, p)
  | .groupDefine h p => some (0x0407, h, p)
  | .pathSegment h p => some (0x0408, h, p)
  | .flushQueue h p => some (0x0409, h, p)
  | .dovetailLink h p => some (0x0501, h, p)
  | .dovetailRatio h p => some (0x0502, h, p)
  | .dovetailUnlink h p => some (0x0503, h, p)
  | .camLoad h p => some (0x0504, h, p)
  | .camEngage h p => some (0x0505, h, p)
  | .camDisengage h p => some (0x0506, h, p)
  | .vmasterSet h p => some (0x0507, h, p)
  | .shaftConfig h p => some (0x0508, h, p)
  | .homeStart h p => some (0x0601, h, p)
  | .homeSet h p => some (0x0602, h, p)
  | .homeAbort h p => some (0x0603, h, p)
  | .latchArm h p => some (0x0701, h, p)
  | .latchDisarm h p => some (0x0702, h, p)
  | .latchRead h p => some (0x0703, h, p)
  | .registerCfg h p => some (0x0704, h, p)
  | .ttWrite h p => some (0x0801, h, p)
  | .ttClear h p => some (0x0802, h, p)
  | .buildTimetable h p => some (0x0803, h, p)
  | .ttRead h p => some (0x0804, h, p)
  | .kernelLoad h p => some (0x0901, h, p)
  | .kernelCheck h p => some (0x0902, h, p)
  | .kernelList h p => some (0x0903, h, p)
  | .acqConfig h p => some (0x0A01, h, p)
  | .acqStart h p => some (0x0A02, h, p)
  | .acqStop h p => some (0x0A03, h, p)
  | .acqMark h p => some (0x0A04, h, p)
  | .fioSet h p => some (0x0B01, h, p)
  | .fioGet h p => some (0x0B02, h, p)
  | .fioConfig h p => some (0x0B03, h, p)
  | .timeGet h p => some (0x0C01, h, p)
  | .timeAlarm h p => some (0x0C02, h, p)
  | .timeRestep h p => some (0x0C03, h, p)
  | .timeConfig h p => some (0x0C04, h, p)
  | .pairStatus h p => some (0x0D01, h, p)
  | .pairHandover h p => some (0x0D02, h, p)
  | .pairRelease h p => some (0x0D03, h, p)
  | .pairResync h p => some (0x0D04, h, p)
  | .safeOpen h p => some (0x0E01, h, p)
  | .safeWrite h p => some (0x0E02, h, p)
  | .safeRead h p => some (0x0E03, h, p)
  | .safeCommit h p => some (0x0E04, h, p)
  | .safeClose h p => some (0x0E05, h, p)
  | .updateBegin h p => some (0x0F01, h, p)
  | .updateData h p => some (0x0F02, h, p)
  | .updateCommit h p => some (0x0F03, h, p)
  | .updateActivate h p => some (0x0F04, h, p)
  | .ledgerRead h p => some (0x0F05, h, p)
  | .healthRead h p => some (0x0F06, h, p)
  | .npRead h p => some (0x1001, h, p)
  | .npBind h p => some (0x1002, h, p)
  | .wearRead h p => some (0x1003, h, p)
  | .wearReplace h p => some (0x1004, h, p)
  | _ => none

/-- No interrupt source waits to send a message (R65). -/
def Settled (s : State) : Prop := ∀ n, n < 28 → s.due n = false

end Sys2Proof
end

