-- ==== Sys2Proof/Certificates/Slice0/Obligations.lean ====
section
/-!
DEFINITION. What is to be proved of the model: one statement a definition. Most tell what a command of the opcode table does,
in every state that its hypotheses describe: that it completes, and in which state.
-/

open Sys2Proof Sys2Proof.Machine

/-! ### The queue, and what every step keeps -/

/-- One step takes the command at the front of the queue and runs it on the state with the queue's rest. -/
def Obligations.StepRunsTheFrontCommand : Prop :=
  ∀ (c : Instr) (rest : List Instr) (s : State), step { s with pending := c :: rest } = exec c { s with pending := rest }

/-- With an empty queue the block idles (the model's choice, log 2). -/
def Obligations.EmptyQueueIdles : Prop :=
 ∀ s : State, s.pending = [] → step s = .next s

/-- Every command completes: none ends in a fault or a refusal. -/
def Obligations.EveryStepCompletes : Prop :=
 ∀ s : State, Completes s

/-- R65: a source that is raised, enabled, unmasked and armed sends its message at once. So after every step no
source waits: the invariant holds in the next state of every step from a state that has it. -/
def Obligations.NoInterruptWaits : Prop :=
 ∀ s t : State, Settled s → step s = .next t → Settled t

/-- No source waits after reset. -/
def Obligations.ResetIsSettled : Prop :=
 Settled State.reset

/-- R65: what settling does beside sending messages: nothing. Every command has a state `u` of its own from which
its next state differs by the arms, the pending vectors and the messages sent. -/
def Obligations.MessagesAreAllThatFollows : Prop :=
 ∀ (i : Instr) (s : State), ∃ u, exec i s = .next (settle u) ∧ Quiet u (settle u)

/-! ### Host commands: refused, answered, staged (R106 to R119, R131 to R135) -/

/-- R119, R132, R134: a packet command that fails a check gets the status and `DETAIL` of the first failure, and the
device stays as it was: only the command path, the retired numbers and the idle time of a unit's session tell of it.
A too-distant effect period is judged before the checks. -/
def Obligations.FailedChecksChangeNothing : Prop :=
  ∀ (i : Instr) (op : Nat) (h : Hdr) (p : Bytes) (o : OpSpec) (s : State),
    commandOf i = some (op, h, p) → Clear h p s → opSpec op = some o →
      ((o.yes && s.tooFar h) = true → Serves i op h (refusal ST.limit 0) s (touchUnit op s))
      ∧ ∀ st d, (o.yes && s.tooFar h) = false → st ≠ 0
        → checkCommand o (judged op h p s) { op := op, hdr := h, payload := p } = some (st, d)
        → Serves i op h (refusal st d) s (touchUnit op s)

/-- R134: the first four checks in their order, for every packet command: reserved flags, the target's kind, the
target slot, the class unit. -/
def Obligations.ChecksComeInOrder : Prop :=
  ∀ (o : OpSpec) (s : State) (k : Packet),
    (k.hdr.flags ≠ 0 → checkCommand o s k = some (ST.badFlags, 0))
    ∧ (k.hdr.flags = 0 → o.targets k.hdr.target.toNat = false → checkCommand o s k = some (ST.badTarget, 0))
    ∧ (k.hdr.flags = 0 → o.targets k.hdr.target.toNat = true → s.part.slots ≤ k.hdr.target.toNat → k.hdr.target.toNat < 128
      → checkCommand o s k = some (ST.absentUnit, 0))
    ∧ (k.hdr.flags = 0 → o.targets k.hdr.target.toNat = true → (k.hdr.target.toNat < s.part.slots ∨ 128 ≤ k.hdr.target.toNat)
      → (∃ c, o.cap = some c ∧ s.cap c = false) → checkCommand o s k = some (ST.absentUnit, 0))

/-- R106, R138: `NOP` does nothing, `ECHO` gives its payload back, and `SESSION_INFO` tells of the session as it
stands when the command is interpreted. Commands with no payload that tell of the device: R138 (`DEV_INFO`, `DEV_STATUS`), R472 (`TIME_GET`) and R452
(`FIO_GET`). Commands that read: once their checks pass they answer with what they read, and leave the device as it was.
`GET_PARAMS` (R143, R145) and the reads of nameplates and kernels name the state in which they are interpreted,
which differs from `s` in the command path alone. -/
def Obligations.QueryCommands : Prop :=
  (∀ (h : Hdr) (p : Bytes) (s : State), Clear h p s → h.flags = 0 →
    (p = [] → (h.target.toNat < s.part.slots ∧ h.target.toNat < 128 ∨ (0x8000 ≤ h.target.toNat ∧ h.target.toNat < 0x8020) ∨ h.target = 0xFFFF)
      → Serves (.nop h p) 0x0101 h {} s s)
    ∧ (h.target = 0xFFFF → Serves (.echo h p) 0x0102 h { result := p } s s)
    ∧ (p = [] → h.target = 0xFFFF → Serves (.sessionInfo h p) 0x0103 h
        { result := leBytes 1 (s.field (Reg.cmdState h.ses) 15 8) ++ leBytes 1 h.ses ++ leBytes 2 (s.ses h.ses).opened.credit
            ++ wordBytes h.seq ++ wordBytes (s.reg (Reg.cmdRetiredSeq h.ses))
            ++ leBytes 2 ((s.ses h.ses).replies.length + 1) ++ leBytes 2 0 } s s))
  ∧ (∀ (h : Hdr) (s : State), Clear h [] s → h.flags = 0 → h.target = 0xFFFF →
    Serves (.devInfo h []) 0x0201 h
        { result := wordBytes s.part.id ++ wordBytes (s.reg Reg.sysIfver) ++ wordBytes (s.reg Reg.sysCapLive)
            ++ wordBytes (s.reg Reg.sysCapLiveX) ++ wordBytes (s.reg Reg.sysStrap) ++ leBytes 4 s.firmware ++ wordBytes s.pwrStateView } s s
    ∧ Serves (.devStatus h []) 0x0205 h
        { result := leBytes 8 s.periodNow ++ leBytes 2 (s.countAxes (· == .fault))
            ++ leBytes 2 (s.countAxes fun x => x == .enabled || x == .moving) ++ leBytes 4 s.droppedStops } s s
    ∧ Serves (.timeGet h []) 0x0C01 h
        { result := leBytes 2 (s.tmu.ns / 10 ^ 9 / 2 ^ 32) ++ leBytes 2 0 ++ leBytes 4 (s.tmu.ns / 10 ^ 9)
            ++ leBytes 4 (s.tmu.ns % 10 ^ 9) ++ leBytes 4 s.tmu.frac ++ leBytes 8 s.periodNow ++ wordBytes (s.reg Reg.tmuState) } s s
    ∧ (s.cap 4 = true → Serves (.fioGet h []) 0x0B02 h
        { result := wordBytes (s.reg Reg.fioIn) ++ leBytes 2 (s.field Reg.fioOutCmd 15 0) ++ leBytes 2 (s.field Reg.fioOutRb 15 0)
            ++ wordBytes (s.reg Reg.fioState) } s s))
  ∧ (∀ (h : Hdr) (p : Bytes) (s : State), Clear h p s →
    (Passes opGetParams 0x0301 h p s → Serves (.getParams h p) 0x0301 h
        { result := getParams (judged 0x0301 h p s) { op := 0x0301, hdr := h, payload := p } } s s)
    ∧ (Passes opAxisStatus 0x0307 h p s → Serves (.axisStatus h p) 0x0307 h
        { result := [1, 2, 3, 4, 5, 6, 7, 12, 13, 0].flatMap fun i => wordBytes (s.reg (Reg.axsRec (16 * h.target.toNat + i))) } s s)
    ∧ (Passes opTtRead 0x0804 h p s → Serves (.ttRead h p) 0x0804 h
        { result := (List.range (Bytes.num p 4 2)).flatMap fun i =>
            (Map.get (fun _ => {}) s.active (Bytes.num p 0 1 * 512 + Bytes.num p 2 2 + i) : StopRec).bytes } s s)
    ∧ (Passes opKernelCheck 0x0902 h p s → Serves (.kernelCheck h p) 0x0902 h {} s s)
    ∧ (Passes opKernelList 0x0903 h p s → Serves (.kernelList h p) 0x0903 h
        { result := opKernelList.result (judged 0x0903 h p s) { op := 0x0903, hdr := h, payload := p } } s s)
    ∧ (Passes opNpRead 0x1001 h p s → Serves (.npRead h p) 0x1001 h
        { result := ((judged 0x1001 h p s).plateOf h.target.toNat (Bytes.num p 0 1)).take 192 } s s)
    ∧ (Passes opWearRead 0x1003 h p s → Serves (.wearRead h p) 0x1003 h
        { result := (s.wearOf h.target.toNat (Bytes.num p 0 1)).read } s s)
    ∧ (Passes opLedgerRead 0x0F05 h p s → Serves (.ledgerRead h p) 0x0F05 h
        { result := ledgerRead s { op := 0x0F05, hdr := h, payload := p } } s (touchUnit 0x0F05 s))
    ∧ (Passes opSafeRead 0x0E03 h p s → Serves (.safeRead h p) 0x0E03 h
        { result := (s.safeImage.drop (Bytes.num p 0 2)).take (Bytes.num p 2 2) } s (touchUnit 0x0E03 s)))

/-- R415: `PAIR_STATUS` returns 32 bytes with what the pair knows. -/
def Obligations.PairStatusReply : Prop :=
  ∀ (h : Hdr) (s : State), Clear h [] s → h.flags = 0 → h.target = 0xFFFF → s.cap 2 = true →
    let told := wordBytes (s.reg Reg.pairState) ++ wordBytes s.pair.partnerState ++ leBytes 4 s.pair.diffs ++ leBytes 4 s.pair.adopted
      ++ wordBytes (s.reg Reg.pairLastDiff) ++ wordBytes (s.reg Reg.pairTimeOfs) ++ wordBytes (s.reg Reg.pairPartner) ++ wordBytes s.pair.roleAt
    told.length = 32 ∧ Serves (.pairStatus h []) 0x0D01 h { result := told } s s

/-- R535: `HEALTH_READ` returns 48 bytes: sensor values, `MON`, the next record, seconds and days, failed blocks, bank and
version. It also keeps an update alive. -/
def Obligations.HealthReply : Prop :=
  ∀ (h : Hdr) (s : State), Clear h [] s → h.flags = 0 → h.target = 0xFFFF →
    let told := (List.range 12).flatMap (fun i => leBytes 2 (s.field (Reg.mgtSense i) 15 0)) ++ wordBytes (s.reg Reg.mgtMon) ++ wordBytes s.inn.next
      ++ leBytes 4 (s.inn.uptime / 10 ^ 9) ++ leBytes 2 s.scrubDays ++ leBytes 2 s.inn.failedBlocks.length
      ++ wordBytes (s.reg Reg.mgtBank) ++ wordBytes (setBits (s.reg Reg.mgtSvn) 5 0 s.inn.floor)
    told.length = 48 ∧ Serves (.healthRead h []) 0x0F06 h { result := told } s (touchUnit 0x0F06 s)

/-- R27, R149: `RUN_START`, `RUN_STOP` and `SET_PERIOD` retire and wait for their boundary. There the device enters RUN
with its built tables active, leaves it with every slot DISABLED, or takes the new base period with every table unbuilt. -/
def Obligations.RunCommands : Prop :=
  (∀ (h : Hdr) (p : Bytes) (s : State), Clear h p s →
    (Passes opRunStart 0x0202 h p s → Stages (.runStart h p) 0x0202 h {} (entry 0x0202 h p [] s) s s)
    ∧ (Passes opRunStop 0x0203 h p s → Stages (.runStop h p) 0x0203 h {} (entry 0x0203 h p [] s) s s)
    ∧ (Passes opSetPeriod 0x0204 h p s → Stages (.setPeriod h p) 0x0204 h {} (entry 0x0204 h p [] s) s s))
  ∧ ∀ (k : Nat) (x : Staged) (s : State), Ripe k x s →
    let t := stagedAt k x s
    let ticks := Bytes.num x.pkt.payload 0 4
    (x.pkt.op = 0x0202 → s.power.mode = .ready → s.someBuilt = true →
      t.power.mode = .run ∧ t.droppedStops = 0 ∧ ∀ n ∈ s.engines?, bit (s.reg (Reg.ttbState n)) 0 = true → bit (t.reg (Reg.ttbState n)) 1 = true)
    ∧ (x.pkt.op = 0x0203 → s.running = true → s.busyAxis = none →
      t.power.mode = .ready ∧ (∀ n, n < s.part.slots → (t.axis n).state = .disabled) ∧ ∀ n ∈ s.engines?, bit (t.reg (Reg.ttbState n)) 1 = false)
    ∧ (x.pkt.op = 0x0204 → s.power.mode = .ready → 250 ≤ ticks → ticks ≤ 25000 →
      t.field Reg.tmuPeriod 15 0 = ticks ∧ t.tmu.period = k * s.tBase / (40 * ticks)
      ∧ ∀ n ∈ s.engines?, bit (t.reg (Reg.ttbState n)) 0 = false ∧ bit (t.reg (Reg.ttbState n)) 1 = false)

/-- R139, R143, R144: `SET_PARAMS` and `DEFAULT_PARAMS` wait for their boundary, at which every entry is in force;
of entries with one index the last counts. R24, R139: `ENABLE`, `DISABLE` and `CLEAR_FAULT` wait for their boundary. There a READY slot becomes ENABLED with
its fault code cleared (R61) and its gearing and offset at rest; a slot in FAULT whose causes have gone becomes
DISABLED, and one that is disabled goes there too, through a quick stop where it moves and its parameter says so. -/
def Obligations.AxisSetupCommands : Prop :=
  ((∀ (h : Hdr) (p : Bytes) (s : State), Clear h p s →
    (Passes opSetParams 0x0302 h p s → Stages (.setParams h p) 0x0302 h {} (entry 0x0302 h p (slotsAt opSetParams 0x0302 h p s) s) s s)
    ∧ (Passes opDefaultParams 0x0303 h p s →
        Stages (.defaultParams h p) 0x0303 h {} (entry 0x0303 h p (slotsAt opDefaultParams 0x0303 h p s) s) s s))
  ∧ ∀ (k : Nat) (x : Staged) (s : State), Ripe k x s → (x.pkt.op = 0x0302 ∨ x.pkt.op = 0x0303) →
    ∀ i v, (paramWrites x.pkt).filter (fun e => e.1 == i) = [(i, v)] → (stagedAt k x s).par x.pkt.hdr.target.toNat i = v)
  ∧ ((∀ (h : Hdr) (p : Bytes) (s : State), Clear h p s →
    (Passes opEnable 0x0304 h p s → Stages (.enable h p) 0x0304 h {} (entry 0x0304 h p (slotsAt opEnable 0x0304 h p s) s) s s)
    ∧ (Passes opDisable 0x0305 h p s → Stages (.disable h p) 0x0305 h {} (entry 0x0305 h p (slotsAt opDisable 0x0305 h p s) s) s s)
    ∧ (Passes opClearFault 0x0306 h p s → Stages (.clearFault h p) 0x0306 h {} (entry 0x0306 h p (slotsAt opClearFault 0x0306 h p s) s) s s))
  ∧ ∀ (k : Nat) (x : Staged) (s : State), Ripe k x s →
    (∀ n, x.pkt.op = 0x0304 → x.slots = [n] → s.running = true → (s.axis n).state = .ready →
      let a := (stagedAt k x s).axis n
      a.state = .enabled ∧ a.fault = 0 ∧ a.queue = [] ∧ a.gear = {} ∧ a.ofs = {})
    ∧ (∀ n, x.pkt.op = 0x0306 → x.slots = [n] → s.clears n = true →
      (stagedAt k x s).axis n = { s.axis n with state := .disabled, causes := [], stale := 0 }
      ∧ ∀ m, m ≠ n → (stagedAt k x s).axis m = s.axis m)
    ∧ (x.pkt.op = 0x0305 → stagedAt k x s = tookHold x k (x.lateAt k) (x.slots.foldl (fun s n => disableAxis n s) s))
    ∧ (∀ n, x.pkt.op = 0x0305 → x.slots = [n] → s.groupOf n = none →
      ((s.axis n).state = .enabled ∨ (s.axis n).state = .ready → ((stagedAt k x s).axis n).state = .disabled)
      ∧ ((s.axis n).state = .moving → ((stagedAt k x s).axis n).state = if s.pn n 0x90A = 0 then .stopping else .disabled)))

/-- R259, R261, R290, R291: `HALT`, `QUICK_STOP` and `FLUSH_QUEUE` wait for their boundary. There a slot in motion stops, its queue
gone, by the halt or the quick stop, or keeps the segment it is in alone. A device target passes over the slots that are DISABLED (R135). -/
def Obligations.StopCommands : Prop :=
  (∀ (h : Hdr) (p : Bytes) (s : State), Clear h p s →
    (Passes opHalt 0x0405 h p s → Stages (.halt h p) 0x0405 h {} (entry 0x0405 h p (stopSlots s { op := 0x0405, hdr := h, payload := p }) s) s s)
    ∧ (Passes opQuickStop 0x0406 h p s →
        Stages (.quickStop h p) 0x0406 h {} (entry 0x0406 h p (stopSlots s { op := 0x0406, hdr := h, payload := p }) s) s s)
    ∧ (Passes opFlush 0x0409 h p s → Stages (.flushQueue h p) 0x0409 h {} (entry 0x0409 h p (s.targetSlots h.target.toNat) s) s s)
    ∧ (h.target = 0xFFFF → ∀ n, n ∈ stopSlots s { op := 0x0405, hdr := h, payload := p } ↔ n < s.part.slots ∧ (s.axis n).state ≠ .disabled))
  ∧ ∀ (k : Nat) (x : Staged) (s : State), Ripe k x s →
    (x.pkt.op = 0x0406 → stagedAt k x s = tookHold x k (x.lateAt k)
      (x.slots.foldl (fun s n => quickSlots n none s.qsEnd s) s))
    ∧ (x.pkt.op = 0x0409 → stagedAt k x s = tookHold x k (x.lateAt k) (x.slots.foldl (fun s n => flushSlot n k s) s))
    ∧ (x.pkt.op = 0x0405 → stagedAt k x s = haltApply k (x.lateAt k) x s)
    ∧ (∀ n, x.slots = [n] → s.groupOf n = none →
      let a := (stagedAt k x s).axis n
      (x.pkt.op = 0x0405 → (s.axis n).state = .enabled ∨ (s.axis n).state = .moving → a.state = .stopping ∧ a.stop = .halt ∧ a.queue = [])
      ∧ (x.pkt.op = 0x0406 → (s.axis n).state = .enabled ∨ (s.axis n).state = .moving →
        a.state = .stopping ∧ a.stop = .quick none (s.qsEnd n) ∧ a.queue = [])
      ∧ (x.pkt.op = 0x0409 → a.queue = if (s.axis n).inSeg then (s.axis n).queue.take 1 else []))

/-! ### Host commands: groups, gearing, cams, homing, latches -/

/-- R270, R271: `GROUP_DEFINE` and `PATH_SEGMENT` retire and wait for their boundary. There a group of slots at rest takes
its new members, and every slot named or left shows it; a path segment joins the group's path and its queues. R255, R257
to R267: a move, a stream or a virtual master's speed is planned as its command retires: the segment stands on the staging
with its append bit, for the boundary of R119, and the first replacement shows in the slot's private words. At the
boundary an appended segment enters the slot's queue, and a replacement waits for its switch run. -/
def Obligations.PathCommands : Prop :=
  ((∀ (h : Hdr) (p : Bytes) (s : State), Clear h p s →
    (Passes opGroupDefine 0x0407 h p s →
        Stages (.groupDefine h p) 0x0407 h {} (entry 0x0407 h p (slotsAt opGroupDefine 0x0407 h p s) s) s s)
    ∧ (Passes opPathSegment 0x0408 h p s →
        Stages (.pathSegment h p) 0x0408 h {} (entry 0x0408 h p (slotsAt opPathSegment 0x0408 h p s) s) s s))
  ∧ ∀ (k : Nat) (x : Staged) (s : State), Ripe k x s →
    (x.pkt.op = 0x0407 → (∀ n ∈ x.slots, s.axOff n = true) →
      (stagedAt k x s).group x.pkt.groupNo = { members := mapSlots x.pkt }
      ∧ (∀ g, g ≠ x.pkt.groupNo → (stagedAt k x s).group g = s.group g)
      ∧ ((∀ n ∈ x.slots, n < s.part.slots) → ∀ n ∈ x.slots, bit ((stagedAt k x s).axWord n 0xCC) 3 = decide (n ∈ mapSlots x.pkt)))
    ∧ (x.pkt.op = 0x0408 → x.slots ≠ [] → (∀ n ∈ x.slots, s.moves n = true) →
      let g := x.pkt.groupNo
      stagedAt k x s = tookHold x k (x.lateAt k) (joinPath g x.pkt.payload s)
      ∧ (∃ q, ((stagedAt k x s).group g).segs = ((settleStop g s).group g).segs ++ [q])
      ∧ ∀ n ∈ (s.group g).members, (s.axis n).state = .enabled → ((stagedAt k x s).axis n).state = .moving))
  ∧ (∀ (i : Instr) (op : Nat) (h : Hdr) (p : Bytes) (o : OpSpec) (s : State) (n : Nat), Clear h p s →
    (i = .moveAbs h p ∧ op = 0x0401 ∧ o = opMove ∨ i = .moveRel h p ∧ op = 0x0402 ∧ o = opMove
      ∨ i = .moveVel h p ∧ op = 0x0403 ∧ o = opMove ∨ i = .stream h p ∧ op = 0x0404 ∧ o = opStream
      ∨ i = .vmasterSet h p ∧ op = 0x0507 ∧ o = opVmaster) →
    Passes o op h p s → (finished op h p s).moveSlots { op := op, hdr := h, payload := p } = [n] →
    let f := finished op h p s
    ∃ x q, Stages i op h {} x s (if x.append = true ∨ f.replacements n ≠ [] then s else (s.setAxb n 0xC8 (w32 q.2)).sflag n 0 true)
      ∧ x.pkt = { op := op, hdr := h, payload := p } ∧ x.slots = [n] ∧ x.eff = s.effectAt h none [n] ∧ x.append = x.pkt.appends
      ∧ q = f.planSeg n x.eff x.append (moveKind f n x.pkt ((f.ahead n x.eff).endPos x.append)) ∧ x.seg = some q.1 ∧ x.switchK = q.2)
  ∧ (∀ (k : Nat) (x : Staged) (q : Seg) (s : State) (n : Nat), Ripe k x s → x.pkt.op ∈ [0x0401, 0x0402, 0x0403, 0x0404, 0x0507] →
    x.slots = [n] → x.seg = some q → s.takesMove n = true →
    (x.append = true → s.held n x = false →
      (stagedAt k x s).axis n = { s.axis n with queue := (s.axis n).queue ++ [q], state := .moving })
    ∧ (x.append = false → x ∈ s.staged → ∃ y ∈ (stagedAt k x s).staged, y.is x.ses x.pkt.hdr.seq = true ∧ y.waiting = true ∧ y.eff = k))

/-- R307 to R310: the dovetail commands wait for their boundary. A slot that can follow is then linked to its master
with the ratio given; a new ratio scales the remainder, so that the follower keeps its position; an unlink halts. R312 to
R315: `CAM_LOAD` writes a table's header, which clears its points, or points of it; `CAM_ENGAGE` and `CAM_DISENGAGE` wait
for their boundary. The engagement waits there for the copy of its points, and then the table drives the slot; a slot
that a cam drives halts when it is disengaged. -/
def Obligations.GearCommands : Prop :=
  ((∀ (h : Hdr) (p : Bytes) (s : State), Clear h p s →
    (Passes opLink 0x0501 h p s → Stages (.dovetailLink h p) 0x0501 h {} (entry 0x0501 h p (s.targetSlots h.target.toNat) s) s s)
    ∧ (Passes opRatio 0x0502 h p s → Stages (.dovetailRatio h p) 0x0502 h {} (entry 0x0502 h p (s.targetSlots h.target.toNat) s) s s)
    ∧ (Passes (opUnlink 1 0x0501) 0x0503 h p s →
        Stages (.dovetailUnlink h p) 0x0503 h {} (entry 0x0503 h p (s.targetSlots h.target.toNat) s) s s))
  ∧ ∀ (k : Nat) (x : Staged) (s : State), Ripe k x s →
    let n := x.pkt.hdr.target.toNat
    let a := (stagedAt k x s).axis n
    (x.pkt.op = 0x0501 → s.follows n = true →
      a.state = .moving ∧ a.gear.kind = 1 ∧ a.gear.master = Bytes.num x.pkt.payload 0 2
      ∧ a.gear.num = Bytes.sint x.pkt.payload 4 4 ∧ a.gear.den = Bytes.num x.pkt.payload 8 4 ∧ a.gear.gRem = 0 ∧ a.gear.fresh = true)
    ∧ (x.pkt.op = 0x0502 → (s.axis n).gear.kind = 1 →
      a.gear =
        { (s.axis n).gear with
          num := Bytes.sint x.pkt.payload 0 4, den := Bytes.num x.pkt.payload 4 4
          gRem := (s.axis n).gear.gRem * (Bytes.num x.pkt.payload 4 4 : Nat) / (max 1 (s.axis n).gear.den : Nat) })
    ∧ (x.pkt.op = 0x0503 → (s.axis n).gear.kind = 1 → stagedAt k x s = tookHold x k (x.lateAt k) (haltAxis n s)))
  ∧ ((∀ (h : Hdr) (p : Bytes) (s : State), Clear h p s →
    (Passes opCamLoad 0x0504 h p s → ∃ e, Serves (.camLoad h p) 0x0504 h {} s e
      ∧ (Bytes.num p 4 4 = 0xFFFFFFFF →
        e = { s with camHdr := e.camHdr, camPoints := e.camPoints }
        ∧ e.cam (Bytes.num p 0 1) = some ⟨Bytes.num p 8 4, Bytes.num p 12 4, Bytes.sint p 16 8⟩
        ∧ (∀ i, i < 2048 → e.camPt (Bytes.num p 0 1) i = none)
        ∧ (∀ t, t ≠ Bytes.num p 0 1 → e.cam t = s.cam t ∧ ∀ i, i < 2048 → e.camPt t i = s.camPt t i))
      ∧ (Bytes.num p 4 4 ≠ 0xFFFFFFFF →
        e = { s with camPoints := e.camPoints }
        ∧ ∀ i, e.camPt (Bytes.num p 0 1) i =
          if Bytes.num p 4 4 ≤ i ∧ i < Bytes.num p 4 4 + (p.length - 8) / 8 then some (Bytes.sint p (8 + 8 * (i - Bytes.num p 4 4)) 8)
          else s.camPt (Bytes.num p 0 1) i))
    ∧ (Passes opCamEngage 0x0505 h p s → ∃ x, Stages (.camEngage h p) 0x0505 h {} x s s
      ∧ x.pkt = { op := 0x0505, hdr := h, payload := p } ∧ x.slots = s.targetSlots h.target.toNat ∧ x.copied = 0)
    ∧ (Passes (opUnlink 2 0x0505) 0x0506 h p s →
        Stages (.camDisengage h p) 0x0506 h {} (entry 0x0506 h p (s.targetSlots h.target.toNat) s) s s))
  ∧ ∀ (k : Nat) (x : Staged) (s : State), Ripe k x s →
    (x.pkt.op = 0x0506 → (s.axis x.slot).gear.kind = 2 → stagedAt k x s = tookHold x k (x.lateAt k) (haltAxis x.slot s))
    ∧ (x.pkt.op = 0x0505 → s.follows x.slot = true → x.copied < camN s x.pkt → stagedAt k x s = restage { x with waiting := true } s)
    ∧ (x.pkt.op = 0x0505 → s.follows x.slot = true → camN s x.pkt ≤ x.copied →
      let a := (stagedAt k x s).axis x.slot
      a.state = .moving ∧ a.gear.kind = 2 ∧ a.gear.master = Bytes.num x.pkt.payload 2 2 ∧ a.gear.table = Bytes.num x.pkt.payload 0 1
      ∧ a.gear.camAt = x.camAt ∧ a.ofs.pos = 0))

/-- R292, R298: the homing commands wait for their boundary. A homing starts with `HOMED` cleared; `HOME_SET` gives a
slot at rest its position; `HOME_ABORT` ends a homing in progress with a halt, and is otherwise without effect. R317 to R324: `LATCH_ARM`, `LATCH_DISARM` and `REGISTER_CFG` wait for their boundary, at which an input is armed for
one slot with its mode and window, or disarmed, or bound to a slot's registration. `LATCH_READ` takes the oldest
records of an input's FIFO, up to the first whose position is still to come. -/
def Obligations.HomingAndLatchCommands : Prop :=
  ((∀ (h : Hdr) (p : Bytes) (s : State), Clear h p s →
    (Passes opHomeStart 0x0601 h p s → Stages (.homeStart h p) 0x0601 h {} (entry 0x0601 h p (s.targetSlots h.target.toNat) s) s s)
    ∧ (Passes opHomeSet 0x0602 h p s → Stages (.homeSet h p) 0x0602 h {} (entry 0x0602 h p (s.targetSlots h.target.toNat) s) s s)
    ∧ (Passes opHomeAbort 0x0603 h p s → Stages (.homeAbort h p) 0x0603 h {} (entry 0x0603 h p (s.targetSlots h.target.toNat) s) s s))
  ∧ ∀ (k : Nat) (x : Staged) (s : State), Ripe k x s →
    (x.pkt.op = 0x0601 → s.follows x.slot = true →
      stagedAt k x s = tookHold x k (x.lateAt k) (homeStart x.slot (Bytes.num x.pkt.payload 0 1) s)
      ∧ ((stagedAt k x s).axis x.slot).homed = false)
    ∧ (x.pkt.op = 0x0602 → s.homeable x.slot = true →
      ((stagedAt k x s).axis x.slot).homed = true ∧ ((stagedAt k x s).axis x.slot).uncertain = false
      ∧ ((stagedAt k x s).axis x.slot).homing.outcome = 2)
    ∧ (x.pkt.op = 0x0603 → (s.axis x.slot).homing.outcome ≠ 1 → stagedAt k x s = tookHold x k (x.lateAt k) s)
    ∧ (x.pkt.op = 0x0603 → (s.axis x.slot).homing.outcome = 1 →
      stagedAt k x s = tookHold x k (x.lateAt k) (haltAxis x.slot (endHoming x.slot 3 s))))
  ∧ ((∀ (h : Hdr) (p : Bytes) (s : State), Clear h p s →
    (Passes opLatchArm 0x0701 h p s → Stages (.latchArm h p) 0x0701 h {} (entry 0x0701 h p (s.targetSlots h.target.toNat) s) s s)
    ∧ (Passes opLatchDisarm 0x0702 h p s → Stages (.latchDisarm h p) 0x0702 h {} (entry 0x0702 h p (s.targetSlots h.target.toNat) s) s s)
    ∧ (Passes opLatchRead 0x0703 h p s → Serves (.latchRead h p) 0x0703 h
        { result := ((s.latch (Bytes.num p 0 1)).taken (Bytes.num p 1 1)).flatMap fun x => x.bytes (Bytes.num p 0 1) } s
        (s.onLatch (Bytes.num p 0 1) fun l => { l with host := l.host.drop (l.taken (Bytes.num p 1 1)).length }))
    ∧ (Passes opRegister 0x0704 h p s → Stages (.registerCfg h p) 0x0704 h {} (entry 0x0704 h p (s.targetSlots h.target.toNat) s) s s))
  ∧ ∀ (k : Nat) (x : Staged) (s : State), Ripe k x s →
    let i := Bytes.num x.pkt.payload 0 1
    let l := s.latch i
    (x.pkt.op = 0x0701 → (l.slot = none ∨ l.slot = some x.slot) →
      (stagedAt k x s).latch i =
        { l with
          slot := some x.slot, mode := BitVec.ofNat 8 (Bytes.num x.pkt.payload 1 1)
          winStart := BitVec.ofNat 64 (Bytes.num x.pkt.payload 4 8), winEnd := BitVec.ofNat 64 (Bytes.num x.pkt.payload 12 8) })
    ∧ (x.pkt.op = 0x0702 → (stagedAt k x s).latch i = { l with slot := none })
    ∧ (x.pkt.op = 0x0704 → (s.axis x.slot).state.on = true → s.boundElse x.slot i = false → Bytes.num x.pkt.payload 1 1 / 2 % 2 = 1 →
      ((stagedAt k x s).latch i).bound = some x.slot ∧ ((stagedAt k x s).axis x.slot).reg.input = some i
      ∧ ((stagedAt k x s).axis x.slot).reg.falling = decide (Bytes.num x.pkt.payload 1 1 % 2 = 1))
    ∧ ∀ j, j ≠ i → (x.pkt.op = 0x0701 ∨ x.pkt.op = 0x0702) → (stagedAt k x s).latch j = s.latch j)

/-! ### Host commands: tables, kernels, units of the device -/

/-- R154, R155, R193: `TT_WRITE` writes records of an engine's shadow table, `TT_CLEAR` empties it, and `KERNEL_LOAD`
writes kernel memory and raises the engine's event. R169, R171: `BUILD_TIMETABLE` is judged as it retires. A table that fails leaves every active table as it is, and
the reply names the failure; else the tables wait for their boundary, at which each becomes its engine's active table. -/
def Obligations.TimetableCommands : Prop :=
  (∀ (h : Hdr) (p : Bytes) (s : State), Clear h p s →
    (Passes opTtWrite 0x0801 h p s → ∃ e, Serves (.ttWrite h p) 0x0801 h {} s e ∧ e = { s with shadow := e.shadow }
      ∧ ∀ j, Map.get (fun _ => ({} : StopRec)) e.shadow (Bytes.num p 0 1 * 512 + j) =
        if Bytes.num p 2 2 ≤ j ∧ j < Bytes.num p 2 2 + Bytes.num p 4 2 then stopOf (p.drop (8 + 16 * (j - Bytes.num p 2 2)))
        else Map.get (fun _ => {}) s.shadow (Bytes.num p 0 1 * 512 + j))
    ∧ (Passes opTtClear 0x0802 h p s → Serves (.ttClear h p) 0x0802 h {} s
        { s with shadow := s.shadow.filter fun e => decide (e.1 / 512 ≠ Bytes.num p 0 1) })
    ∧ (Passes opKernelLoad 0x0901 h p s → Serves (.kernelLoad h p) 0x0901 h {} s
        ((s.setLe (Bytes.num p 0 1) (0x20000 + Bytes.num p 4 4) (p.drop 8)).event (Reg.leStat (Bytes.num p 0 1)) 3)))
  ∧ ((∀ (h : Hdr) (p : Bytes) (s : State), Clear h p s → Passes opBuild 0x0803 h p s →
    (((ranAt opBuild 0x0803 h p s).reply.status ≠ 0 → ∃ e, Serves (.buildTimetable h p) 0x0803 h (ranAt opBuild 0x0803 h p s).reply s e
        ∧ e.active = s.active ∧ e.staged = s.staged)
    ∧ ((ranAt opBuild 0x0803 h p s).reply.status = 0 → ∃ x e, Stages (.buildTimetable h p) 0x0803 h (ranAt opBuild 0x0803 h p s).reply x s e
        ∧ e.active = s.active ∧ e.staged = s.staged
        ∧ x.tables.map (fun t => (t.1, t.2.2)) =
          (maskEngines { op := 0x0803, hdr := h, payload := p }).map fun n => (n, builtTable n s))))
  ∧ ∀ (k : Nat) (x : Staged) (s : State), Ripe k x s → x.pkt.op = 0x0803 →
    stagedAt k x s = tookHold x k (x.lateAt k) (x.tables.foldl (fun s t => takeBuild t.1 t.2.1 t.2.2 s) s)
    ∧ ∀ u ∈ x.tables, bit ((stagedAt k x s).reg (Reg.ttbState u.1)) 0 = true)

/-- R325, R452, R458: `FIO_SET`, `FIO_CONFIG` and `SHAFT_CONFIG` wait for their boundary, at which they write the
registers of their unit: of the field outputs, those that the mask names. R395, R507 to R510: `ACQ_CONFIG` replaces the configuration of the device it names, and one for the partner
goes there, its reply free (the model's choice, log 40); `ACQ_START`, `ACQ_STOP` and `ACQ_MARK` wait for their boundary, at which a configured unit starts from an empty buffer, or a running one notes the stop or
the mark. R464, R471, R472: `TIME_ALARM` sets and arms the alarm, `TIME_RESTEP` arms the step, and `TIME_CONFIG` writes the
configuration of network time. -/
def Obligations.UnitAndTimeCommands : Prop :=
  ((∀ (h : Hdr) (p : Bytes) (s : State), Clear h p s →
    (Passes opFioSet 0x0B01 h p s → Stages (.fioSet h p) 0x0B01 h {} (entry 0x0B01 h p [] s) s s)
    ∧ (Passes opFioConfig 0x0B03 h p s → Stages (.fioConfig h p) 0x0B03 h {} (entry 0x0B03 h p [] s) s s)
    ∧ (Passes opShaftConfig 0x0508 h p s → Stages (.shaftConfig h p) 0x0508 h {} (entry 0x0508 h p [] s) s s))
  ∧ ∀ (k : Nat) (x : Staged) (s : State), Ripe k x s →
    let t := stagedAt k x s
    (x.pkt.op = 0x0B01 → (∀ i, i < 16 → bit (t.reg Reg.fioOutCmd) i =
        if (Bytes.num x.pkt.payload 0 2).testBit i then (Bytes.num x.pkt.payload 2 2).testBit i else bit (s.reg Reg.fioOutCmd) i)
      ∧ ∀ a, a ≠ Reg.fioOutCmd → t.reg a = s.reg a)
    ∧ (x.pkt.op = 0x0B03 → t.reg Reg.fioInType = w32 (Bytes.num x.pkt.payload 0 4) ∧ t.reg Reg.fioWakeRise = w32 (Bytes.num x.pkt.payload 4 4)
      ∧ t.reg Reg.fioWakeFall = w32 (Bytes.num x.pkt.payload 8 4)
      ∧ ∀ i, i < 32 → t.reg (Reg.fioFilt i) = w32 (Bytes.num x.pkt.payload (12 + i) 1))
    ∧ (x.pkt.op = 0x0508 → Bytes.num x.pkt.payload 0 1 < 4 →
      t.reg (Reg.chnShCfg (Bytes.num x.pkt.payload 0 1)) = Bytes.word x.pkt.payload 4
      ∧ t.reg (Reg.chnShState (Bytes.num x.pkt.payload 0 1)) = 0))
  ∧ ((∀ (h : Hdr) (p : Bytes) (s : State), Clear h p s →
    (Passes opAcqConfig 0x0A01 h p s → Bytes.num p 0 1 = s.sideNo → Serves (.acqConfig h p) 0x0A01 h {} s (acqConfig p s))
    ∧ (Passes opAcqConfig 0x0A01 h p s → Bytes.num p 0 1 ≠ s.sideNo → s.acqThere { op := 0x0A01, hdr := h, payload := p } = false →
        Serves (.acqConfig h p) 0x0A01 h {} s s)
    ∧ (Passes opAcqConfig 0x0A01 h p s → s.acqThere { op := 0x0A01, hdr := h, payload := p } = true → ∃ r e, Serves (.acqConfig h p) 0x0A01 h r s e
        ∧ r.status ∈ statusCodes ∧ e = { s with draws := s.draws + 1 } ∧ ∃ t b, exec (.acqConfig h p) s = .next t ∧ Output.pair 2 19 b ∈ t.out)
    ∧ (Passes opAcqStart 0x0A02 h p s → Stages (.acqStart h p) 0x0A02 h {} (entry 0x0A02 h p [] s) s s)
    ∧ (Passes opAcqStop 0x0A03 h p s → Stages (.acqStop h p) 0x0A03 h {} (entry 0x0A03 h p [] s) s s)
    ∧ (Passes opAcqMark 0x0A04 h p s → Stages (.acqMark h p) 0x0A04 h {} (entry 0x0A04 h p [] s) s s))
  ∧ (∀ (p : Bytes) (s : State), (acqConfig p s).acq.dec = Bytes.num p 2 2 ∧ (acqConfig p s).acq.base = BitVec.ofNat 64 (Bytes.num p 8 8)
      ∧ (acqConfig p s).acq.sigs.length = Bytes.num p 1 1 ∧ (acqConfig p s).acqRunning = false ∧ (acqConfig p s).acqConfigured = true)
  ∧ ∀ (k : Nat) (x : Staged) (s : State), Ripe k x s →
    let t := stagedAt k x s
    (x.pkt.op = 0x0A02 → s.acqConfigured = true → t.acqRunning = true ∧ t.reg Reg.acqWr = 0 ∧ t.reg Reg.acqRd = 0 ∧ t.reg Reg.acqSeq = 0)
    ∧ (x.pkt.op = 0x0A03 → s.acqRunning = true → t.acqRunning = false ∧ t.acq.marks = s.acq.marks ++ [(7, zeros 16)])
    ∧ (x.pkt.op = 0x0A04 → s.acqRunning = true → t.acq.marks = s.acq.marks ++ [(4, padTo 16 (x.pkt.payload.take 4))]))
  ∧ (∀ (h : Hdr) (p : Bytes) (s : State), Clear h p s →
    (Passes opTimeAlarm 0x0C02 h p s → Serves (.timeAlarm h p) 0x0C02 h {} s
        (((s.setReg Reg.tmuAlarmSecLo (w32 (Bytes.num p 4 4))).setReg Reg.tmuAlarmNs (w32 (Bytes.num p 8 4))).setReg Reg.tmuAlarmSecHi
          (w32 (Bytes.num p 0 2 + 2 ^ 31))))
    ∧ (Passes opTimeRestep 0x0C03 h p s → ∃ e, Serves (.timeRestep h p) 0x0C03 h {} s e
        ∧ e = { s with tmu := { s.tmu with armed := true, ri := 0 }, regs := e.regs }
        ∧ bit (e.reg Reg.tmuState) 3 = false ∧ ∀ a, a ≠ Reg.tmuState → e.reg a = s.reg a)
    ∧ (Passes opTimeConfig 0x0C04 h p s → ∃ e, Serves (.timeConfig h p) 0x0C04 h {} s e
        ∧ e.reg Reg.tmuPtpCfg = w32 (Bytes.num p 0 4) ∧ e.reg Reg.tmuServo = w32 (Bytes.num p 4 4) ∧ e.reg Reg.tmuThr = w32 (Bytes.num p 8 4)
        ∧ ∀ i, i < 9 → e.reg (Reg.tmuSmpOfs i) = w32 (Bytes.num p (20 + 4 * i) 2)))

/-! ### Host commands: pair, safety, update, nameplates -/

/-- R411, R413: `PAIR_RELEASE` waits for its boundary, and `PAIR_RESYNC` is fetched by the
Active and starts a resynchronisation of a partner that is out of step; on the other device it has nothing to do. R392, R412: in a pair in step `PAIR_HANDOVER`, as every command, is fetched and waits for its mirror record's
acknowledgement; at its boundary the two devices change their roles. -/
def Obligations.PairCommands : Prop :=
  ((∀ (h : Hdr) (p : Bytes) (s : State), Clear h p s →
    (Passes opPairRelease 0x0D03 h p s → Stages (.pairRelease h p) 0x0D03 h {} (entry 0x0D03 h p [] s) s s)
    ∧ (Passes opPairResync 0x0D04 h p s → s.active? = true ∧ s.pairPhase = 2
        ∧ ∃ e, exec (.pairResync h p) s = .next e ∧ e.pairPhase = 3 ∧ e.reg (Reg.cmdRetiredSeq h.ses) = h.seq))
  ∧ (∀ (q : Packet) (k : Nat) (r : Reply) (s : State), (s.active? = false ∨ s.pairPhase ≠ 2) →
      (opPairResync.act q k r s).st = s ∧ (opPairResync.act q k r s).reply = r)
  ∧ ∀ (k : Nat) (x : Staged) (s : State), Ripe k x s → x.pkt.op = 0x0D03 → s.withPartner = true →
    stagedAt k x s = pairRelease (tookHold x k (x.lateAt k) s))
  ∧ ((∀ (h : Hdr) (s : State), s.mayFetch h.ses = true → s.inStep = true → h.seq = s.reg (Reg.cmdNextSeq h.ses) → h.dep = false →
      (s.ses h.ses).flights = [] → (∀ r ∈ (s.ses h.ses).replies, r.due = false) →
      ∃ t, exec (.pairHandover h []) s = .next t
        ∧ t.reg (Reg.cmdSqHead h.ses) = s.reg (Reg.cmdSqHead h.ses) + 1
        ∧ ∃ f, (t.ses h.ses).flights = [f] ∧ f.pkt = { op := 0x0D02, hdr := h } ∧ f.phase = .mirror)
  ∧ ∀ (k : Nat) (x : Staged) (s : State), s.inStep = true →
    opPairHandover.apply k (x.lateAt k) x s = handover (tookHold x k (x.lateAt k) s)
    ∧ (handover s).active? = !s.active?)

/-- R443, R444: the island judges `SAFE_OPEN`; `SAFE_WRITE` writes the working image but for its bytes 60 to 63;
`SAFE_CLOSE` closes the configuration. `SAFE_COMMIT` waits for the flash. -/
def Obligations.SafetyCommands : Prop :=
  ∀ (h : Hdr) (p : Bytes) (s : State), Clear h p s →
    (Passes opSafeOpen 0x0E01 h p s → s.island.lockout = 0 → s.safeBusy = none →
        (Bytes.num p 0 4 = if s.island.valid then s.img 8 4 else 0) →
        ∃ e, Serves (.safeOpen h p) 0x0E01 h {} s e ∧ e.island.st = 3 ∧ e.island.fails = 0 ∧ e.island.working = s.island.committed)
    ∧ (Passes opSafeOpen 0x0E01 h p s → s.island.lockout = 0 → s.island.fails < 3 →
        (Bytes.num p 0 4 ≠ if s.island.valid then s.img 8 4 else 0) →
        ∃ e, Serves (.safeOpen h p) 0x0E01 h (refusal ST.auth 0) s e ∧ e.island.st = s.island.st ∧ e.island.fails = s.island.fails + 1
          ∧ (e.island.fails = 3 → e.island.lockout = 240000))
    ∧ (Passes opSafeWrite 0x0E02 h p s → ∃ e, Serves (.safeWrite h p) 0x0E02 h {} s e
        ∧ ∀ o, o < 2048 → Map.get (fun _ => 0) e.island.working o =
          if Bytes.num p 0 2 ≤ o ∧ o < Bytes.num p 0 2 + Bytes.num p 2 2 ∧ ¬ (60 ≤ o ∧ o < 64)
          then BitVec.ofNat 8 (Bytes.num p (4 + (o - Bytes.num p 0 2)) 1) else Map.get (fun _ => 0) s.island.working o)
    ∧ (Passes opSafeCommit 0x0E04 h p s → ∃ e, Waits (.safeCommit h p) 0x0E04 h {} s e
        ∧ e.island.writing = some (h.ses, h.seq) ∧ e.island.committed = s.island.committed
        ∧ e.island.commit = some (checkedImage (imageBytes s.island.working)))
    ∧ (Passes opSafeClose 0x0E05 h p s → ∃ e, Serves (.safeClose h p) 0x0E05 h {} s e
        ∧ e.island.st ≠ 3 ∧ e.island.working = [] ∧ e.island.commit = none)

/-- R526: an update of a single device or of a drive head. `UPDATE_BEGIN` opens it; `UPDATE_DATA` puts device data into the
bank that is not running, and a head's image into shared SRAM, at its offset; `UPDATE_COMMIT` judges the image, and makes a
good one ready or sends a head's to it, whose answer it awaits. `UPDATE_ACTIVATE` of a device image writes the bank record
with an activation number one above the other bank's, writes its reply, and then restarts the device; that of a head
image asks the head and awaits its answer. R528, R530: `NP_BIND` and `WEAR_REPLACE` wait for their boundary. A readable identity then starts the account; a
bind with `UNBIND` ends it. -/
def Obligations.UpdateAndPlateCommands : Prop :=
  (∀ (h : Hdr) (p : Bytes) (s : State), Clear h p s → s.paired = false →
    (Passes opUpdateBegin 0x0F01 h p s → Serves (.updateBegin h p) 0x0F01 h {} s
        (s.onInn fun i => { i with update := some ({ dest := Bytes.num p 0 1, station := Bytes.num p 2 2
                                                     port := if Bytes.num p 0 1 = 1 then s.westOf (Bytes.num p 1 1) else Bytes.num p 1 1
                                                     size := Bytes.num p 4 4, last := s.inn.uptime } : Update) }))
    ∧ (∀ u, Passes opUpdateData 0x0F02 h p s → s.inn.update = some u → u.dest = 0 → ∃ e, Serves (.updateData h p) 0x0F02 h {} s e
        ∧ e = (s.setFlash (bankBase s.openBank + Bytes.num p 0 4) (p.drop 4)).onInn fun i =>
          { i with update := some { u with last := s.inn.uptime, received := Bytes.num p 0 4 + (p.length - 4) } })
    ∧ (∀ u, Passes opUpdateCommit 0x0F03 h p s → s.inn.update = some u → u.dest = 0 →
        let st := imageStatus (touchUnit 0x0F03 s) (s.flashRun (bankBase s.openBank) u.size)
        ∃ e, Serves (.updateCommit h p) 0x0F03 h (if st = ST.ok then {} else refusal st 0) s e
          ∧ e.inn.update = some { u with last := s.inn.uptime, committed := u.committed || decide (st = ST.ok) } ∧ bit (e.reg Reg.mgtStat) 5 = true)
    ∧ (∀ u, Passes opUpdateData 0x0F02 h p s → s.inn.update = some u → u.dest = 1 → ∃ e, Serves (.updateData h p) 0x0F02 h {} s e
        ∧ e.sram = (sramWrite s (sramOwn + Bytes.num p 0 4) (p.drop 4)).2.sram
        ∧ e.inn.update = some { u with last := s.inn.uptime, received := Bytes.num p 0 4 + (p.length - 4) })
    ∧ (∀ u, Passes opUpdateCommit 0x0F03 h p s → s.inn.update = some u → u.dest = 1 →
        (sramRead (touchUnit 0x0F03 s) sramOwn u.size).1.2 = none →
        imageStatus (touchUnit 0x0F03 s) (sramRead (touchUnit 0x0F03 s) sramOwn u.size).1.1 = ST.ok →
        ∃ e, Waits (.updateCommit h p) 0x0F03 h {} s e
          ∧ (e.port u.port).side.reqs.length = (s.port u.port).side.reqs.length + 2 + (u.size + 199) / 200
          ∧ e.inn.update = some { u with last := s.inn.uptime, waiting := some (h.ses, h.seq) })
    ∧ (∀ u, Passes opUpdateActivate 0x0F04 h p s → s.inn.update = some u → u.dest = 1 →
        ∃ e, Waits (.updateActivate h p) 0x0F04 h {} s e
          ∧ (e.port u.port).side.reqs = (s.port u.port).side.reqs ++ [leBytes 1 u.station ++ leBytes 1 0x23]
          ∧ e.inn.update = some { u with last := s.inn.uptime, waiting := some (h.ses, h.seq) }))
  ∧ (∀ (h : Hdr) (s : State) (u : Update), Clear h [] s → s.paired = false → Passes opUpdateActivate 0x0F04 h [] s →
    s.inn.update = some u → u.dest = 0 →
    ∃ w, exec (.updateActivate h []) s = .next (settle (resetDevice 4 none w))
      ∧ Answered 0x0F04 h {} s w
      ∧ w.inn.banks = Map.set (fun _ => {}) s.inn.banks s.openBank { act := ((s.bankRec (1 - s.openBank)).act + 1) % 2 ^ 32, valid := true })
  ∧ ((∀ (h : Hdr) (p : Bytes) (s : State), Clear h p s →
    (Passes opNpBind 0x1002 h p s → Stages (.npBind h p) 0x1002 h {} (entry 0x1002 h p (s.targetSlots h.target.toNat) s) s s)
    ∧ (Passes opWearReplace 0x1004 h p s → Stages (.wearReplace h p) 0x1004 h {} (entry 0x1004 h p (s.targetSlots h.target.toNat) s) s s))
  ∧ ∀ (k : Nat) (x : Staged) (s : State), Ripe k x s →
    let n := x.slot
    let q := x.pkt
    (q.op = 0x1002 → q.n 3 1 = 1 → stagedAt k x s = tookHold x k (x.lateAt k) (s.setWear n (q.n 0 1) {}))
    ∧ (q.op = 0x1002 → q.n 3 1 ≠ 1 → identityOk (s.plate (s.platePlace n (q.n 1 1) (q.n 2 1))) = true →
      ((stagedAt k x s).wearOf n (q.n 0 1)).state = 1
      ∧ ((stagedAt k x s).wearOf n (q.n 0 1)).ident = (s.plate (s.platePlace n (q.n 1 1) (q.n 2 1))).take 128)
    ∧ (q.op = 0x1002 → q.n 3 1 ≠ 1 → identityOk (s.plate (s.platePlace n (q.n 1 1) (q.n 2 1))) = false →
      stagedAt k x s = failed x ST.nameplate s)
    ∧ (q.op = 0x1004 → s.axOff n = true → (s.wearOf n (q.n 0 1)).state ≠ 0 →
      identityOk (s.plate (s.platePlace n (s.wearOf n (q.n 0 1)).source (s.wearOf n (q.n 0 1)).np)) = true →
      ((stagedAt k x s).wearOf n (q.n 0 1)).state = 1))

/-! ### The register interface (R36 to R66, R97, R98) -/

/-- R45, R47, R51, R54, R57: a 32-bit write of a plain register takes the bits of its writable fields and discards the
held value of its window; a write of a read-only register, or one that is too narrow or unaligned, does only the
latter; a read of a read-clear register shows it and clears its bits, any other plain read shows its value; a device
that does not serve its host link ignores both. R87: while a reset is held, or without its supplies, the device serves no access of the host link. -/
def Obligations.RegisterAccesses : Prop :=
  (∀ (a : Nat) (v : Word) (p : Place) (r : RegDef) (s : State),
    s.serves = true → a % 4 = 0 → a < 0x3E0000 → decodeAddr a = some p → p.compl = false → p.reg = some r →
    s.answers p.win p.inst = true →
    (r.acc = .rw → p.addr ≠ Reg.fioOutCmd → p.win ∈ [0x01, 0x03, 0x05, 0x08, 0x09, 0x0A, 0x0E, 0x10, 0x11, 0x12, 0x13, 0x14, 0x16] →
      Gives (.registerWrite a (wordBytes v)) s
        ((dropHold p.win s).setReg p.addr ((s.reg p.addr &&& ~~~ w32 r.wmask) ||| (v &&& w32 r.wmask))))
    ∧ (r.acc = .ro → Gives (.registerWrite a (wordBytes v)) s (dropHold p.win s))
    ∧ (∀ d, r.acc = .rw → p.addr ≠ Reg.fioOutCmd → p.win ∈ [0x01, 0x03, 0x05, 0x08, 0x09, 0x0A, 0x0E, 0x10, 0x11, 0x12, 0x13, 0x14, 0x16] →
      (a + 4) / 0x10000 = p.win → 1 ≤ d.length → d.length ≤ 3 → Gives (.registerWrite a (wordBytes v ++ d)) s
        ((dropHold p.win s).setReg p.addr ((s.reg p.addr &&& ~~~ w32 r.wmask) ||| (v &&& w32 r.wmask))))
    ∧ (∀ b d, b / 0x10000 = p.win → (d.length ≤ 4 ∨ d.length = 8) → ¬ (d.length = 4 ∧ b % 4 = 0) → ¬ (d.length = 8 ∧ b % 8 = 0) →
      Gives (.registerWrite b d) s (dropHold p.win s))
    ∧ (r.acc = .rc → Gives (.readClearRead a 4) s
        ((s.lower p.addr (w32 r.rcmask)).onBus fun b => { b with rdata := wordBytes (s.view p.win p.inst p.addr) }))
    ∧ ((r.acc = .ro ∨ r.acc = .rw ∨ r.acc = .gw) → p.addr ≠ Reg.tmuNowNs → notYetValid p.addr = false → (p.addr = Reg.pwrClk → s.power.phase ≠ .secondStage) →
      Gives (.readClearRead a 4) s (s.onBus fun b => { b with rdata := wordBytes (s.view p.win p.inst p.addr) })))
  ∧ (∀ (a : Nat) (d : Bytes) (v : Word) (s : State), s.serves = false →
    Gives (.registerWrite a d) s s ∧ Gives (.latchedLoWrite a v) s s ∧ Gives (.latchedHiWrite a v) s s
    ∧ Gives (.guardedValueWrite a v) s s ∧ Gives (.guardedComplementFault a v) s s ∧ Gives (.swiSet v) s s ∧ Gives (.irqEoi v) s s)

/-- R50: the low word of a latched pair, read, gives its value and captures the high word, which a read of the high word
then gives; a write of the low word waits in the pair's hold, and a write of the high word writes both. -/
def Obligations.LatchedPairs : Prop :=
  ∀ (a : Nat) (v : Word) (p : Place) (r : RegDef) (s : State),
    s.serves = true → a % 4 = 0 → decodeAddr a = some p → p.compl = false → p.reg = some r → s.answers p.win p.inst = true →
    (r.acc = .pairLo → Gives (.latchedLoRead a) s
        (s.onBus fun b => { b with rhold := Map.set (fun _ => 0) b.rhold p.addr (s.reg (p.addr + 4))
                                   rdata := wordBytes (s.view p.win p.inst p.addr) }))
    ∧ (r.acc = .pairHi → Gives (.latchedHiRead a) s
        (s.onBus fun b => { b with rdata := wordBytes (Map.get (fun _ => 0) b.rhold (p.addr - 4)) }))
    ∧ ((p.win = 0x02 → s.forwards = false) → (p.win = 0x07 → firmwareCh (runOf p.addr 0x70100 0x20) = false) →
      (r.acc = .pairLo → Gives (.latchedLoWrite a v) s
        ((dropHold p.win s).onBus fun b => { b with whold := Map.set (fun _ => 0) b.whold p.addr v }))
      ∧ (r.acc = .pairHi → Gives (.latchedHiWrite a v) s
        (((dropHold p.win s).setReg (p.addr - 4) (Map.get (fun _ => 0) s.bus.whold (p.addr - 4))).setReg p.addr v)))
    ∧ (p.win = 0x07 → firmwareCh (runOf p.addr 0x70100 0x20) = true → (r.acc = .pairLo ∨ r.acc = .pairHi) →
      Gives (.latchedLoWrite a v) s (chStat (runOf p.addr 0x70100 0x20) 5 (dropHold 0x07 s))
      ∧ Gives (.latchedHiWrite a v) s (chStat (runOf p.addr 0x70100 0x20) 5 (dropHold 0x07 s)))
    ∧ (p.win = 0x02 → s.forwards = true → (r.acc = .pairLo → Gives (.latchedLoWrite a v) s (dropHold p.win s))
      ∧ (r.acc = .pairHi → Gives (.latchedHiWrite a v) s (dropHold p.win s)))

/-- R53, R55: the first write of a guarded register is held; the write of the complement completes it when it is the
complement of what is held at that place. Any other write of a complement is ignored and discards the hold; a read of the
complement region gives zero; every reset discards the hold. -/
def Obligations.GuardedWrites : Prop :=
  (∀ (a : Nat) (v : Word) (p : Place) (s : State),
    s.serves = true → a % 4 = 0 → a < 0x3E0000 → decodeAddr a = some p →
    (∀ r, p.compl = false → p.reg = some r → r.acc = .gw → s.answers p.win p.inst = true → Gives (.guardedValueWrite a v) s
        ((dropHold p.win s).onBus fun b => { b with guard := Map.set (fun _ => none) b.guard p.win (some { inst := p.inst, off := p.off, val := v }) }))
    ∧ (p.compl = true → s.answers p.win p.inst = true →
      Map.get (fun _ => none) s.bus.guard p.win = some { inst := p.inst, off := p.off, val := ~~~ v } →
      Gives (.guardedComplementFault a v) s (guardedReg p (~~~ v) (dropHold p.win s)))
    ∧ (p.compl = true → Map.get (fun _ => none) s.bus.guard p.win ≠ some { inst := p.inst, off := p.off, val := ~~~ v } →
      Gives (.guardedComplementFault a v) s (dropHold p.win s))
    ∧ (p.compl = true → Gives (.readClearRead a 4) s (s.onBus fun b => { b with rdata := [0, 0, 0, 0] })))
  ∧ ∀ (straps : BitVec 14) (rails : BitVec 3) (n : Nat) (s : State),
    (s.power.clockHold = true → s.power.mainOk = true → Brings .referenceRecovered s fun t => t.bus.guard = [])
    ∧ Brings (.powerOnReset straps) s (fun t => t.bus.guard = [])
    ∧ (s.power.mainOk = false → Brings (.mainSupplyRestored straps) s fun t => t.bus.guard = [])
    ∧ (s.power.mainOk = true → Brings (.pinReset straps) s fun t => t.bus.guard = [])
    ∧ (rails ≠ 0 → s.up = true → Brings (.runSupplyReset rails) s fun t => t.bus.guard = [])
    ∧ (s.serves = true → Brings .softwareReset s (fun t => t.bus.guard = []) ∧ Brings .innkeeperWatchdogExpiry s (fun t => t.bus.guard = []))
    ∧ (s.coreSilent n = true → Brings (.coreWatchdogExpiry n) s fun t => t.bus.guard = [])
    ∧ (s.up = true → n < 3 → Brings (.pllLossOfLock n) s fun t => t.bus.guard = [])

/-- R63, R65, R461: a software interrupt sets its event, an end of interrupt arms its source, and a read of `NOW_NS`
captures the time of one tick. -/
def Obligations.SystemRegisters : Prop :=
  ∀ (v : Word) (s : State), s.serves = true →
    (bit v 0 = true → Gives (.swiSet v) s ((dropHold 0 s).event Reg.sysStat 3))
    ∧ (bit v 0 = false → Gives (.swiSet v) s (dropHold 0 s))
    ∧ (bits v 4 0 < 28 → Gives (.irqEoi v) s ((dropHold 0 s).arm (bits v 4 0) true))
    ∧ (28 ≤ bits v 4 0 → Gives (.irqEoi v) s (dropHold 0 s))
    ∧ (s.power.phase ≠ .firstStage → ∃ u, Gives .nowNsRead s u
      ∧ u.bus.rdata = wordBytes (w32 (s.tmu.ns % 10 ^ 9)) ∧ u.reg Reg.tmuNowNs = w32 (s.tmu.ns % 10 ^ 9)
      ∧ u.reg Reg.tmuNowSecLo = w32 (s.tmu.ns / 10 ^ 9) ∧ u.reg Reg.tmuNowSecHi = w32 (s.tmu.ns / 10 ^ 9 / 2 ^ 32 % 2 ^ 16)
      ∧ u.reg Reg.tmuNowFrac = w32 s.tmu.frac ∧ u.reg64 Reg.tmuNowPerLo Reg.tmuNowPerHi = s.periodNow % 2 ^ 64
      ∧ u = { s with regs := u.regs, bus := u.bus })

/-- R97, R98: quad-SPI reaches the registers and the shared SRAM word by word when it is the host link, and does nothing
otherwise; a last word that the chip select cuts off is ignored. -/
def Obligations.QuadSpi : Prop :=
  ∀ (a : Nat) (v : Word) (s : State),
    (s.qspi = false → Gives (.qspiWrite a [v] false) s s ∧ Gives (.qspiRead a 1) s s ∧ Gives .qspiPing s s)
    ∧ (s.qspi = true → s.serves = true →
      Gives .qspiPing s (s.onBus fun b => { b with rdata := wordBytes (s.reg Reg.sysId) })
      ∧ (∀ p r, a % 4 = 0 → a < 0x3E0000 → decodeAddr a = some p → p.compl = false → p.reg = some r →
        s.answers p.win p.inst = true → r.acc = .ro →
        Gives (.qspiWrite a [v] false) s (dropHold p.win s) ∧ Gives (.qspiWrite a [v] true) s (dropHold p.win s)
        ∧ (p.addr ≠ Reg.tmuNowNs → notYetValid p.addr = false → (p.addr = Reg.pwrClk → s.power.phase ≠ .secondStage) →
          Gives (.qspiRead a 1) s (s.onBus fun b => { b with rdata := wordBytes (s.view p.win p.inst p.addr) })))
      ∧ (0x1000000 ≤ a → a < 0x1C00000 → a % 4 = 0 →
        Gives (.qspiWrite a [v] false) s (hostSramWrite s (a - 0x1000000) (wordBytes v)) ∧ Gives (.qspiWrite a [v] true) s s))

/-! ### Supplies, clocks, resets, boot (R67 to R93) -/

/-- R68, R69, R70, R73, R74, R87, R520: every kind of reset, what brings it, and what it keeps. After a fall of VBAK the
restart is a power-on reset, and the retained memory is gone. While the reference is outside its window a reset stays
held until it recovers. -/
def Obligations.Resets : Prop :=
  ∀ (v : BitVec 14) (rails : BitVec 3) (n : Nat) (s : State),
    let kind := fun k => if s.power.vbakFell then 0 else k
    let unsampled := fun k t => ∃ w, (s.power.vbakFell = false → w = s.power.straps) ∧ Restarted (kind k) w s t
    let held := fun k (t : State) => t.serves = false ∧ t.power.clockHold = true ∧ t.power.holdKind = min s.power.holdKind k
      ∧ t.power.straps = v ∧ t.power.mainOk = true ∧ t.tmu.boundaries = false ∧ t.sessions = []
    (s.power.clockHold = false →
      Brings (.powerOnReset v) s (Restarted 0 v s)
      ∧ (s.power.mainOk = false → Brings (.mainSupplyRestored v) s (Restarted (kind 1) v s))
      ∧ (s.power.mainOk = true → Brings (.pinReset v) s (Restarted (kind 2) v s)))
    ∧ (s.power.clockHold = true →
      Brings (.powerOnReset v) s (held 0)
      ∧ (s.power.mainOk = false → Brings (.mainSupplyRestored v) s (held 1))
      ∧ (s.power.mainOk = true → Brings (.pinReset v) s (held 2)))
    ∧ (rails ≠ 0 → s.up = true → Brings (.runSupplyReset rails) s fun t =>
      unsampled 3 t ∧ bit (t.reg Reg.pwrStat) 3 = true)
    ∧ (s.serves = true → Brings .softwareReset s (unsampled 4))
    ∧ (s.coreSilent n = true → Brings (.coreWatchdogExpiry n) s fun t =>
      unsampled 5 t ∧ t.inn.watchdog = some n)
    ∧ (s.serves = true → Brings .innkeeperWatchdogExpiry s (unsampled 5))
    ∧ (s.up = true → n < 3 → Brings (.pllLossOfLock n) s (unsampled 6))
    ∧ (s.power.clockHold = true → s.power.mainOk = true → Brings .referenceRecovered s (unsampled s.power.holdKind))
    ∧ (s.power.clockHold = true → s.power.mainOk = false → Gives .referenceRecovered s
        ((s.raise Reg.pwrClk 1#32).onPower fun p => { p with clockHold := false }))

/-- R68, R70, R73, R75, R93: losses. A main supply's holds the device in DORMANT; a reference's holds it in reset, and
no period boundary follows; VBAK's loses the retained memory and multi-turn counts; the crystal's stops the latter;
a run supply shows in `PWR.SUPPLY`. R95, R503: without its clock or link PCIe is down, its MSI-X state reset and every open session paused; with the
link up again they resume, as they do when bus mastering is enabled again. -/
def Obligations.Losses : Prop :=
  (∀ (rails : BitVec 3) (n : Nat) (up : Bool) (s : State),
    (rails ≠ 0 → s.power.mode ≠ .dormant → Brings (.mainSupplyLoss rails) s fun t =>
      t.power.mode = .dormant ∧ t.serves = false ∧ t.power.mainOk = false ∧ t.reg Reg.pwrSupply = s.reg Reg.pwrSupply &&& ~~~ mainMask rails
      ∧ t.tmu.boundaries = false ∧ t.sessions = [] ∧ t.sram = [] ∧ t.journal = s.journal ∧ t.mts = s.mts ∧ t.die.cmd = 0)
    ∧ (∀ i, i = .referenceStopped ∨ i = .referenceOutOfWindow → s.power.mode ≠ .dormant → s.power.clockHold = false →
      Brings i s fun t => t.power.mode = .standby ∧ t.power.clockHold = true ∧ t.serves = false ∧ t.tmu.boundaries = false
        ∧ bit (t.reg Reg.pwrClk) 0 = false ∧ t.sessions = [] ∧ t.sram = [] ∧ t.journal = s.journal ∧ t.mts = s.mts ∧ t.die.cmd = 0)
    ∧ Brings .vbakLost s (fun t => t.power = { s.power with vbakFell := true } ∧ t.journal = [] ∧ t.inn.buffer = [] ∧ t.mts = []
      ∧ bit (t.reg Reg.pwrSupply) 6 = false)
    ∧ (bit (s.reg Reg.pwrClk) 1 = true → s.power.mode ≠ .dormant → Brings .kaXtalFail s fun t =>
      bit (t.reg Reg.pwrClk) 1 = false ∧ bit (t.reg Reg.pwrStat) 4 = true ∧ t = { s with regs := t.regs, out := t.out, bus := t.bus }
      ∧ ∀ ch, ch < 8 → bit (t.reg (Reg.fbkMtMstat ch)) 0 = false ∧ bit (t.reg (Reg.fbkMtMstat ch)) 2 = true)
    ∧ Gives .kaXtalRestart s (s.raise Reg.pwrClk 2#32)
    ∧ (n = 2 ∨ n = 4 ∨ n = 5 → s.serves = true → bit (s.reg Reg.pwrSupply) n ≠ up → (up = true ∨ s.up = false) →
      Gives (.supplyEvt n up) s
        (((if up then s.raise Reg.pwrSupply (bitw n) else s.lower Reg.pwrSupply (bitw n))).event Reg.pwrStat 3)))
  ∧ (∀ s : State, s.qspi = false →
    (∀ i, i = .pcieClockLoss ∨ i = .pcieLinkDown → Brings i s fun t =>
      t.power = { s.power with pcieUp := false, busMaster := false, pcieClk := t.power.pcieClk } ∧ t.bus.msixTable = []
      ∧ (i = .pcieClockLoss → t.power.pcieClk = false) ∧ (i = .pcieLinkDown → t.power.pcieClk = s.power.pcieClk)
      ∧ (s.up = true → ∀ n, n < 4 → s.sesState n ≠ 0 → (t.ses n).paused = true)
      ∧ ((∀ ch, ch < 32 → (s.dch ch).desc = none) → t = { s with power := t.power, bus := t.bus, sessions := t.sessions, regs := t.regs, out := t.out }))
    ∧ (s.serves = true → Brings .pcieLinkUp s fun t => t.power = { s.power with pcieUp := true, pcieClk := true, busMaster := true }
      ∧ ∀ n, n < 4 → (t.ses n).paused = false)
    ∧ (s.power.pcieUp = true → Brings (.busMasterEnableWrite true) s (fun t => t.power.busMaster = true)
      ∧ Brings (.busMasterEnableWrite false) s fun t => t.power.busMaster = false))

/-- R83, R90, R92: a request for READY starts the second stage in STANDBY, does nothing in READY, continues a host load,
and is refused elsewhere; one for STANDBY starts the drain of R122 in READY, does nothing in STANDBY, and is refused
in RUN. R90, R451, R471, R485: an enabled wake event moves the device from STANDBY to READY, and its cause is noted; an alarm
is spent by firing. R84, R85, R122, R504: the stages of a start and their ends. -/
def Obligations.PowerStates : Prop :=
  (∀ s : State, s.serves = true →
    let s1 := dropHold 1 s
    (s.power.mode = .standby → s.power.phase = .idle → bit (s.reg Reg.pwrBist) 16 = false → s.runSuppliesOk = true →
      Gives .pwrReqReady s (s1.onPower fun p =>
        { p with target := .ready, phase := .secondStage, imageGiven := false, secondFailed := [], locks := 0, wakeCause := 1 }))
    ∧ (s.power.mode = .standby → s.power.phase = .idle → (bit (s.reg Reg.pwrBist) 16 = true ∨ s.runSuppliesOk = false) →
      Gives .pwrReqReady s (s1.event Reg.pwrStat 1))
    ∧ (s.power.mode = .standby → s.power.phase = .hostLoad →
      Gives .pwrReqReady s (s1.onPower fun p => { p with phase := .secondStage, imageGiven := true }))
    ∧ (s.power.mode = .ready → s.power.phase = .idle → Gives .pwrReqReady s s1)
    ∧ (s.power.mode = .ready → s.power.phase = .idle →
      Gives .pwrReqStandby s (s1.onPower fun p => { p with target := .standby, phase := .drain, wakeHeld := 0 }))
    ∧ (s.power.mode = .standby → s.power.phase = .idle → Gives .pwrReqStandby s s1)
    ∧ (s.power.mode = .run → Gives .pwrReqReady s (s1.event Reg.pwrStat 1) ∧ Gives .pwrReqStandby s (s1.event Reg.pwrStat 1)))
  ∧ (∀ (n : Nat) (edge : Bool) (s : State),
    s.power.mode = .standby → s.power.phase = .idle → bit (s.reg Reg.pwrBist) 16 = false → s.runSuppliesOk = true →
    let ready := fun (c : Nat) (t : State) => t.power =
      { s.power with target := .ready, phase := .secondStage, imageGiven := false, secondFailed := [], locks := 0, wakeCause := BitVec.ofNat 8 (2 ^ (c + 2)) }
    (s.cap 4 = true → n < 32 → s.die.linkUp = true → bit (s.reg (if edge then Reg.fioWakeRise else Reg.fioWakeFall)) n = true →
      Brings (.fieldWakeEdge n edge) s fun t => bit (t.reg Reg.fioStat) 5 = true ∧ (bit (s.reg Reg.pwrWakeEn) 0 = true → ready 0 t)
        ∧ (bit (s.reg Reg.pwrWakeEn) 0 = false → t.power = s.power))
    ∧ (n < 4 → s.cap (14 + n) = true → bit (s.reg Reg.pwrWakeEn) (1 + n) = true → Brings (.canWakePattern n) s (ready (1 + n)))
    ∧ (n < 4 → s.cap (14 + n) = true → bit (s.reg Reg.pwrWakeEn) (1 + n) = false → Gives (.canWakePattern n) s s)
    ∧ (s.counts = true → bit (s.reg Reg.tmuAlarmSecHi) 31 = true → Brings .timeAlarmFire s fun t =>
      bit (t.reg Reg.tmuAlarmSecHi) 31 = false ∧ bit (t.reg Reg.tmuStat) 5 = true ∧ s.alarmNs ≤ t.tmu.ns
      ∧ (bit (s.reg Reg.pwrWakeEn) 5 = true → ready 5 t)))
  ∧ (∀ (failed : List Nat) (ok : Bool) (s : State),
    (s.power.phase = .firstStage → s.power.mode = .standby → Brings (.firstStageDone failed ok) s fun t => t.power.mode = .standby
      ∧ t.power.firstFailed = (failed.filter firstUnit).eraseDups ∧ t.inn.watchdog = none ∧ t.inn.flashOk = ok ∧ (t.power.phase = .idle ∨ t.power.phase = .secondStage))
    ∧ (s.power.phase = .secondStage → s.power.mode = .standby → s.power.imageGiven = false → s.power.secondFailed = [] → s.power.firstFailed = []
      → (s.bootSource.1 = 1 ∨ s.bootSource.1 = 2) →
      Brings (.awaitingHostImage []) s fun t => t.power.phase = .hostLoad ∧ t.field Reg.pwrBoot 7 4 = 5 ∧ t.sram = [] ∧ t.power.loadAt = s.inn.uptime)
    ∧ (s.power.phase = .hostLoad → Brings .hostLoadTimeout s fun t => t.power.phase = .idle ∧ t.power.mode = s.power.mode
      ∧ t.field Reg.pwrBoot 7 4 = 6 ∧ bit (t.reg Reg.pwrStat) 1 = true ∧ s.power.loadAt + 10000000000 ≤ t.inn.uptime)
    ∧ (s.power.phase = .secondStage → s.power.mode = .standby → (s.bootSource.1 = 0 ∨ s.bootSource.1 = 3) →
      s.power.firstFailed = [] → s.power.secondFailed = [] → (∃ u, u ∈ failed ∧ 0x40 ≤ u ∧ s.secondUnit u = true) → Brings (.secondStageDone failed) s fun t =>
      t.power.mode = .standby ∧ t.power.phase = .idle ∧ bit (t.reg Reg.pwrBist) 16 = true ∧ bit (t.reg Reg.pwrStat) 1 = true)
    ∧ (s.power.phase = .secondStage → s.power.mode = .standby → s.bootSource.1 = 3 → s.power.firstFailed = [] → s.power.secondFailed = [] →
      Brings (.secondStageDone []) s fun t => t.power.recovery = true
        ∧ (t.power.phase = .ringTrain ∨ t.power.mode = .ready ∧ t.power.phase = .idle ∧ bit (t.reg Reg.pwrStat) 0 = true))
    ∧ (s.power.phase = .drain → s.power.mode = .ready → s.dmaBusy = false → (s.drained = true ∨ ok = true) → s.power.wakeHeld = 0 →
      Brings (.standbyPowerDown ok) s fun t => t.power.mode = .standby ∧ t.power.phase = .idle ∧ bit (t.reg Reg.pwrStat) 0 = true
        ∧ t.sram = [] ∧ t.sessions = [] ∧ t.journal = s.journal)
    ∧ (s.power.phase = .drain → (s.drained = true ∨ ok = true ∨ s.power.cut = true) → s.dmaBusy = true →
      Gives (.standbyPowerDown ok) s (s.onPower fun p => { p with cut := true }))
    ∧ (∀ ch, s.power.phase = .drain → s.power.cut = true → ch < 32 →
      Brings (.powerDownDeferExpiry ch) s fun t => t.dch ch = {} ∧ t.dmaState ch = 0 ∧ t.power = s.power))

/-! ### Sessions and the Porter (R100 to R127) -/

/-- R102, R121, R123, R124, R125: opening, halting, resuming and closing a session, and the writes of its ring indices. -/
def Obligations.SessionLife : Prop :=
  ∀ (n : Nat) (lo hi : Byte) (v : Word) (s : State), s.cmdUp n = true → s.answers 0x02 n = true → s.forwards = false →
    let s1 := dropHold 2 s
    let st := fun (t : State) => t.sesState n
    let c : SesCfg :=
      { cfg := s.reg (Reg.cmdCfg n), sqBase := BitVec.ofNat 64 (s.reg64 (Reg.cmdSqBaseLo n) (Reg.cmdSqBaseHi n))
        cqBase := BitVec.ofNat 64 (s.reg64 (Reg.cmdCqBaseLo n) (Reg.cmdCqBaseHi n)) }
    let j := s.jrn n
    (s.sesState n = 0 → s.paired = false → ¬ (lo ≤ 0x10 ∧ 0x10 ≤ hi) → Brings (.cmdOpen n lo hi) s fun t =>
      st t = 0 ∧ t.field (Reg.cmdState n) 19 16 = 6 ∧ bit (t.reg (Reg.cmdStat n)) 1 = true ∧ t.journal = s.journal)
    ∧ (s.sesState n = 0 → s.paired = false → lo ≤ 0x10 → 0x10 ≤ hi → s.ringsFit c = false → Brings (.cmdOpen n lo hi) s fun t =>
      st t = 0 ∧ t.field (Reg.cmdState n) 19 16 = 5 ∧ bit (t.reg (Reg.cmdStat n)) 1 = true ∧ t.journal = s.journal)
    ∧ (s.sesState n = 0 → s.paired = false → lo ≤ 0x10 → 0x10 ≤ hi → s.ringsFit c = true → Brings (.cmdOpen n lo hi) s fun t =>
      st t = 2 ∧ (t.ses n).opened = c ∧ bit (t.reg (Reg.cmdStat n)) 0 = true ∧ (t.jrn n).isOpen = true
      ∧ t.reg (Reg.cmdAcceptedSeq n) = t.reg (Reg.cmdNextSeq n) - 1 ∧ t.reg (Reg.cmdRetiredSeq n) = t.reg (Reg.cmdNextSeq n) - 1
      ∧ t.reg (Reg.cmdSqHead n) = 0 ∧ t.reg (Reg.cmdSqTail n) = 0 ∧ t.reg (Reg.cmdCqHead n) = 0 ∧ t.reg (Reg.cmdCqTail n) = 0
      ∧ ((j.copyA || j.copyB) = false → t.reg (Reg.cmdNextSeq n) = s.reg (Reg.cmdBaseSeq n) ∧ bit (t.reg (Reg.cmdStat n)) 6 = true)
      ∧ ((j.copyA || j.copyB) = true → j.isOpen = false → t.reg (Reg.cmdNextSeq n) = s.reg (Reg.cmdBaseSeq n))
      ∧ ((j.copyA || j.copyB) = true → j.isOpen = true → j.accepted = j.retired → t.reg (Reg.cmdNextSeq n) = j.retired + 1)
      ∧ ((j.copyA || j.copyB) = true → j.isOpen = true → j.accepted ≠ j.retired → t.reg (Reg.cmdNextSeq n) = j.accepted + 1
        ∧ t.reg (Reg.cmdDiscFirst n) = j.retired + 1 ∧ t.reg (Reg.cmdDiscLast n) = j.accepted ∧ bit (t.reg (Reg.cmdStat n)) 5 = true))
    ∧ (s.sesState n ≠ 0 → Gives (.cmdOpen n lo hi) s s1)
    ∧ (s.sesState n = 3 → Gives (.cmdResume n) s
      (((s1.setField (Reg.cmdState n) 2 0 (if (s.ses n).closing then 4 else 2)).setField (Reg.cmdState n) 19 16 0).onSes n fun x =>
        { x with stuck := false, closing := false }))
    ∧ (s.sesState n = 2 ∨ s.sesState n = 3 → Gives (.cmdClose n) s (s1.setField (Reg.cmdState n) 2 0 4))
    ∧ (s.sesState n = 4 → (s.ses n).flights = [] → (s.ses n).replies = [] → Brings (.sessionClosed n) s fun t =>
      st t = 0 ∧ bit (t.reg (Reg.cmdStat n)) 2 = true ∧ (t.jrn n).isOpen = false ∧ t.ses n = {})
    ∧ (s.sesState n ≠ 0 → (v - s.reg (Reg.cmdSqHead n)).toNat ≤ (s.ses n).opened.depth →
      Gives (.sqTail n v) s (s1.setReg (Reg.cmdSqTail n) v))
    ∧ (s.sesState n ≠ 0 → (s.ses n).opened.depth < (v - s.reg (Reg.cmdSqHead n)).toNat → Brings (.sqTail n v) s fun t =>
      st t = 3 ∧ t.field (Reg.cmdState n) 19 16 = 3 ∧ t.reg (Reg.cmdSqTail n) = s.reg (Reg.cmdSqTail n))
    ∧ (s.sesState n ≠ 0 → (v - s.reg (Reg.cmdCqHead n)).toNat ≤ (s.reg (Reg.cmdCqTail n) - s.reg (Reg.cmdCqHead n)).toNat →
      Gives (.cqHead n v) s ((s1.setReg (Reg.cmdCqHead n) v).onSes n fun x =>
        { x with waiting := x.waiting.drop (v - s.reg (Reg.cmdCqHead n)).toNat }))
    ∧ (s.sesState n ≠ 0 → (s.reg (Reg.cmdCqTail n) - s.reg (Reg.cmdCqHead n)).toNat < (v - s.reg (Reg.cmdCqHead n)).toNat →
      Brings (.cqHead n v) s fun t => st t = 3 ∧ t.field (Reg.cmdState n) 19 16 = 3 ∧ t.reg (Reg.cmdCqHead n) = s.reg (Reg.cmdCqHead n))

/-- R107: a packet whose sequence number is not `NEXT_SEQ` halts the session with cause 1 and its number in `BAD_SEQ`;
one whose length field exceeds 496 halts it with cause 2; in both cases `SQ_HEAD` does not move, and nothing is
accepted. Any other packet is accepted, whatever its opcode, target and payload (here: outside a pair
in step). The packet lies in host memory or in shared SRAM, where its words read without an uncorrectable one. -/
def Obligations.BadPacketsHalt : Prop :=
  ∀ (n : Nat) (slot : Bytes) (s : State), s.mayFetch n = true → s.reg (Reg.cmdSqHead n) ≠ s.reg (Reg.cmdSqTail n) →
    let c := (s.ses n).opened
    let r := (sramRead s (sramBase c.sqBase + (s.reg (Reg.cmdSqHead n)).toNat % c.depth * 512) 512).1
    (c.sqSram = true → r.2 = none) →
    let k := packetOf n (if c.sqSram then r.1 else padTo 512 slot)
    (k.1.hdr.seq ≠ s.reg (Reg.cmdNextSeq n) → Brings (.packetFetch n slot) s fun t =>
      t.sesState n = 3 ∧ t.field (Reg.cmdState n) 19 16 = 1 ∧ t.reg (Reg.cmdBadSeq n) = k.1.hdr.seq
      ∧ t.reg (Reg.cmdSqHead n) = s.reg (Reg.cmdSqHead n) ∧ t.sessions = s.sessions ∧ t.journal = s.journal ∧ t.porter = s.porter)
    ∧ (k.1.hdr.seq = s.reg (Reg.cmdNextSeq n) → 496 < k.2 → Brings (.packetFetch n slot) s fun t =>
      t.sesState n = 3 ∧ t.field (Reg.cmdState n) 19 16 = 2
      ∧ t.reg (Reg.cmdSqHead n) = s.reg (Reg.cmdSqHead n) ∧ t.sessions = s.sessions ∧ t.journal = s.journal ∧ t.porter = s.porter)
    ∧ (k.1.hdr.seq = s.reg (Reg.cmdNextSeq n) → k.2 ≤ 496 → s.inStep = false → Brings (.packetFetch n slot) s fun t =>
      t.sesState n = s.sesState n ∧ t.reg (Reg.cmdAcceptedSeq n) = k.1.hdr.seq
      ∧ t.reg (Reg.cmdSqHead n) = s.reg (Reg.cmdSqHead n) + 1)

/-- R96, R105, R108, R111 to R114, R116, R126: a good packet is accepted, its task parked or ready; a core takes the next
ready task and ends it; finished commands retire and replies are written; ticks move delay entries; a dependency
that waits too long, a run that is too long and a host-bus error are told of. -/
def Obligations.CommandPath : Prop :=
  ∀ (n : Nat) (slot : Bytes) (q : Word) (s : State), s.cmdUp n = true →
    let k := (packetOf n (padTo 512 slot)).1
    (s.mayFetch n = true → s.reg (Reg.cmdSqHead n) ≠ s.reg (Reg.cmdSqTail n) → (s.ses n).opened.sqSram = false →
      k.hdr.seq = s.reg (Reg.cmdNextSeq n) → (packetOf n (padTo 512 slot)).2 ≤ 496 → s.inStep = false →
      Brings (.packetFetch n slot) s fun t => t.reg (Reg.cmdSqHead n) = s.reg (Reg.cmdSqHead n) + 1
        ∧ t.reg (Reg.cmdAcceptedSeq n) = k.hdr.seq ∧ t.reg (Reg.cmdNextSeq n) = k.hdr.seq + 1 ∧ (t.jrn n).accepted = k.hdr.seq
        ∧ (t.ses n).flights.length = (s.ses n).flights.length + 1)
    ∧ (Brings .porterTick s fun t => t.reg Reg.ptrTick = s.reg Reg.ptrTick + 1
      ∧ (∀ p, t.readyList p = s.readyList p ++ ((s.porter.delay.filter fun e => seqLe e.1 (s.reg Reg.ptrTick + 1) && decide (e.2.1 = p)).map
          fun e => { e.2.2 with since := s.inn.uptime }))
      ∧ (∀ e ∈ s.porter.delay, seqLe e.1 (s.reg Reg.ptrTick + 1) = false → e ∈ t.porter.delay)
      ∧ t.porter.wait = s.porter.wait ∧ t.porter.cores = s.porter.cores ∧ t.sessions = s.sessions)
    ∧ (∀ c p x r, s.coreIdle c = true → s.nextReady = some p → s.readyList p = x :: r → Brings (.taskDispatch c) s fun t =>
      t.coreTask c = some x ∧ t.readyList p = r ∧ (t.reg Reg.ptrDispatchCnt).toNat = min (2 ^ 32 - 1) ((s.reg Reg.ptrDispatchCnt).toNat + 1))
    ∧ (∀ c x, c < 4 → s.coreTask c = some x → 4 ≤ x.ses → Gives (.taskFinish c) s (firmwareEnds c x s))
    ∧ (∀ c x f, c < 4 → s.coreTask c = some x → x.ses < 4 → (s.ses x.ses).flights.find? (fun g => g.seq = x.seq) = some f → f.phase = .running →
      Gives (.taskFinish c) s (finishFlight x.ses x.seq (interpret (s.setCore c none) f) (s.setCore c none)))
    ∧ (∀ c x, s.coreTask c = some x → Gives (.coreStall c) s (s.event Reg.ptrStat 2))
    ∧ (∀ f, (s.ses n).flights.find? (fun g => g.seq = q) = some f → f.phase = .parked → s.depState f = 1 →
      Brings (.dependencyTimeout n q) s fun t => ∃ g, g ∈ (t.ses n).flights ∧ g.pkt = f.pkt ∧ g.phase = .finished
        ∧ g.reply = some { status := ST.busy, result := detail 0 })
    ∧ (∀ f r rest, (s.ses n).flights = f :: rest → f.phase = .finished → f.reply = some r → r.status ≠ 0 → s.mayRetire n f r = true →
      Brings (.retirement n) s fun t => t.reg (Reg.cmdRetiredSeq n) = f.seq ∧ (t.jrn n).retired = f.seq
        ∧ (t.ses n).flights.length = rest.length ∧ t.staged = s.staged)
    ∧ (∀ r, (s.ses n).ready = some r → s.mayReply n = true → s.inStep = false → s.byProxy n = false → (s.ses n).opened.cqSram = false →
      s.inn.resetDue = none → Brings (.replyWrite n) s fun t => t.reg (Reg.cmdCqTail n) = s.reg (Reg.cmdCqTail n) + 1
        ∧ Output.hostWrite ((s.ses n).opened.cqBase + BitVec.ofNat 64
            ((s.reg (Reg.cmdCqTail n)).toNat % (s.ses n).opened.depth * (s.ses n).opened.cqSlot))
          ((r.bytes n).take (s.ses n).opened.cqSlot) ∈ t.out
        ∧ (t.ses n).replies = (s.ses n).replies.filter fun g => g.seq ≠ r.seq)
    ∧ (s.mayFetch n = true → (s.ses n).opened.sqSram = false → s.reg (Reg.cmdSqHead n) ≠ s.reg (Reg.cmdSqTail n) →
      Brings (.hostBusError n true) s fun t => t.sesState n = 3 ∧ t.field (Reg.cmdState n) 19 16 = 4 ∧ bit (t.reg (Reg.cmdStat n)) 3 = true)
    ∧ (∀ w r, (s.ses n).waiting = w :: r → s.field (Reg.cmdCqCoal n) 31 16 ≠ 0 → seqLe (w + w32 (s.field (Reg.cmdCqCoal n) 31 16)) (s.reg Reg.ptrTick) = true →
      Gives (.cqCoalTimeout n) s (s.event (Reg.cmdStat n) 4))

/-! ### The control period: boundary, sampling, stops, sealing (R13 to R21, R78, R156 to R165) -/

/-- R13, R15, R16, R78, R119, R148: `PERIOD_BOUNDARY`, `SAMPLE_TIME` and `SEALING` complete in every state. While the reference
ticks, a boundary begins the next period at its time and does the boundary's work; in STANDBY it only counts. At each
sample time the rings and local channels due then sample, once a period; the island's local sources do so below READY
too. The sealing of a period comes once. Without reference ticks there is neither boundary nor sealing, and in a held
reset no sample. Work of a Standby's period that still waits for the Active's samples is done first (R399; the model's
choice, log 40); on any other device none waits. -/
def Obligations.PeriodInstants : Prop :=
  -- PERIOD_BOUNDARY
  (∀ s : State, s.counts = true → s.up = true →
    let u := catchUp s
    let k := u.tmu.period + 1
    Gives .periodBoundary s
      (boundaryWork k ((u.advanceTo (k * u.tBase)).onTmu fun t => { t with period := k, sealed := false, sampled := [] })))
  ∧ (∀ s : State, s.counts = true → s.up = false → Brings .periodBoundary s fun t =>
      t.tmu.period = s.tmu.period + 1 ∧ (s.tmu.period + 1) * s.tBase ≤ t.tmu.ns
      ∧ t = { s with tmu := t.tmu, inn := t.inn, out := t.out, bus := t.bus })
  ∧ (∀ s : State, s.counts = false → Gives .periodBoundary s s)
  -- SEALING
  ∧ (∀ s : State, s.counts = true → s.up = true → s.tmu.sealed = false →
      let u := catchUp s
      let v := u.advanceTo (u.tmu.period * u.tBase + u.sealNs)
      Gives .sealing s ((sealWork v.tmu.period v).onTmu fun t => { t with sealed := true }))
  ∧ (∀ s : State, (s.counts = false ∨ s.up = false ∨ s.tmu.sealed = true) → Gives .sealing s s)
  ∧ (∀ s : State, s.pair.swDue = false → catchUp s = s)
  -- SAMPLE_TIME
  ∧ (∀ (i : Nat) (l : List Nat) (s : State), s.serves = true → s.sampleDue = i :: l →
      Gives .sampleTime s (((i :: l).foldl sampleUnit (s.advanceTo (s.sampleNs i))).onTmu fun t => { t with sampled := i :: l ++ t.sampled }))
  ∧ (∀ (i : Nat) (l : List Nat) (s : State), s.serves = true → s.sampleDue = i :: l → Brings .sampleTime s fun t =>
      s.sampleNs i ≤ t.tmu.ns ∧ t.tmu.sampled = i :: l ++ s.tmu.sampled
      ∧ ∀ j, j ∈ i :: l → j < 8 → ∀ st, st < (s.stationsOf j).length → ∀ c, c < s.headChans j st → ((t.head (32 * j + st)).ch c).record.length = 8)
  ∧ (∀ s : State, s.serves = true → s.sampleDue = [8] → Gives .sampleTime s
      ((islandLocal (if s.up then sampleLocal (s.advanceTo (s.sampleNs 8)) else s.advanceTo (s.sampleNs 8))).onTmu fun t =>
        { t with sampled := 8 :: t.sampled }))
  ∧ (∀ s : State, (s.serves = false ∨ s.sampleDue = []) → Gives .sampleTime s s)

/-- R78, R157, R160 to R163, R186: `STOP_VISIT`, `STOP_COMPLETE`, `STOP_ABORT`, `URGENT_TRIGGER`, `URGENT_STOP_COMPLETE` and
`ISLAND_CLOCK_RESTART` complete on every engine whose table runs. The sequencer takes the entries of its table in order:
it passes over those that do not run, drops those whose predecessor was dropped, whose input has not come or whose
deadline cannot be met, and starts the others in a cleared bank; a stop that ends is committed, and what urgent stops
held for it is written after it; one that its deadline passes is dropped without a trace; after the last entry the
queued background work runs, and then the island's clock is gated until 40 ns before the next boundary. An urgent stop
starts at its trigger, once a period, within its window; one that corrects a registration starts at its `EARLIEST`. -/
def Obligations.SequencerVisits : Prop :=
  let next := fun (s : State) (le : Nat) =>
    List.find? (fun x => !x.2.urgent && decide ((s.eng le).index ≤ x.1)) (tableOf s.active le)
  let free := fun (s : State) (le : Nat) => (s.eng le).main = none ∧ (s.eng le).urgent = none ∧ (s.eng le).ended = false
  -- STOP_VISIT past the last entry
  (∀ (le : Nat) (s : State), s.engineRuns le = true → free s le → next s le = none → (s.eng le).bg = none →
    ((s.eng le).work = 0 → Gives (.stopVisit le) s
      ((s.onEng le fun e => { e with ended := true, bg := none, bgUsed := 0 }).raise (Reg.ttbState le) 4#32))
    ∧ ((s.eng le).work ≠ 0 → Gives (.stopVisit le) s (s.onEng le fun e => { e with bg := some e.now })))
  ∧ (∀ (le b : Nat) (s : State), s.engineRuns le = true → free s le → next s le = none → (s.eng le).bg = some b →
    let w := (s.eng le).work
    (s.sealNs * 4 / 5 < b + w → Gives (.stopVisit le) s s)
    ∧ (b + w ≤ s.sealNs * 4 / 5 → Brings (.stopVisit le) s fun u => (u.eng le).ended = true ∧ (u.eng le).bgUsed = w
      ∧ (u.eng le).now = b + w ∧ (u.eng le).work = 0 ∧ bit (u.reg (Reg.ttbState le)) 2 = true))
  -- STOP_VISIT of entry `i`
  ∧ (∀ (le i : Nat) (r : StopRec) (s : State), s.engineRuns le = true → free s le → next s le = some (i, r) →
    let e := s.eng le
    let t := max e.now (r.earliest * 32)
    let sT := s.advanceTo (s.cycleNs t)
    let sF := if r.input = 9 then fbkExpire (sT.fbkCh r.slot) sT else sT
    let past := fun (n : Nat) (u : State) => u.onEng le fun e => { e with index := i + 1, now := n }
    (s.stopRuns r = false → Gives (.stopVisit le) s (past (e.now + 1) s))
    ∧ (s.stopRuns r = true → r.pred ≠ 0xFFFF → r.pred ∈ e.dropped → Gives (.stopVisit le) s (past (t + 1) (drop le i 2 sT)))
    ∧ (s.stopRuns r = true → (r.pred = 0xFFFF ∨ r.pred ∉ e.dropped) → sF.inputsOf r = none →
      Gives (.stopVisit le) s (past (t + 1) (drop le i 0 sF)))
    ∧ (∀ inp, s.stopRuns r = true → (r.pred = 0xFFFF ∨ r.pred ∉ e.dropped) → sF.inputsOf r = some inp →
      r.deadline * 32 < t + sF.wcet le r → Gives (.stopVisit le) s (past (t + 1) (drop le i 1 sF)))
    ∧ (∀ inp, s.stopRuns r = true → (r.pred = 0xFFFF ∨ r.pred ∉ e.dropped) → sF.inputsOf r = some inp →
      t + sF.wcet le r ≤ r.deadline * 32 → Brings (.stopVisit le) s fun u =>
        (u.eng le).main = some ⟨i, t, t + sF.runTime le r⟩ ∧ (u.eng le).index = i + 1
        ∧ Map.get (fun _ => []) (u.eng le).inputs i = inp
        ∧ (u.eng le).mainBank = Bank.dispatch r.slot s.tmu.period r.param inp))
  ∧ (∀ (le : Nat) (s : State), s.engineRuns le = false ∨ ¬ free s le → Gives (.stopVisit le) s s)
  -- STOP_COMPLETE
  ∧ (∀ (le : Nat) (m : Running) (s : State), s.engineRuns le = true → (s.eng le).main = some m → (s.eng le).preempted = false →
    m.fin ≤ (s.act (le * 512 + m.stop)).deadline * 32 → Brings (.stopComplete le) s fun u =>
      (u.eng le).main = none ∧ (u.eng le).now = m.fin + (s.eng le).heldTime ∧ m.stop ∈ (u.eng le).completed
      ∧ u.reg (Reg.ttbLastDone le) = w32 m.fin ∧ (u.eng le).heldStores = [] ∧ (u.eng le).heldRegs = [])
  -- STOP_ABORT
  ∧ (∀ (le : Nat) (m : Running) (s : State), s.engineRuns le = true → (s.eng le).main = some m →
    (s.act (le * 512 + m.stop)).deadline * 32 < m.fin → Brings (.stopAbort le) s fun u =>
      (u.eng le).main = none ∧ m.stop ∈ (u.eng le).dropped ∧ u.exchNext = s.exchNext
      ∧ ((s.eng le).urgent.isSome = true ∨ (s.eng le).waiting = [] → u.droppedStops = s.droppedStops + 1)
      ∧ ((s.eng le).urgent.isSome = true ∨ (s.eng le).waiting = [] ∧ (s.eng le).heldStores = [] ∧ (s.eng le).heldRegs = [] → u.leMem = s.leMem))
  -- URGENT_TRIGGER
  ∧ (∀ (le i : Nat) (s : State), s.engineRuns le = true →
    let r := s.act (le * 512 + i)
    let e := s.eng le
    let own := r.kernel = 0x60 ∧ 0x20 ≤ r.input ∧ r.input < 0x40
    let now := (s.tmu.ns - s.tmu.period * s.tBase) * 4 / 5
    let start := if own then r.earliest * 32 else now
    r.urgent = true → s.stopRuns r = true →
      (¬ own → (i ∈ e.fired ∨ now < r.earliest * 32 ∨ r.deadline * 32 ≤ now) → Gives (.urgentTrigger le i) s (s.event (Reg.ttbStat le) 3))
      ∧ (own → i ∈ e.fired → Gives (.urgentTrigger le i) s s)
      ∧ (∀ inp, i ∉ e.fired → (own ∨ r.earliest * 32 ≤ now ∧ now < r.deadline * 32) →
        start + s.wcet le r ≤ r.deadline * 32 → r.pred = 0xFFFF → e.urgent = none → e.main = none →
        (urgentInputs r s).1 = some inp → Brings (.urgentTrigger le i) s fun u =>
          (u.eng le).urgent = some ⟨i, start, start + s.runTime le r⟩ ∧ i ∈ (u.eng le).fired
          ∧ Map.get (fun _ => []) (u.eng le).inputs i = inp ∧ bit (u.reg (Reg.ttbState le)) 2 = false
          ∧ (u.eng le).shadowBank = Bank.dispatch r.slot s.tmu.period r.param inp))
  -- URGENT_STOP_COMPLETE
  ∧ (∀ (le : Nat) (m : Running) (s : State), s.engineRuns le = true → (s.eng le).urgent = some m → (s.eng le).waiting = [] →
    Brings (.urgentStopComplete le) s fun u =>
      (u.eng le).urgent = none ∧ (u.eng le).preempted = false ∧ m.stop ∈ (u.eng le).completed
      ∧ u.reg (Reg.ttbLastDone le) = w32 m.fin ∧ (u.eng le).main = (s.eng le).main)
  -- ISLAND_CLOCK_RESTART
  ∧ (∀ (le : Nat) (s : State), s.engineRuns le = true → (s.eng le).ended = true → s.field (Reg.ttbState le) 25 16 ≠ 0 →
    Gives (.islandClockRestart le) s ((s.advanceTo ((s.tmu.period + 1) * s.tBase - 40)).lower (Reg.ttbState le) 4#32))

/-- R163, R164: what a drop does: the stop's count, the engine's count for the reason, `LAST_DROP`, the event and the
device's count; the slot's output is stale. No other stop's count and no exchange record changes. -/
def Obligations.DropsAreCounted : Prop :=
  ∀ (le i reason : Nat) (s : State), reason < 3 →
    let t := drop le i reason s
    let r := s.act (le * 512 + i)
    let cnt := fun m => match m with | 0 => Reg.ttbDropIn le | 1 => Reg.ttbDropLate le | _ => Reg.ttbDropPred le
    t.act (le * 512 + i) = { r with drops := min 0xFFFF (r.drops + 1) } ∧ (∀ m, m ≠ le * 512 + i → t.act m = s.act m)
    ∧ i ∈ (t.eng le).dropped ∧ (∀ m, m ≠ le → t.eng m = s.eng m)
    ∧ (t.reg (cnt reason)).toNat = min (2 ^ 32 - 1) ((s.reg (cnt reason)).toNat + 1)
    ∧ t.reg (Reg.ttbLastDrop le) = w32 (i + 512 * reason + s.tmu.period % 65536 * 65536)
    ∧ bit (t.reg (Reg.ttbStat le)) 1 = true ∧ t.droppedStops = s.droppedStops + 1
    ∧ (r.noSlot = false → (t.axis r.slot).dropped = true) ∧ t.exchange = s.exchange ∧ t.exchNext = s.exchNext ∧ t.leMem = s.leMem

/-- R165, R239, R293, R295, R296, R327: what an axis faults for, and how a homing ends: a fault's cause is collected, and
a homing that fails has outcome 4; a hard stop that has been pressed long enough ends the search at the position
reached; a shaft channel that missed too many deposits holds its position. -/
def Obligations.AxisEvents : Prop :=
  ∀ (n : Nat) (s : State),
    let h := (s.axis n).homing
    (s.running = true → n < s.part.slots → s.axisType n ≠ 0 → bit (s.axWord n 0x98) 4 = true → Gives (.feedbackFault n) s (s.cause n ST.feedback))
    ∧ (s.running = true → (s.axis n).state.on = true → 2 ≤ (s.axis n).stale → s.groupOf n = none → Brings (.dropsFault n) s fun t =>
      (t.axis n).state = .fault ∧ (t.axis n).queue = [] ∧ (t.axis n).causes = [])
    ∧ (h.outcome = 1 → h.method ≠ 6 → (s.homeSwitches n).any (fun x => x.chatters (s.debounce n) (s.pn n 0x708)) = true →
      Brings (.homingChatterAbort n) s fun t => (t.axis n).homing.outcome = 4 ∧ ST.homeChatter ∈ (t.axis n).causes
        ∧ ∀ m, m ≠ n → t.axis m = s.axis m)
    ∧ (h.outcome = 1 → h.method ≠ 6 → h.halting = false → h.phase < 5 → s.pn n 0x707 ≠ 0 →
      s.pn n 0x707 * 2 ^ 24 < (wrap64 (s.ax64 n 0x10 - h.start)).natAbs →
      Brings (.homingNotFound n) s fun t => (t.axis n).homing.outcome = 4 ∧ ST.homeNotFound ∈ (t.axis n).causes
        ∧ ∀ m, m ≠ n → t.axis m = s.axis m)
    ∧ (h.outcome = 1 → h.method = 6 → h.phase = 4 → h.back = 0 → s.pn n 0x70A ≤ h.satRun → Brings (.hardStopFound n) s fun t =>
      (t.axis n).homing.phase = 5 ∧ (t.axis n).queue = [] ∧ (t.axis n).inSeg = false ∧ ∀ m, m ≠ n → t.axis m = s.axis m)
    ∧ (n < 4 → s.shOn n = true → 0 < s.shMissMax n → s.shMissMax n ≤ (s.shaft n).misses → bit (s.reg (Reg.chnShState n)) 1 = false →
      Brings (.shaftChannelLost n) s fun t => bit (t.reg (Reg.chnShState n)) 1 = true ∧ bit (t.reg Reg.chnStat) (5 + n) = true
        ∧ (t.shaft n).vel = 0 ∧ (t.shaft n).pos = (s.shaft n).pos
        ∧ ∀ m, m ∈ s.slots → (s.axis m).gear.kind ≠ 0 → (s.axis m).gear.master = 0x200 + n → ST.link ∈ (t.axis m).causes)

/-! ### The drive rings and their heads (R359 to R385, R558) -/

/-- R365, R366, R367, R368, R380, R558: the training of a ring port: hops agree on a version, one that trains again changes the speed and
the budget of a ring that is up, the discovery and delay frames take the port through its phases, wiring that contradicts the
configuration and the 10 ms bound fail it, and a ring whose ports have measured comes up at all its ports. A guarded write trains a port
again in READY, or asks for reclosing. R373, R378, R379, R382: a whole frame within its budget counts, its good segments are kept and a
bad one is told of; a frame that is not whole, or does not come by the deadline, does not count; segments come from the partner too; a
station that stays bad is lost; a request of either side queue that stays unanswered is given up. -/
def Obligations.RingTraffic : Prop :=
  (∀ (p hop : Nat) (a b : Byte) (deskew wrong : Bool) (ds : List (Nat × Nat × Nat × Nat)) (at_ : Nat) (lat trip : Nat) (diffs : List Nat) (s : State),
    let v := hopVersion (if hop = 0 then Nat.land a.toNat (if bit (s.port p).cfg 1 then 2 else 6) else a.toNat) b.toNat deskew
    let w := s.westOf p
    let e := (s.port p).partner
    (s.ringsOn = true → s.ringThere p = true →
      (s.ringPhase p = 1 → v ≠ 0 → Brings (.hopTrained p hop a b deskew) s fun t => Map.get (fun _ => 7) (t.port p).hopVer hop = v
        ∧ t.ringPhase p = (if hop = 0 then 2 else 1))
      ∧ (s.ringPhase p = 1 → v = 0 → Brings (.hopTrained p hop a b deskew) s fun t => bit (t.reg (Reg.vlkStat p)) 9 = true ∧ t.ringPhase p = 1)
      ∧ (s.ringPhase p = 4 → v ≠ 0 → hop ≤ (s.stationsOf w).length → p ∈ s.ringPorts w → Brings (.hopTrained p hop a b deskew) s fun t =>
        t.ringPhase p = 4 ∧ Map.get (fun _ => 7) (t.port p).hopVer hop = v ∧ bit (t.reg (Reg.vlkState p)) 3 = t.ringSlow w
        ∧ t.reg (Reg.vlkBudget p) = w32 (min 0xFFFF (t.ringBudget w)))
      ∧ (s.ringPhase p = 1 ∨ s.ringPhase p = 2 →
        (s.miswired p at_ wrong = true → Gives (.discoveryFrame p ds at_ wrong) s (readyIfSettled ((s.setField (Reg.vlkState p) 2 0 5).event (Reg.vlkStat p) 1)))
        ∧ (s.miswired p at_ wrong = false → Brings (.discoveryFrame p ds at_ wrong) s fun t =>
          t.ringPhase p = 3 ∧ (t.port p).discovered = true ∧ (t.port p).stations.length = min 32 ds.length
          ∧ ((s.port p).topo = 1 → at_ = e → s.ringPhase e = 1 ∨ s.ringPhase e = 2 → t.ringPhase e = 3)
          ∧ ((s.port p).topo ≠ 0 → at_ = p → bit (t.reg (Reg.vlkState p)) 4 = true)))
      ∧ (s.ringPhase p = 3 → (s.stationsOf (s.westOf p)).length ≤ 32 → Brings (.delayFrame p trip diffs lat) s fun t => (t.port p).measured = true ∧ (t.port p).cable = trip - lat
        ∧ t.reg (Reg.vlkCable p) = w32 (min 0xFFFF (trip - lat)))
      ∧ (hop < 32 → Brings (.delaySet p hop wrong lat) s fun t =>
        (if wrong then (t.head (32 * s.westOf p + hop)).delayW else (t.head (32 * s.westOf p + hop)).delayE) = some lat)
      ∧ (s.ringReady w = true → s.halvesJoin w = false → Gives (.ringUp p) s s)
      ∧ (s.ringReady w = true → s.halvesJoin w = true → s.ringPhase w ≠ 4 → Brings (.ringUp p) s fun t =>
        (∀ q ∈ s.ringPorts w, t.ringPhase q = 4 ∧ bit (t.reg (Reg.vlkStat q)) 0 = true ∧ t.field (Reg.vlkState q) 15 8 = (s.stationsOf w).length % 256
          ∧ t.reg (Reg.vlkBudget q) = w32 (min 0xFFFF (s.ringBudget w)))
        ∧ (∀ i st, i < 32 → (s.stationsOf w)[i]? = some st → t.headChans w i = st.channels)
        ∧ ∀ i, i < 32 → (s.port w).topo = 0 → i + 1 = (s.stationsOf w).length → (t.head (32 * w + i)).loopE = true)
      ∧ (1 ≤ s.ringPhase p → s.ringPhase p ≤ 3 → Brings (.trainFail p) s fun t =>
        t.ringPhase p = 5 ∧ bit (t.reg (Reg.vlkStat p)) 1 = true ∧ (s.port p).trainAt + 10000000 ≤ t.inn.uptime))
    ∧ (s.answers 0x10 p = true → s.power.mode = .ready → Gives (.retrain p) s (trainPort p (dropHold 0x10 s)))
    ∧ (s.answers 0x10 p = true → s.ringPhase p = 4 → Gives (.reclose p) s ((dropHold 0x10 s).onPort (s.westOf p) fun x => { x with reclose := true })))
  ∧ (∀ (p i c ns : Nat) (frame seg : Bytes) (s : State), s.ringUp p = true →
    let w := s.westOf p
    let chans := s.ringChans w
    let tail := frame.drop (frame.length - 16)
    let whole := frame.length = 272 + 60 * chans.length ∧ Bytes.num tail 12 4 = crc32 (tail.take 12)
    let inBudget := ns ≤ s.field (Reg.vlkBudget p) 15 0 * 40
    (whole → inBudget → (s.port p).closed = false → (s.port p).arrived = false → (∀ st ∈ s.stationsOf w, st.channels ≤ 4) →
      Brings (.returningFrame p ns frame) s fun t => t.reg (Reg.vlkRetLast p) = w32 (min 0xFFFF ns) ∧ (t.port p).arrived = true
        ∧ ∀ (j : Nat) (x : Nat × Nat), chans[j]? = some x →
          (s.segGood (frameSeg frame j) x = true → Map.find? (t.port w).good (4 * x.1 + x.2) = some (segWords (frameSeg frame j)))
          ∧ (s.segGood (frameSeg frame j) x = false → Map.find? (t.port w).good (4 * x.1 + x.2) = Map.find? (s.port w).good (4 * x.1 + x.2)
            ∧ bit (t.reg (Reg.vlkStat p)) 6 = true))
    ∧ (¬ (whole ∧ inBudget ∧ (s.port p).closed = false ∧ (s.port p).arrived = false) → Brings (.returningFrame p ns frame) s fun t =>
      t.reg (Reg.vlkRetLast p) = w32 (min 0xFFFF ns) ∧ t.ports = s.ports)
    ∧ ((s.port p).closed = false → (s.port p).arrived = false → Brings (.returnDeadline p) s fun t => (t.port p).closed = true
      ∧ bit (t.reg (Reg.vlkStat p)) 5 = true ∧ (t.reg (Reg.vlkLateCnt p)).toNat = min (2 ^ 32 - 1) ((s.reg (Reg.vlkLateCnt p)).toNat + 1))
    ∧ ((s.port p).closed = false → (s.port p).arrived = true → Brings (.returnDeadline p) s fun t => (t.port p).closed = true
      ∧ t.reg (Reg.vlkLateCnt p) = s.reg (Reg.vlkLateCnt p))
    ∧ ((s.port p).topo = 3 → s.paired = true → (i, c) ∈ s.ringChans p → (s.port p).closed = false → (s.segGood seg (i, c)) = true →
      Map.find? (s.port p).good (4 * i + c) = none → Brings (.forwardedSegment p i c seg) s fun t =>
        Map.find? (t.port p).good (4 * i + c) = some (segWords seg) ∧ (4 * i + c) ∈ (t.port p).fwd)
    ∧ (∀ st, (s.stationsOf w)[i]? = some st → Nat.max 1 (bits (s.port w).cfg 15 8) ≤ st.bad → i < 32 →
      bit (s.reg (Reg.vlkLostMap w)) i = false → Brings (.stationLost p i) s fun t =>
        (∀ q ∈ s.ringPorts w, bit (t.reg (Reg.vlkLostMap q)) i = true ∧ bit (t.reg (Reg.vlkStat q)) 4 = true)
        ∧ ∀ n ch, ch < st.channels → n ∈ s.axesOf w i ch → ST.link ∈ (t.axis n).present ∧ (s.axOn n = true → ST.link ∈ (t.axis n).causes))
    ∧ (s.inn.update = none → (s.port p).side.busy = true → 64 ≤ (s.port p).side.age → Brings (.sideFail p) s fun t =>
      (t.port p).side.reqs = (s.port p).side.reqs.drop 1 ∧ (t.port p).side.busy = false ∧ bit (t.reg (Reg.vlkStat p)) 7 = true)
    ∧ ((s.port p).side.busy = false → (s.port p).plate.busy = true → 64 ≤ (s.port p).plate.age → Brings (.sideFail p) s fun t =>
      (t.port p).plate.reqs = (s.port p).plate.reqs.drop 1 ∧ (t.port p).plate.busy = false ∧ bit (t.reg (Reg.vlkStat p)) 7 = true))

/-- R369, R371, R376, R377, R381, R383: a drive head: a frame passes, and an outbound one on an end whose delay is set gives the head its
boundary and its words, those of the Active's frame apart; from a lost link's side no frame comes, and from the other it is sent back; at
the apply time an `ACTIVE` word drives the stage, `DISABLED` switches it off, a second stale one switches it off too, and so does a
second period without a frame; torque off and stage faults; an update only while every channel is disabled. -/
def Obligations.DriveHeads : Prop :=
  ∀ (p i c : Nat) (b : Bool) (frame : Bytes) (s : State), s.hasHead (s.westOf p) i = true → c < s.headChans (s.westOf p) i →
    let k := 32 * s.westOf p + i
    let h := s.head k
    let n := s.headChans (s.westOf p) i
    let before := ((List.range i).map (s.headChans (s.westOf p))).sum
    let flags := Bytes.num frame 1 1
    let data := Bytes.num frame 28 4 = crc32 (frame.take 28) ∧ (Bytes.num frame 0 1 = 1 ∨ Bytes.num frame 0 1 = 2)
    let outbound := flags.testBit 1 = false ∧ b = !flags.testBit 3
    let word := if !h.usable then none else match (h.ch c).wordA with | some x => some x | none => (h.ch c).wordB
    ((if b then h.loopW else h.loopE) = false → Brings (.headFrameReceive p i b frame) s fun t =>
      (∃ f l, Output.head (s.westOf p) i (b != l) f ∈ t.out ∧ ((if b then h.loopE else h.loopW) = true → l = true)
        ∧ (data → l = (if b then h.loopE else h.loopW) ∧ f.length = frame.length)
        ∧ (48 ≤ frame.length → l = true → (Bytes.num f 1 1).testBit 1 = true))
      ∧ (data → outbound → (if flags.testBit 3 then h.delayE else h.delayW).isSome = true →
        (t.head k).period = Bytes.word frame 4 ∧ (t.head k).usable = true ∧ (t.head k).missed = 0)
      ∧ (data → outbound → ∀ x, slotWord (frameSeg frame (before + c)) i c = some x →
        (flags.testBit 0 = true → (h.ch c).wordA = none → ((t.head k).ch c).wordA = some x)
        ∧ (flags.testBit 0 = false → (h.ch c).wordB = none → ((t.head k).ch c).wordB = some x)))
    ∧ ((if b then h.loopW else h.loopE) = true → ¬ (data ∧ flags.testBit 2 = true) → Gives (.headFrameReceive p i b frame) s s)
    ∧ Brings (.headApply p i) s (fun t =>
      (t.head k).usable = false ∧ (t.head k).missed = (if h.usable then 0 else h.missed + 1)
      ∧ (h.usable = false → 1 ≤ h.missed → ((t.head k).ch c).on = false)
      ∧ ((t.head k).ch c).downBad = word.isNone
      ∧ (∀ o, word = some (0, o) → ((t.head k).ch c).outs = o ∧ ((t.head k).ch c).run = 0 ∧ ((t.head k).ch c).on = (!h.sto))
      ∧ (∀ o, word = some (3, o) → ((t.head k).ch c).on = false ∧ ((t.head k).ch c).kind = 3)
      ∧ (∀ o, word = some (1, o) ∨ word = none → 1 ≤ (h.ch c).run → ((t.head k).ch c).on = false ∧ ((t.head k).ch c).zeroI = true))
    ∧ (2 ≤ (h.ch c).run → Gives (.zeroI p i c) s (s.onHead k fun h => h.onCh c fun x => { x with zeroI := true, on := false, shorted := false }))
    ∧ (2 ≤ h.missed → Brings (.headFrameLoss p i) s fun t => ((t.head k).ch c).on = false ∧ ∀ m, m ≠ k → t.head m = s.head m)
    ∧ ((∀ m, m < n → (h.ch m).kind = 3) → Gives (.updActivate p i b) s (s.onHead k fun h => { h with image := if b then 1 else 0 }))
    ∧ ((∃ m, m < n ∧ (h.ch m).kind ≠ 3) → Gives (.updActivate p i b) s s)
    ∧ Gives (.stationLinkLoss p i true) s (s.onHead k fun h => { h with loopE := true, healE := false })
    ∧ Gives (.stationLinkLoss p i false) s (s.onHead k fun h => { h with loopW := true, healW := false })
    ∧ Brings (.safeTorqueOffInput p i true) s (fun t => (t.head k).sto = true ∧ ((t.head k).ch c).on = false ∧ ∀ m, m ≠ k → t.head m = s.head m)
    ∧ Gives (.safeTorqueOffInput p i false) s (s.onHead k fun h => { h with sto := false })
    ∧ Gives (.powerStageFault p i c) s (s.onHead k fun h => h.onCh c fun x => { x with drvFault := true })

/-! ### The redundant pair (R386 to R416) -/

/-- R387 to R390, R416: pairing: the link trains and records are exchanged; a check that fails leaves its cause; roles follow
from which device is in RUN, side A leading when neither is; a device without a partner listens, after its wait or on command,
and at the second boundary from there runs alone, unless it has heard an Active. -/
def Obligations.PairingAndRoles : Prop :=
  ∀ (delay : Nat) (r : PairingRec) (s : State), s.up = true → s.paired = true →
    (bit (s.reg Reg.pairLink) 0 = false → Brings (.pairLinkTrained delay) s fun t => t.reg Reg.pairLink = w32 (1 + 65536 * min 0xFFFF delay)
      ∧ t.pair.partner = none ∧ ∃ b, Output.pair 1 1 b ∈ t.out)
    ∧ (s.pairUp = true → s.pair.partner = none →
      (s.pairCause r ≠ 0 → Brings (.pairingRecord r) s fun t => t.pairPhase = 6 ∧ t.field Reg.pairState 7 4 = s.pairCause r
        ∧ bit (t.reg Reg.pairStat) 8 = true ∧ t.active? = s.active?)
      ∧ (s.pairCause r = 0 → s.running = false → r.inRun = false → s.sideB = false → Brings (.pairingRecord r) s fun t =>
        t.active? = true ∧ t.pairPhase = 3 ∧ t.resyncPhase = 1 ∧ bit (t.reg Reg.pairState) 9 = true)
      ∧ (s.pairCause r = 0 → s.running = false → r.inRun = false → s.sideB = true → Brings (.pairingRecord r) s fun t =>
        t.active? = false ∧ t.pairPhase = 3 ∧ t.resyncPhase = 1)
      ∧ (s.pairCause r = 0 → s.running = true → r.inRun = false → Brings (.pairingRecord r) s fun t =>
        t.active? = true ∧ t.pairPhase = (if s.autoResync then 3 else 2))
      ∧ (s.pairCause r = 0 → s.running = false → r.inRun = true → Brings (.pairingRecord r) s fun t =>
        t.active? = false ∧ t.pairPhase = 3 ∧ t.resyncPhase = b2n s.autoResync))
    ∧ (∀ seen, s.answers 0x11 0 = true → s.roleless = true → Gives (.pairActiveAlone seen) s
        ((dropHold 0x11 s).onPair fun p => { p with listen := some s.tmu.period, heard := seen || s.activeFrame }))
    ∧ (∀ seen, s.answers 0x11 0 = true → s.roleless = false → Gives (.pairActiveAlone seen) s (dropHold 0x11 s))
    ∧ (∀ seen, s.power.mode = .ready → s.sideB = false → bit (s.reg Reg.pairCfg) 2 = true → s.roleless = true → s.pairPhase ≠ 6 →
      s.pair.listen = none → Gives (.aloneWaitExpiry seen) s
        ((s.waitTo (s.pair.waited + max 1 (s.field Reg.pairCfg 23 16) * 100000000)).onPair fun p =>
          { p with listen := some s.tmu.period, heard := seen || s.activeFrame }))
    ∧ (∀ k l, s.roleless = true → s.pair.listen = some l →
      let t := listenBoundary k s
      let heard := (s.pair.heard || s.activeFrame) = true
      (k < l + 2 → t.active? = false ∧ t.pair.listen = some l ∧ (t.pair.heard = true ↔ heard))
      ∧ (l + 2 ≤ k → ¬ heard → t.active? = true ∧ t.pairPhase = 2 ∧ t.pair.listen = none)
      ∧ (l + 2 ≤ k → heard → t.active? = false ∧ t.pairPhase = 1 ∧ bit (t.reg Reg.pairStat) 9 = true ∧ t.pair.listen = none))
    ∧ (s.answers 0x11 0 = true → s.power.mode = .ready → s.active? = false → Brings .pairLinkRetrain s fun t =>
      t.reg Reg.pairLink = 0 ∧ t.pair.partner = none ∧ t.active? = false ∧ t.pairPhase = 1)

/-- R392, R394, R396, R397, R398: mirroring: the Standby accepts what the Active sends it and acknowledges; the Active goes on
with the acknowledgement, and takes the Standby out of step without it; take-hold periods, reply intents, session
records, forwarded doorbells and forwarded packets. R395, R413: outside a pair in step a command that the Active forwards
is executed. -/
def Obligations.Mirroring : Prop :=
  ∀ (n eff : Nat) (seq i v : Word) (w : Intent) (slot : Bytes) (cfg next retired : Word) (sq cq : BitVec 64) (ver : Byte) (s : State),
    s.cmdUp n = true → bit (s.reg Reg.pairLink) 0 = true →
    let k := (packetOf n slot).1
    (s.standby = true → s.sesState n ≠ 0 → k.hdr.seq = s.reg (Reg.cmdNextSeq n) → Brings (.mirrorRecord n i eff slot) s fun t =>
      t.reg (Reg.cmdAcceptedSeq n) = k.hdr.seq ∧ t.reg (Reg.cmdNextSeq n) = k.hdr.seq + 1 ∧ t.reg (Reg.cmdSqHead n) = i
      ∧ (t.jrn n).accepted = k.hdr.seq ∧ (n, k.hdr.seq) ∈ t.pair.order ∧ Output.pair 2 9 [n, k.hdr.seq.toNat] ∈ t.out)
    ∧ (s.pairUp = true → s.active? = false → s.inStep = false → k.op = 0x0D03 → Gives (.mirrorRecord n i eff slot) s (pairRelease s))
    ∧ (∀ o, s.pairUp = true → s.active? = false → s.inStep = false → s.inn.resetDue = none → k.op = 0x0A01 → s.serves? 0x0A01 = some o → (interpret s { pkt := k }).status ≠ 0 →
      Brings (.mirrorRecord n i eff slot) s fun t => Output.pair 2 20 [0x0A01, (interpret s { pkt := k }).status] ∈ t.out ∧ t.acq = s.acq)
    ∧ (∀ o, s.pairUp = true → s.active? = false → s.inStep = false → s.inn.resetDue = none → k.op = 0x0A01 → s.serves? 0x0A01 = some o → (interpret s { pkt := k }).status = 0 →
      Bytes.num k.payload 0 1 = s.sideNo →
      Brings (.mirrorRecord n i eff slot) s fun t => Output.pair 2 20 [0x0A01, 0] ∈ t.out ∧ t.acq = (acqConfig k.payload s).acq)
    ∧ (∀ f, s.paired = true → (s.ses n).flights.find? (fun g => g.seq = seq) = some f → f.phase = .mirror → Brings (.mirrorAck n seq) s fun t =>
      t.reg (Reg.cmdAcceptedSeq n) = seq ∧ t.reg (Reg.cmdNextSeq n) = seq + 1)
    ∧ (∀ f, s.active? = true → s.inStep = true → s.autoResync = false → (s.ses n).flights.find? (fun g => decide (g.seq = seq ∧ g.phase = .mirror)) = some f →
      Brings (.mirrorAckTimeout n seq) s fun t => t.pairPhase = 2 ∧ t.active? = true ∧ bit (t.reg Reg.pairStat) 3 = true)
    ∧ (s.standby = true → Brings (.retireRecord n seq eff) s fun t => Output.pair 1 11 [n, seq.toNat] ∈ t.out
      ∧ ((∃ x, x ∈ s.staged ∧ x.is n seq = true) → s.tmu.period < eff →
        ∀ x, x ∈ t.staged → x.is n seq = true → x.eff = eff ∧ x.acked = true)
      ∧ ((∃ x, x ∈ s.staged ∧ x.is n seq = true) → eff ≤ s.tmu.period → t.pair.leave = true ∧ t.staged = s.staged)
      ∧ ((∀ x, x ∈ s.staged → x.is n seq = false) → (n, seq, eff) ∈ t.pair.retires ∧ t.staged = s.staged))
    ∧ (s.active? = true → Brings (.retireRecordAck n seq) s fun t => t = { s with staged := t.staged, out := t.out, bus := t.bus }
      ∧ ∀ x, x ∈ t.staged → x.is n seq = true → x.acked = true)
    ∧ (∀ r, s.standby = true → s.sesState n ≠ 0 → s.inn.resetDue = none →
      (s.ses n).replies.find? (fun q => q.due && decide (q.seq = w.seq)) = some r → Brings (.replyIntent n w) s fun t =>
        t.reg (Reg.cmdCqTail n) = w.slot + 1 ∧ Output.pair 1 13 [n, w.slot.toNat] ∈ t.out
        ∧ (t.ses n).replies = (s.ses n).replies.filter fun q => q.seq ≠ r.seq)
    ∧ (s.standby = true → s.sesState n ≠ 0 → s.inn.resetDue = none → (∀ r, r ∈ (s.ses n).replies → r.seq = w.seq → r.due = false) →
      Gives (.replyIntent n w) s (s.onSes n fun x => { x with ahead := some w }))
    ∧ (∀ r, s.active? = true → s.inStep = true → s.inn.resetDue = none → s.sesState n ≠ 0 → (s.ses n).stuck = false → s.byProxy n = false → (s.ses n).paused = false →
      (s.ses n).opened.cqSram = false → s.masters = true → s.cqFull n = false → (s.ses n).replies = [r] → r.due = true → r.intent = 1 →
      Brings (.replyIntentAck n (s.reg (Reg.cmdCqTail n))) s fun t => t.reg (Reg.cmdCqTail n) = s.reg (Reg.cmdCqTail n) + 1 ∧ (t.ses n).replies = [])
    ∧ (s.paired = true → s.active? = false → ver ≠ 0 → Brings (.sessionRecord n cfg sq cq ver next retired) s fun t =>
      t.sesState n = 2 ∧ t.reg (Reg.cmdCfg n) = cfg ∧ t.reg (Reg.cmdNextSeq n) = next ∧ t.reg (Reg.cmdRetiredSeq n) = retired ∧ (t.jrn n).isOpen = true)
    ∧ (s.paired = true → s.active? = true → Gives (.forwardedDoorbell n 0x30 v) s (sqTail n v s) ∧ Gives (.forwardedDoorbell n 0x3C v) s (cqHead n v s)
      ∧ Gives (.forwardedDoorbell n 0x04 v) s (cmdCtrl n v s))
    ∧ (s.standby = true → s.sesState n ≠ 0 → s.masters = true → Brings (.proxy n (.packet slot)) s fun t =>
      bit (t.reg Reg.pairState) 8 = true ∧ t.pair.proxied = some (n, k.hdr.seq) ∧ Output.pair 2 17 (n :: slot.map BitVec.toNat) ∈ t.out)
    ∧ (s.standby = true → s.sesState n ≠ 0 → s.masters = true → Gives (.proxy n (.reply i slot)) s (putSlot n i slot (setProxy true s)).2)
    ∧ (s.byProxy n = true → s.mayTake n = true → s.reg (Reg.cmdSqHead n) ≠ s.reg (Reg.cmdSqTail n) →
      Gives (.proxy n (.packet slot)) s (takePacket n k (packetOf n slot).2 s))

/-- R399 to R408, R411: equal inputs, digests, adoption, loss of the link, failover and resynchronisation. R407, R408: at the return deadlines of the period after the loss the Standby becomes Active when no shared ring brought a
frame of an Active, and leaves step when one did; on taking over it finishes the Active's work. -/
def Obligations.PairPeriods : Prop :=
  (∀ (fio lat per dig : Word) (holds : List Nat) (slots : List (BitVec 16)) (image : Bytes) (n : Nat) (s : State), s.pairUp = true →
    (s.active? = false → Gives (.switchSourceSample fio lat holds) s (catchUp (s.onPair fun p => { p with field := fio, latch := lat, holds := holds })))
    ∧ (∀ o, s.pair.partner.isSome = true → s.pair.digest = some (per, dig, o) → Brings (.periodRecord per dig slots 0) s fun t =>
      t.pair.equal = true ∧ t.pair.matching = s.pair.matching + 1 ∧ t.pair.missing = 0 ∧ t.reg Reg.pairTimeOfs = 0)
    ∧ (∀ o d, s.pair.partner.isSome = true → s.standby = true → s.pair.digest = some (per, d, o) → d ≠ dig → Brings (.periodRecord per dig slots 0) s fun t =>
      t.pair.equal = false ∧ t.pair.leave = true ∧ t.pair.diffs = s.pair.diffs + 1 ∧ bit (t.reg Reg.pairStat) 4 = true
      ∧ t.reg Reg.pairLastDiff = w32 (per.toNat % 65536 + 65536 * firstDiff o slots))
    ∧ (s.pairPhase = 4 → n < s.part.slots → s.slotDone n = false → s.pair.asked < max 1 (min 16 (s.field Reg.pairCfg 28 24)) →
      Gives (.adoptionRequest n) s (s.onPair fun p => { p with asked := p.asked + 1, requests := adjoin n p.requests }))
    ∧ (s.pairPhase = 4 → image.length = 276 → Bytes.num image 0 2 < s.part.slots → s.tmu.ns + 100 ≤ s.tmu.period * s.tBase + s.sealNs →
      Gives (.adoptionImage image (w32 s.tmu.period)) s (s.onPair fun p => { p with images := p.images ++ [image] }))
    ∧ (s.active? = true → s.inStep = false → Brings .pairLinkLost s fun t => t.reg Reg.pairLink = 0 ∧ bit (t.reg Reg.pairStat) 1 = true
      ∧ t.pair.partner = none ∧ t.active? = true ∧ t.pairPhase = 2)
    ∧ (s.standby = true → Brings .pairLinkLost s fun t => t.reg Reg.pairLink = 0 ∧ t.pair.lostAt = some s.tmu.period ∧ t.pairPhase = 4)
    ∧ (∀ o, s.pair.digest = some o → s.pair.received = false → s.inStep = true → s.pair.missing = 0 → Brings .periodRecordMissing s fun t =>
      t.pair = { s.pair with missing := 1, received := true })
    ∧ (s.active? = true → s.resyncPhase = 1 → s.drained = true → s.staged = [] → Brings .resyncDrained s fun t =>
      t.resyncPhase = 2 ∧ Output.resync s.resyncCopy ∈ t.out)
    ∧ (s.active? = true → s.resyncPhase = 2 → Brings .resyncCopyDone s fun t => t.resyncPhase = 3)
    ∧ (s.active? = false → s.pairPhase = 3 → s.resyncPhase = 1 → Brings .resyncCopyDone s fun t => t.resyncPhase = 3 ∧ t.staged = [])
    ∧ (s.matched = true → Brings .paired s fun t => t.pairPhase = 4 ∧ t.resyncPhase = 0 ∧ bit (t.reg Reg.pairStat) 0 = true)
    ∧ (s.pairPhase = 3 → s.resyncPhase ≠ 0 → Brings .resyncFail s fun t => t.resyncPhase = 0 ∧ bit (t.reg Reg.pairStat) 6 = true
      ∧ (s.active? = true → t.pairPhase = 2) ∧ s.pair.resyncAt + 200000000 ≤ t.inn.uptime))
  ∧ (∀ (k : Nat) (s : State), s.up = true → s.standby = true → s.pair.lostAt = some k → k < s.tmu.period → s.pairPorts ≠ [] →
    (∀ p, p ∈ s.pairPorts → (s.port p).closed = true) →
    (s.activeFrame = true → Gives .failover s (s.onPair fun p => { p with leave := true, lostAt := none }))
    ∧ (s.activeFrame = false → Brings .failover s fun t => t.active? = true ∧ t.pairPhase = 2 ∧ bit (t.reg Reg.pairStat) 2 = true
      ∧ t.pair.lostAt = none ∧ ∀ x, x ∈ t.staged → x.acked = true))

/-- R325 to R327, R333, R384: a whole message on a chain port counts; one of this origin's own is told of; a bad one is discarded.
A change of the port's link shows. -/
def Obligations.ChainPorts : Prop :=
  ∀ (up on : Bool) (ticks : Nat) (msg : Bytes) (s : State), s.answers 0x12 0 = true →
    let n := Bytes.num msg 1 1
    let b := (msg.drop 2).take n
    let c := Bytes.num b 0 1 % 4
    (Bytes.num msg (n + 2) 4 ≠ crc32 (msg.take (n + 2)) → Gives (.chainMessageReceive up ticks msg) s s)
    ∧ (msg.length = 38 → n = 32 → Bytes.num msg 0 1 = 1 → Bytes.num msg 34 4 = crc32 (msg.take 34) → s.paired = false →
      (s.shOn c = true → s.shOrigin c = true → Bytes.num b 2 1 % 16 = s.dev → Gives (.chainMessageReceive up ticks msg) s (s.event Reg.chnStat 10))
      ∧ (s.shOn c = true → s.shOrigin c = false → Bytes.num b 8 2 = s.field Reg.tmuPeriod 15 0 → (s.shaft c).held = [] →
        Brings (.chainMessageReceive up ticks msg) s fun t => (t.shaft c).held = [shaftMsgOf b ticks] ∧ t.field (Reg.chnShArrival c) 15 0 = min ticks 0xFFFF))
    ∧ (bit (s.reg Reg.chnLink) (if up then 0 else 1) ≠ on → Gives (.chainPortLinkEvt up on) s
      ((s.setReg Reg.chnLink (setBit (s.reg Reg.chnLink) (if up then 0 else 1) on)).event Reg.chnStat 0))

/-! ### The safety island (R417 to R446) -/

/-- R418 to R422, R429: the island starts with its committed image or without one; a self-check that fails is an island
fault, which switches every output off and holds every axis, for good; a test pulse that fails on one switch latches
an output fault, on the other switch too an island fault; without refresh the die switches the safe outputs off. -/
def Obligations.IslandLife : Prop :=
  ∀ (osc res sil mem img ref low : Bool) (k : Nat) (s : State), s.islandOn = true →
    (s.island.st = 0 → s.flashImage 0 = none → s.flashImage 1 = none → Brings (.islandBootDone true true) s fun t =>
      t.island.st = 1 ∧ t.island.valid = false ∧ t.island.bist = 3)
    ∧ (∀ p, s.island.st = 0 → s.flashImage 0 = some p → Brings (.islandBootDone true true) s fun t => t.island.st = 2 ∧ t.island.valid = true
        ∧ t.island.bist = 7 ∧ t.island.committed = Map.setRun (fun _ => 0) [] 0 p)
    ∧ (s.island.st = 0 → Brings (.islandBootDone false true) s fun t => t.island.st = 4 ∧ t.island.fcode = 4)
    ∧ (s.island.st ≠ 0 → s.island.st ≠ 4 → res = true → Brings (.safetyCycle osc res sil mem img ref) s fun t =>
      t.island.st = 4 ∧ t.island.fcode = 1 ∧ bit (t.reg Reg.safeStat) 5 = true ∧ (∀ j, j < 4 → (t.sout j).on = false)
      ∧ ∀ a, a ∈ t.safeAxes → (t.sax a).hold = 2)
    ∧ (s.island.st = 1 → s.island.closeAt < 7200000 → Brings (.safetyCycle true false false mem img false) s fun t => t.island.st = 4 ∧ t.island.fcode = 3)
    ∧ (s.island.st = 1 → s.island.valid = false → s.island.closeAt < 7200000 → Brings (.safetyCycle false false false false img false) s fun t =>
      t.island.st = 1 ∧ t.island.cycle = s.island.cycle + 1 ∧ t.island.silent = 0)
    ∧ (s.island.st = 4 → Brings (.safetyCycle osc res sil mem img ref) s fun t => t.island.st = 4 ∧ t.island.fcode = s.island.fcode)
    ∧ (k < 4 → s.island.st = 2 → s.outImg k 0 1 = 1 → (s.sout k).fault = false → (s.pulseDue k low = true ∨ (s.sout k).on = false) → Brings (.testPulse k low false) s fun t =>
      (t.sout k).hi = false ∧ (t.sout k).lo = false ∧ (t.sout k).fault = true ∧ (t.sout k).low = low ∧ bit (t.reg Reg.safeStat) 3 = true)
    ∧ (k < 4 → s.island.st = 2 → s.outImg k 0 1 = 1 → (s.sout k).on = true → s.pulseDue k low = true → Brings (.testPulse k low true) s fun t =>
      t.sout k = { s.sout k with tp := 0, tpLow := !low } ∧ t.safeOutOn k = s.safeOutOn k)
    ∧ (k < 4 → s.island.st = 2 → s.outImg k 0 1 = 1 → (s.sout k).on = true → s.pulseDue k low = false → ∀ passed, Gives (.testPulse k low passed) s s)
    ∧ (k < 4 → s.island.st = 2 → s.outImg k 0 1 = 1 → (s.sout k).fault = true → (s.sout k).on = false → (s.sout k).low ≠ low → Brings (.testPulse k low false) s fun t =>
      t.island.st = 4 ∧ t.island.fcode = 6)
    ∧ (s.die.started = true → Brings .islandWatchdog s fun t => t.die.safeOff = true ∧ ∀ j, t.safeOutOn j = false)

/-- R427, R428, R433, R434, R440, R443, R444: what a cycle finds due: discrepancy of an input, a lost source, the end of a stop by
time or standstill, of a brake delay, a lost connection, the ends of commissioning and of the lockout; and the end of a
commit's flash write. R438, R440: a producer sends its next telegram when its period has passed, first with the restart bit; a consumer takes a telegram
that checks and follows within its window, and counts others as rejected. -/
def Obligations.IslandEvents : Prop :=
  (∀ (n a k c : Nat) (s : State), s.operates = true →
    (n < 16 → 4 * s.inImg n 4 2 < (s.sin n).diff → (s.sin n).disc = false → Brings (.inputDiscrepancy n) s fun t =>
      (t.sin n).disc = true ∧ (t.sin n).value = false ∧ bit (t.reg Reg.safeStat) 2 = true)
    ∧ (a ∈ s.safeAxes → s.axImg a 2 2 ≠ 0xFFFF → s.axImg a 36 2 ≤ (s.sax a).age1 → (s.sax a).fbFault = false → Brings (.safeFeedbackLoss a false) s fun t =>
      (t.sax a).fbFault = true ∧ (t.sax a).stopping = 4 ∧ (t.sout (s.axImg a 1 1 % 4)).interlock = true ∧ bit (t.reg Reg.safeStat) 1 = true
      ∧ ∀ b, b ∈ s.members (s.axImg a 1 1 % 4) → (t.sax b).hold = 2)
    ∧ (a ∈ s.safeAxes → (s.sax a).stopping = 1 → 4 * s.axImg a 28 2 ≤ (s.sax a).stopT → Brings (.stopTExpiry a) s fun t =>
      (t.sax a).stopping = 4 ∧ (t.sout (s.axImg a 1 1 % 4)).interlock = true)
    ∧ (a ∈ s.safeAxes → (s.sax a).stopping = 2 → 4 * s.axImg a 28 2 ≤ (s.sax a).stopT → Brings (.stopTExpiry a) s fun t =>
      (t.sax a).stopping = 4 ∧ (t.sout (s.axImg a 1 1 % 4)).interlock = true)
    ∧ (a ∈ s.safeAxes → (s.sax a).stopping = 2 → 4 ≤ (s.sax a).still → Brings (.standstillConfirmed a) s fun t =>
      (t.sax a).stopping = 3 ∧ (t.sax a).sosAt = (s.sax a).hist.headD 0)
    ∧ (a ∈ s.safeAxes → (s.sax a).stopping = 1 → 4 ≤ (s.sax a).still → Brings (.standstillConfirmed a) s fun t => (t.sax a).stopping = 4)
    ∧ (k < 4 → (s.sout k).braking = true → (∀ j, j ∈ s.brakesOf k → 4 * s.outImg j 8 2 ≤ (s.sout k).brake) → Brings (.brakeDelayExpiry k) s fun t =>
      (t.sout k).on = false ∧ (t.sout k).braking = false)
    ∧ (c < 8 → s.connImg c 0 1 = 2 → (s.sconn c).told = false → s.connImg c 10 2 ≤ (s.sconn c).age → s.pairImage = false → Brings (.connLost c) s fun t =>
      (t.sconn c).lost = true ∧ (t.sconn c).any = true ∧ (t.sconn c).good = 0 ∧ bit (t.reg Reg.safeStat) 4 = true)
    ∧ (∀ m q, s.island.writing = some (m, q) → Brings (.safetyAreaFlashWriteDone false) s fun t => t.island.writing = none ∧ t.island.committed = s.island.committed)
    ∧ (∀ m q, s.island.writing = some (m, q) → s.island.commit = none → Brings (.safetyAreaFlashWriteDone true) s fun t =>
      t.island.writing = none ∧ t.island.committed = s.island.committed)
    ∧ (∀ m q p, s.island.writing = some (m, q) → s.island.commit = some p → Brings (.safetyAreaFlashWriteDone true) s fun t => t.island.writing = none ∧ t.island.valid = true
      ∧ t.island.committed = Map.setRun (fun _ => 0) [] 0 p ∧ bit (t.reg Reg.safeStat) 6 = true)
    ∧ Brings .authLockoutExpiry { s with island := { s.island with fails := 3, lockout := 0 } } (fun t => t.island.fails = 0)
    ∧ Brings .commissioningTimeout { s with island := { s.island with st := 3, valid := true, closeAt := 7200000 } } (fun t => t.island.st = 2 ∧ t.island.working = []))
  ∧ (∀ (c : Nat) (tel : Bytes) (s : State), s.operates = true → c < 8 →
    let x := s.sconn c
    (s.connImg c 0 1 = 1 → (x.first = true ∨ s.connImg c 8 2 ≤ x.age) → Brings (.safeTelegramProduce c) s fun t =>
      (t.sconn c).seq = (if x.first then 1 else x.seq + 1) ∧ (t.sconn c).first = false ∧ (t.sconn c).age = 0)
    ∧ (s.connImg c 0 1 = 2 → Bytes.num tel 28 4 ≠ s.telCheck c (tel.take 28) → Brings (.safeTelegramReceive c tel) s fun t =>
      (t.sconn c).seq = x.seq ∧ (t.sconn c).data = x.data ∧ (t.sconn c).age = x.age ∧ (t.sconn c).good = (if x.lost then 0 else x.good) ∧ t.field Reg.safeConnErr 7 0 = min 255 (s.field Reg.safeConnErr 7 0 + 1))
    ∧ (s.connImg c 0 1 = 2 → tel.length = 32 → Bytes.num tel 0 1 = 1 → Bytes.num tel 2 2 = s.connImg c 2 2 → Bytes.num tel 28 4 = s.telCheck c (tel.take 28) →
      Bytes.num tel 16 8 = 2 ^ 64 - 1 - Bytes.num tel 8 8 → 1 ≤ (Bytes.word tel 4 - x.seq).toNat → (Bytes.word tel 4 - x.seq).toNat ≤ s.connImg c 12 1 →
      Brings (.safeTelegramReceive c tel) s fun t => (t.sconn c).seq = Bytes.word tel 4 ∧ (t.sconn c).age = 0 ∧ (t.sconn c).good = min 2 (x.good + 1)
        ∧ (t.sconn c).data = BitVec.ofNat 64 (Bytes.num tel 8 8) ∧ (t.sconn c).lost = (x.lost && decide (x.good = 0))
        ∧ ∀ m, m ≠ c → t.sconn m = s.sconn m))

/-! ### Field I/O and latches (R316, R317, R447 to R457) -/

/-- R447, R448, R450, R452, R454, R455: the field die starts and links, takes its commands with every valid frame, filters its
inputs, latches an output that does not follow, and drops everything in a sag; arming is by `REARM`. R316, R317, R321, R399: an edge of a
latch ball is counted and stamped to 250 ps, unless it falls in the dead time; the stamp of an armed input goes to the host FIFO or to
registration; a stamp that the Active sends is kept by the Standby, and lost without room. -/
def Obligations.FieldInputs : Prop :=
  (∀ (raw v : Word) (n mv : Nat) (s : State),
    Brings .fieldDieStart s (fun t => t.die.started = true ∧ t.die.lplusOk = true ∧ t.die.armed = false ∧ t.die.cmd = s.die.cmd)
    ∧ (s.fieldLinked = true → Brings (.fieldLinkFrame true) s fun t => t.die.linkUp = true ∧ t.die.cmd = BitVec.ofNat 16 (s.reg Reg.fioOutCmd).toNat
      ∧ t.die.rearm = false ∧ (s.die.rearm = true → s.die.clearing = false → s.die.lplusOk = true → t.die.armed = true ∧ bit (t.reg Reg.fioStat) 4 = true
        ∧ t.die.effective &&& ~~~ s.die.written = 0 ∧ ∀ k, k < 4 → t.safeOutOn k = false)
      ∧ (s.die.clearing = true → t.die.armed = false))
    ∧ (s.fieldLinked = true → Brings (.fieldLinkFrame false) s fun t => t.die = { s.die with errs := min 0xFFFF (s.die.errs + 1) }
      ∧ t.reg Reg.fioLink = w32 (min 0xFFFF (s.die.errs + 1)))
    ∧ (s.die.linkUp = true → Brings .fieldLinkLost s fun t => t.die.linkUp = false ∧ t.die.armed = false ∧ t.die.cmd = 0 ∧ t.reg Reg.fioOutCmd = 0
      ∧ bit (t.reg Reg.fioStat) 3 = true)
    ∧ (s.die.started = true → Gives (.fieldInputSample raw) s
      (s.onDie fun d => (List.range 32).foldl (filterInput raw (fun n => s.field (Reg.fioFilt n) 7 0)) d))
    ∧ (n < 16 → s.die.started = true → Brings (.fieldOutputFault n) s fun t => t.die.latched.getLsbD n = true ∧ bit (t.reg Reg.fioStat) 0 = true
      ∧ t.die.effective.getLsbD n = false)
    ∧ (n < 16 → s.die.cmd.getLsbD n = false → Brings (.fieldOutputLatchClear n) s fun t => t.die.latched.getLsbD n = false ∧ t.die.cmd = s.die.cmd
      ∧ ∀ m, m ≠ n → t.die.latched.getLsbD m = s.die.latched.getLsbD m)
    ∧ (s.die.started = true → s.die.lplusOk = true → mv < 1750 → Brings (.sag mv) s fun t => t.die.lplusOk = false ∧ t.die.armed = false ∧ t.die.cmd = 0
      ∧ t.die.sagged = true ∧ t.reg Reg.fioOutCmd = 0 ∧ t.field Reg.fioLplus 15 0 = mv ∧ bit (t.reg Reg.fioStat) 0 = true ∧ bit (t.reg Reg.fioStat) 1 = true)
    ∧ (s.die.started = true → s.die.lplusOk = false → 1850 ≤ mv → mv < 65536 → Brings (.recovered mv) s fun t => t.die.lplusOk = true ∧ t.die.armed = s.die.armed
      ∧ t.field Reg.fioLplus 15 0 = mv ∧ bit (t.reg Reg.fioStat) 2 = true)
    ∧ (s.answers 0x14 0 = true → s.die.lplusOk = true → s.die.linkUp = true → Brings .rearm s fun t => t.die = { s.die with rearm := true, written := 0, sagged := false })
    ∧ (s.answers 0x14 0 = true → (s.die.lplusOk = false ∨ s.die.linkUp = false) → Gives .rearm s (dropHold 0x14 s))
    ∧ (s.answers 0x14 0 = true → Gives (.outCmd v) s (((dropHold 0x14 s).setReg Reg.fioOutCmd (v &&& 0xFFFF#32)).onDie
      fun d => { d with written := 0xFFFF })))
  ∧ (∀ (n : Nat) (level falling : Bool) (t : Stamp) (slot : Nat) (s : State), n < 32 → s.answers 0x0E 0 = true →
    let l := s.latch n
    let f := level == bit (s.reg (Reg.latChCfg n)) 8
    let r : LatchRec := { falling := f, stamp := { t with frac := t.frac / 2 ^ 30 * 2 ^ 30 }, ref := l.slot }
    let free := ∀ a, l.last = some a → a + bits (s.reg (Reg.latChCfg n)) 7 0 * 160 ≤ stampTime t / 2 ^ 30
    (l.level = level → Gives (.latchEdge n level t) s s)
    ∧ (l.level ≠ level → s.leads = true → free → Brings (.latchEdge n level t) s fun u =>
        u.reg (Reg.latChEdges n) = s.reg (Reg.latChEdges n) + 1 ∧ (u.latch n).level = level
        ∧ (l.slot = some slot → l.bound = none → l.mode.getLsbD (if f then 1 else 0) = true → l.host.length < 32 → (u.latch n).host = l.host ++ [r])
        ∧ (l.slot = some slot → (∃ b, l.bound = some b ∧ f = (s.axis b).reg.falling) → l.reg.length < 8 → (u.latch n).reg = l.reg ++ [r] ∧ (u.latch n).host = l.host)
        ∧ (l.slot = none → (u.latch n).host = l.host ∧ (u.latch n).reg = l.reg))
    ∧ (l.level ≠ level → (∃ a, l.last = some a ∧ stampTime t / 2 ^ 30 < a + bits (s.reg (Reg.latChCfg n)) 7 0 * 160) →
      Gives (.latchEdge n level t) s (s.setLatch n { l with level := level }))
    ∧ (s.paired = true → s.active? = false → l.slot = some slot → l.bound = none → l.mode.getLsbD (if falling then 1 else 0) = true →
      (l.host.length < 32 → Brings (.latchStampTransfer n falling t) s fun u => (u.latch n).host = l.host ++ [{ falling := falling, stamp := t, ref := l.slot }])
      ∧ (32 ≤ l.host.length → Brings (.latchStampTransfer n falling t) s fun u => (u.latch n).host = l.host ∧ bit (u.reg Reg.latStat) n = true
        ∧ u.field (Reg.latChLost n) 15 0 = min 65535 (s.field (Reg.latChLost n) 15 0 + 1))))

/-! ### Feedback, outputs and memories (R194 to R196, R223 to R254, R334 to R358, R555) -/

/-- R226, R227, R229, R230, R241, R242, R247, R252, R450: levels of a quadrature encoder that stand longer than `FILT` samples move
the count by one, a skipped state leaves it and is told of, and shorter ones do nothing; an index edge captures the count; a serial
transfer within its bound ends with the position, or with a fault for its CRC, its error bit, a late start or the further bit of SSI,
and past its bound with a fault; contacts of a multi-turn channel count turns while the crystal runs. -/
def Obligations.FeedbackCounts : Prop :=
  ∀ (n : Nat) (a b err warn further : Bool) (pos : BitVec 64) (crc : BitVec 6) (smp start dly : Nat) (code : BitVec 16) (v : Word) (s : State),
    let c := s.fb n
    let place := pos.toNat % 2 ^ c.width
    let crcOk := crc.toNat = 63 - crc6 (bitsDown c.width place ++ [err, warn])
    let max := s.field (Reg.fbkChLineMax n) 9 0
    let inTime := start ≤ max * 5 + 20 * c.clk ∧ dly ≤ max
    let ssi := if bit c.act 5 then grayToBinary c.width place else place
    let counted (t : State) (up : Bool) := t.reg (Reg.fbkChCnt n) = (if up then s.reg (Reg.fbkChCnt n) + 1 else s.reg (Reg.fbkChCnt n) - 1)
      ∧ (t.fb n).a = a ∧ (t.fb n).b = b
    let faulted (t : State) := bit (t.reg Reg.fbkStat) (16 + n) = true ∧ t.field (Reg.fbkChErrCnt n) 15 0 = min 65535 (s.field (Reg.fbkChErrCnt n) 15 0 + 1)
    let read (t : State) (x : Nat) := t.reg (Reg.fbkChCnt n) = lo64 (BitVec.ofNat 64 x) ∧ t.reg (Reg.fbkChPosHi n) = hi64 (BitVec.ofNat 64 x)
      ∧ t.reg (Reg.fbkChErrCnt n) = s.reg (Reg.fbkChErrCnt n)
    let step := (quadPlace a b + 4 - quadPlace c.a c.b) % 4
    let cnt := Reg.fbkChCnt n
    let m := s.mt n
    let turn := (quadPlace a (b != bit (s.reg (Reg.fbkMtCfg n)) 4) + 4 - quadPlace m.a (m.b != bit (s.reg (Reg.fbkMtCfg n)) 4)) % 4
    (s.power.mode ≠ .dormant → n < 16 → c.mode = 1 →
      (c.rawA = c.a → c.rawB = c.b → bits c.act 9 6 < smp →
        (step = 1 → Brings (.encoderEdge n (a, b) smp) s fun t => counted t (!bit c.act 3))
        ∧ (step = 3 → Brings (.encoderEdge n (a, b) smp) s fun t => counted t (bit c.act 3))
        ∧ (step = 2 → Brings (.encoderEdge n (a, b) smp) s fun t => t.reg cnt = s.reg cnt ∧ (t.fb n).phase = true ∧ bit (t.reg (Reg.fbkChCstat n)) 6 = true)
        ∧ (step = 0 → Brings (.encoderEdge n (a, b) smp) s fun t => t.regs = s.regs))
      ∧ (c.rawA = c.a → c.rawB = c.b → smp ≤ bits c.act 9 6 → Brings (.encoderEdge n (a, b) smp) s fun t => t.regs = s.regs ∧ (t.fb n).a = c.a ∧ (t.fb n).b = c.b)
      ∧ (bit c.act 4 = false → Gives (.indexEdge n a) s (((s.setReg (Reg.fbkChIdxCnt n) (s.reg cnt)).setReg (Reg.fbkChIdxN n)
          (s.reg (Reg.fbkChIdxN n) + 1)).onFb n fun c => { c with idx := true })))
    ∧ (s.up = true → n < 16 → c.transfer = true → s.pastLocal (s.chanBound n c) = false →
      (c.mode = 2 → crcOk → inTime → err = true → Brings (.serialEncoderDone n pos err warn crc (start, further) dly) s fun t =>
        read t place ∧ t.reg (Reg.fbkChLineDly n) = w32 (dly % 1024))
      ∧ (c.mode = 2 → ¬ (crcOk ∧ inTime ∧ err = true) → Brings (.serialEncoderDone n pos err warn crc (start, further) dly) s faulted)
      ∧ (c.mode = 3 → further = false → Brings (.serialEncoderDone n pos err warn crc (start, further) dly) s fun t => read t ssi)
      ∧ (c.mode = 3 → further = true → Brings (.serialEncoderDone n pos err warn crc (start, further) dly) s faulted))
    ∧ (s.up = true → n < 16 → c.cur.started = true → c.cur.done = false → c.nxt.started = false → s.pastLocal (s.chanBound n c) = true →
      Brings (.serialEncoderDone n pos err warn crc (start, further) dly) s fun t => faulted t ∧ (t.fb n).cur.done = true)
    ∧ (n < 8 → bit (s.reg (Reg.fbkMtCfg n)) 0 = true → bit (s.reg Reg.pwrClk) 1 = true → m.seen = true →
      (turn = 1 → Brings (.mtStrobe n a b) s fun t => t.reg (Reg.fbkMtCount n) = s.reg (Reg.fbkMtCount n) + 1)
      ∧ (turn = 3 → Brings (.mtStrobe n a b) s fun t => t.reg (Reg.fbkMtCount n) = s.reg (Reg.fbkMtCount n) - 1)
      ∧ (turn = 2 → Brings (.mtStrobe n a b) s fun t => t.reg (Reg.fbkMtCount n) = s.reg (Reg.fbkMtCount n)
        ∧ bit (t.reg (Reg.fbkMtMstat n)) 1 = true ∧ bit (t.reg (Reg.fbkMtMstat n)) 0 = false))
    ∧ (s.answers 0x17 0 = true → n < 32 → s.field (Reg.adcInCfg n) 1 0 = 1 → code ≠ 0x8000 → code ≠ 0x7FFF → Brings (.adcConversion n code true) s fun t =>
      t.reg (Reg.adcInSample n) = wInt (sat32 ((code.toInt - wrapN 16 (s.field (Reg.adcInOfs n) 15 0)) * 2 ^ 16)) ∧ t.reg Reg.adcStat = s.reg Reg.adcStat)
    ∧ (s.answers 0x0C 0 = true →
      (n < 16 → s.up = true → Gives (.fbkCfgWrite n v) s ((dropHold 0x0C s).setReg (Reg.fbkChCfg n) (v &&& 0xFFFFFF#32)))
      ∧ (n < 8 → Gives (.mtClr n) s ((dropHold 0x0C s).lower (Reg.fbkMtMstat n) 6#32))
      ∧ (n < 8 → Gives (.mtZero n) s (((dropHold 0x0C s).setReg (Reg.fbkMtCount n) 0).raise (Reg.fbkMtMstat n) 1#32)))
    ∧ (s.answers 0x0F 0 = true → Brings (.emuArm v) s fun t => (∀ ch, ch < 8 → (t.em ch).armed = (bit v ch || (s.em ch).armed))
      ∧ t = { s with emu := t.emu, bus := t.bus, out := t.out })

/-- R334, R339, R340, R343, R344, R347: shadows of a PWM channel are written and armed unless a slot owns it, and transferred at
a reload, which begins a PWM period at the instant that the channel's period and restart give and cuts a period short with an event; a
trip that becomes active latches while it is enabled, is told of, and clears when its input has gone. -/
def Obligations.PwmOutputs : Prop :=
  ∀ (ch k at_ : Nat) (v : Word) (cut : Bool) (s : State), s.answers 0x0B 0 = true →
    let s1 := dropHold 0x0B s
    let st := Reg.pwmChState ch
    (ch < 32 → s.pwmOwned ch = false →
      Gives (.pwmShadowWrite ch 0 v) s ((s1.setReg (Reg.pwmChPer ch) (v &&& 0xFFFFF#32)).raise st 2#32)
      ∧ Gives (.pwmShadowWrite ch 1 v) s ((s1.setReg (Reg.pwmChCmp ch) (v &&& 0x1FFFFFF#32)).raise st 4#32)
      ∧ Gives (.pwmShadowWrite ch 2 v) s (s1.setReg (Reg.pwmChDtr ch) (v &&& 0xFFFF#32))
      ∧ Gives (.pwmShadowWrite ch 3 v) s (s1.setReg (Reg.pwmChDtf ch) (v &&& 0xFFFF#32))
      ∧ Gives (.pwmArm (bitw ch)) s (s1.raise st 1#32))
    ∧ (ch < 32 → s.pwmOwned ch = true → k < 4 → Gives (.pwmShadowWrite ch k v) s (s1.event Reg.pwmStat 1) ∧ Gives (.pwmArm (bitw ch)) s (s1.event Reg.pwmStat 1))
    ∧ (ch < 32 → s.pwmNext ch = some (at_, cut) → at_ < 64 * ((s.tmu.period + 1) * s.tBase) → Brings (.pwmReload ch cut) s fun t =>
      (t.pw ch).start = some at_ ∧ at_ ≤ 64 * t.tmu.ns ∧ (cut = true → bit (t.reg Reg.pwmStat) 2 = true)
      ∧ (bit (s.reg st) 0 = true → (bit (s.reg (Reg.pwmChCfg ch)) 3 = true → bit (s.reg st) 1 = true ∧ bit (s.reg st) 2 = true) →
        (t.pw ch).per = s.pwmPer ch ∧ (t.pw ch).cmp = s.field (Reg.pwmChCmp ch) 24 0 ∧ t.reg (Reg.pwmChActCmp ch) = w32 (s.field (Reg.pwmChCmp ch) 24 0)
        ∧ bit (t.reg st) 0 = false)
      ∧ (bit (s.reg st) 0 = true → bit (s.reg (Reg.pwmChCfg ch)) 3 = true → (bit (s.reg st) 1 = false ∨ bit (s.reg st) 2 = false) →
        (t.pw ch).per = (s.pw ch).per ∧ (t.pw ch).cmp = (s.pw ch).cmp ∧ bit (t.reg st) 0 = true ∧ bit (t.reg st) 3 = true ∧ bit (t.reg Reg.pwmStat) 0 = true)
      ∧ (bit (s.reg st) 0 = false → (t.pw ch).per = (s.pw ch).per ∧ (t.pw ch).cmp = (s.pw ch).cmp ∧ bit (t.reg st) 3 = false))
    ∧ (ch < 32 → (∀ x, s.pwmNext ch = some x → x.2 ≠ cut ∨ 64 * ((s.tmu.period + 1) * s.tBase) ≤ x.1) → Gives (.pwmReload ch cut) s s)
    ∧ (k < 4 → bit (s.reg Reg.pwmTripCfg) k = true → bit (s.reg Reg.pwmTripLevel) (4 + k) = false → Brings (.pwmTrip k true) s fun t =>
      bit (t.reg Reg.pwmTripLevel) (4 + k) = true ∧ bit (t.reg Reg.pwmTripLevel) k = true ∧ bit (t.reg Reg.pwmStat) (4 + k) = true)
    ∧ (k < 4 → Brings (.pwmTrip k false) s fun t => bit (t.reg Reg.pwmTripLevel) (4 + k) = false ∧ bit (t.reg Reg.pwmTripLevel) k = bit (s.reg Reg.pwmTripLevel) k)
    ∧ (k < 4 → bit (s.reg Reg.pwmTripCfg) k = false → Brings (.pwmTrip k true) s fun t =>
      bit (t.reg Reg.pwmTripLevel) (4 + k) = true ∧ bit (t.reg Reg.pwmTripLevel) k = bit (s.reg Reg.pwmTripLevel) k)
    ∧ (k < 4 → bit (s.reg Reg.pwmTripLevel) (4 + k) = false → Gives (.tripClr (bitw k)) s (s1.lower Reg.pwmTripLevel (bitw k)))
    ∧ (k < 4 → bit (s.reg Reg.pwmTripLevel) (4 + k) = true → Gives (.tripClr (bitw k)) s s1)

/-- R335 to R338, R346, R347, R351: the two outputs of a PWM channel are never active together; the reference is high for the compare
value's steps, from the start of the period or about its middle, and with none or all of them never or always; a trip makes both
inactive, forcing gives the inactive levels or a shorted winding, and a channel that is off, or a device below READY, drives low. -/
def Obligations.PwmLevels : Prop :=
  ∀ (n t0 : Nat) (s : State),
    let cfg := s.reg (Reg.pwmChCfg n)
    let p := s.pw n
    let now := 64 * s.tmu.ns
    let r := (p.refAt (bit cfg 1) now).1
    let rise := if bit cfg 1 then (p.steps - p.cmp) / 2 else 0
    let high := (s.pwmLevels n).1 != bit cfg 4
    let low := (s.pwmLevels n).2 != bit cfg 5
    (s.up = true → bit cfg 0 = true →
      (high = true → low = false)
      ∧ (s.pwmTripped n = true → high = false ∧ low = false)
      ∧ (s.pwmTripped n = false → p.force = 1 → high = false ∧ low = false)
      ∧ (s.pwmTripped n = false → p.force = 2 → high = false ∧ low = bit cfg 6)
      ∧ (p.force = 0 → p.start = some t0 → (r = false → high = false) ∧ (r = true → low = false)))
    ∧ (p.start = some t0 → t0 ≤ now →
      (p.cmp = 0 → r = false) ∧ (p.cmp ≠ 0 → p.steps ≤ p.cmp → r = true)
      ∧ (p.cmp ≠ 0 → p.cmp < p.steps → r = decide (t0 + 5 * rise ≤ now ∧ now < t0 + 5 * (rise + p.cmp))))
    ∧ (s.up = false ∨ bit cfg 0 = false → s.pwmLevels n = (false, false))

/-- R194, R195: a host write to an engine's memory is at once while its table is not active; otherwise data memory's waits for the
boundary in a queue of 64, with an event when it is full, and kernel memory's is ignored with an event. R60, R101, R555: an aligned word written to shared SRAM reads back, and every other word of the host's area keeps its
data; the device's own area reads 0 and is not written; a scrub pass ends with its event. -/
def Obligations.MemoryAccesses : Prop :=
  (∀ (le o : Nat) (v : Word) (s : State), s.serves = true → s.up = true → s.engineThere le = true → o < 0x28000 → o % 4 = 0 →
    (s.tableActive le = false → Brings (.leMemoryWrite le o v) s fun t => t.leWord le o = v ∧ t = { s with leMem := t.leMem, out := t.out, bus := t.bus }
      ∧ ∀ le' o', o' < 0x40000 → (le' ≠ le ∨ o' < o ∨ o + 4 ≤ o') → t.leByte le' o' = s.leByte le' o')
    ∧ (s.tableActive le = true → o < 0x20000 → (s.eng le).writeQ.length < 64 →
      Gives (.leMemoryWrite le o v) s (s.onEng le fun e => { e with writeQ := e.writeQ ++ [(o, v)] }))
    ∧ (s.tableActive le = true → o < 0x20000 → 64 ≤ (s.eng le).writeQ.length → Gives (.leMemoryWrite le o v) s (s.event (Reg.leStat le) 0))
    ∧ (s.tableActive le = true → 0x20000 ≤ o → Gives (.leMemoryWrite le o v) s (s.event (Reg.leStat le) 1)))
  ∧ (∀ (o : Nat) (d : Bytes) (s : State), s.serves = true → s.sramOn = true → s.qspi = false →
    (o % 8 = 0 → o + 8 ≤ sramOwn → d.length = 8 → Brings (.sharedSramAccess o (d.map some) 0 []) s fun t =>
      t.sramData (o / 8) = BitVec.ofNat 64 (leNat d) ∧ t.sramErr (o / 8) = 0
      ∧ (∀ w, w ≠ o / 8 → t.sramData w = s.sramData w ∧ t.sramErr w = s.sramErr w)
      ∧ t = { s with sram := t.sram, sramFlip := t.sramFlip, out := t.out, bus := t.bus })
    ∧ (o % 8 = 0 → o + 8 ≤ sramOwn → s.sramErr (o / 8) = 0 → Gives (.sharedSramAccess o [] 8 []) s
      (s.onBus fun b => { b with rdata := leBytes 8 (s.sramData (o / 8)).toNat }))
    ∧ (sramOwn ≤ o → o + d.length ≤ sramSize → d ≠ [] → Gives (.sharedSramAccess o (d.map some) 0 []) s s
      ∧ Gives (.sharedSramAccess o [] d.length []) s (s.onBus fun b => { b with rdata := zeros d.length }))
    ∧ (s.up = true → s.sramFlip = [] → Gives (.scrubPassDone []) s (s.event Reg.sysStat 2)))

/-- R36, R60: an access to shared SRAM keeps the memory in its canonical form. -/
def Obligations.SramStaysCanonical : Prop :=
  ∀ (o n : Nat) (d : List (Option Byte)) (flips : List Nat) (s t : State), Memory.wf s.sram = true →
    exec (.sharedSramAccess o d n flips) s = .next t → Memory.wf t.sram = true

/-! ### Network time, Ethernet and CAN (R459 to R488) -/

/-- R459, R460, R462 to R467, R469: a tick adds 40 ns and the correction, of which an interpolated instant has taken its part; a
measurement steps the time while a step is armed outside RUN, is only shown during a slew, and else trims the servo or
starts a slew; a slew ends with the servo's rate; lock follows eight offsets in a row; without Announce the grandmaster is
lost. A transmitter sends Sync, Announce, and answers. -/
def Obligations.NetworkTime : Prop :=
  ∀ (m : PtpMsg) (s : State),
    (s.counts = true → -200000 ≤ s.rho → s.rho ≤ 200000 → Brings .referenceTick s fun t =>
      t.tmu.ns * 2 ^ 32 + t.tmu.frac = s.tmu.ns * 2 ^ 32 + s.tmu.frac + ((increment s.rho).toNat - s.tmu.lag) ∧ t.tmu.frac < 2 ^ 32
      ∧ (0 : Int) < increment s.rho ∧ t.tmu.lag = 0 ∧ t.tmu.lead = 0 ∧ t.inn.uptime = s.inn.uptime + (40 - s.tmu.lead))
    ∧ (s.counts = false → Gives .referenceTick s s)
    ∧ (bit (s.reg Reg.tmuState) 2 = true → Brings .slewEnd s fun t => t.tmu = { s.tmu with rho := s.tmu.ri } ∧ bit (t.reg Reg.tmuState) 2 = false)
    ∧ (8 ≤ s.tmu.inRun → Brings .lockEvt s fun t => bit (t.reg Reg.tmuState) 0 = true
      ∧ (bit (s.reg Reg.tmuState) 0 = false → bit (t.reg Reg.tmuStat) 0 = true))
    ∧ (s.tmu.inRun < 8 → 8 ≤ s.tmu.outRun → Brings .lockEvt s fun t => bit (t.reg Reg.tmuState) 0 = false
      ∧ (bit (s.reg Reg.tmuState) 0 = true → bit (t.reg Reg.tmuStat) 0 = true))
    ∧ (s.tmu.gm.isSome = true → s.transmits = false → Brings .holdover s fun t => t.tmu.gm = none ∧ t.tmu.rho = s.tmu.ri
      ∧ bit (t.reg Reg.tmuState) 0 = false ∧ bit (t.reg Reg.tmuState) 1 = true ∧ bit (t.reg Reg.tmuState) 5 = false ∧ bit (t.reg Reg.tmuStat) 3 = true)
    ∧ (s.ptpRuns = true → s.transmits = true → s.up = true →
      let q := (s.mac s.ptpPort).ptp
      Brings .ptpSyncSend s (fun t => (t.mac s.ptpPort).ptp = q ++ [s.ptpFrame { kind := 0, seq := s.tmu.seqId } 0]
        ∧ t.tmu = { s.tmu with seqId := (s.tmu.seqId + 1) % 65536 })
      ∧ Brings .announceSend s (fun t => (t.mac s.ptpPort).ptp = q ++ [s.ptpFrame { kind := 11, seq := s.tmu.seqId } 0]
        ∧ t.tmu = { s.tmu with seqId := (s.tmu.seqId + 1) % 65536 })
      ∧ (m.port = s.ptpPort → m.domain = s.ptpDomain → m.kind = 1 → Brings (.ptpMessage m) s fun t =>
        (t.mac s.ptpPort).ptp = q ++ [s.ptpFrame
            { kind := 9, seq := m.seqId, who := leBytes 8 m.source.toNat ++ beBytes 2 m.portNo.toNat, corr := m.correction } (s.rxStamp m)]
        ∧ t.tmu = s.tmu))
    ∧ (s.ptpRuns = false ∨ m.port ≠ s.ptpPort ∨ m.domain ≠ s.ptpDomain → Gives (.ptpMessage m) s s)
    ∧ (s.ptpRuns = true → s.transmits = false → m.port = s.ptpPort → m.domain = s.ptpDomain → m.kind = 11 → s.tmu.gm = none →
      Brings (.ptpMessage m) s fun t => t.tmu.gm = some m.source ∧ t.tmu.annAt = s.inn.uptime ∧ t.reg Reg.tmuGmIdLo = lo64 m.source
        ∧ t.reg Reg.tmuGmIdHi = hi64 m.source ∧ bit (t.reg Reg.tmuState) 5 = true ∧ (s.tmu.hadGm = true → bit (t.reg Reg.tmuStat) 4 = true))
    ∧ (∀ t1 t2 t3, s.ptpRuns = true → s.transmits = false → m.port = s.ptpPort → m.domain = s.ptpDomain → m.kind = 9 → s.tmu.gm = some m.source →
      m.requester = s.clockId → m.seqId = s.tmu.delaySeq → s.tmu.t1 = some t1 → s.tmu.t2 = some t2 → s.tmu.t3 = some t3 →
      let d := half ((t2 - t1) + (m.originNs - m.correction - t3))
      let θ := t2 - t1 - d
      let ri := clampI (-200000) 200000 (s.tmu.ri - rndDiv (θ * s.field Reg.tmuServo 23 12) 256)
      let slewing := bit (s.reg Reg.tmuState) 2
      Brings (.ptpMessage m) s (fun t => t.reg Reg.tmuOffset = wInt (sat32 θ) ∧ t.reg Reg.tmuPathDly = wInt (sat32 d) ∧ t.tmu.t3 = none
        ∧ (slewing = false → bit (t.reg Reg.tmuState) 1 = false))
      ∧ (slewing = true → (s.tmu.armed = false ∨ s.running = true) → Brings (.ptpMessage m) s fun t =>
        t.tmu = { s.tmu with t3 := none } ∧ t.reg Reg.tmuState = s.reg Reg.tmuState)
      ∧ (s.tmu.armed = true → s.running = false → Brings (.ptpMessage m) s fun t => t.tmu.ns = ((s.tmu.ns : Int) - θ).toNat ∧ t.tmu.armed = false
        ∧ bit (t.reg Reg.tmuState) 3 = true ∧ bit (t.reg Reg.tmuStat) 1 = true)
      ∧ (s.tmu.armed = false → bit (s.reg Reg.tmuState) 2 = false → θ.natAbs ≤ s.field Reg.tmuThr 15 0 → Brings (.ptpMessage m) s fun t =>
        t.tmu.ns = s.tmu.ns ∧ t.tmu.ri = ri ∧ t.tmu.rho = clampI (-200000) 200000 (ri - rndDiv (θ * s.field Reg.tmuServo 11 0) 256))
      ∧ (s.tmu.armed = false → bit (s.reg Reg.tmuState) 2 = false → s.field Reg.tmuThr 15 0 < θ.natAbs → Brings (.ptpMessage m) s fun t =>
        t.tmu.ns = s.tmu.ns ∧ t.tmu.ri = s.tmu.ri ∧ bit (t.reg Reg.tmuState) 2 = true ∧ bit (t.reg Reg.tmuStat) 2 = true
        ∧ (0 < s.field Reg.tmuServo 31 24 → s.field Reg.tmuServo 31 24 ≤ 200 →
          t.tmu.rho = clampI (-200000) 200000 (s.tmu.ri - sgn θ * s.field Reg.tmuServo 31 24 * 1000))))
    ∧ (s.answers 0x04 0 = true →
      Gives (.ptpEn false) s ((dropHold 0x04 s).setReg Reg.tmuCtrl 0)
      ∧ (s.ptpEnabled = false → Brings (.ptpEn true) s fun t => t.ptpEnabled = true ∧ t.tmu = { s.tmu with armed := true, ri := 0 })
      ∧ (s.ptpEnabled = true → Brings (.ptpEn true) s fun t => t.ptpEnabled = true ∧ t.tmu = s.tmu)
      ∧ (s.running = false → Brings .restep s fun t => t.tmu = { s.tmu with armed := true, ri := 0 } ∧ bit (t.reg Reg.tmuState) 3 = false ∧ t.ptpEnabled = s.ptpEnabled)
      ∧ (s.running = true → Brings .restep s fun t => t.tmu = s.tmu ∧ t.reg Reg.tmuState = s.reg Reg.tmuState ∧ t.ptpEnabled = s.ptpEnabled))

/-- R439, R462, R473 to R476, R487, R505, R506: the checks of a received frame in their order, a telegram's among them; four queues in
strict priority; a frame leaves padded and with its FCS; a Sync that leaves has its Follow_Up, and the stamp of a delay request
is kept; a timed frame starts at its launch time and a late one is dropped; a change of the link is told of. -/
def Obligations.EthernetMacs : Prop :=
  ∀ (m : Nat) (frame : Bytes) (fcs up slow : Bool) (f : EthFrame) (r : List EthFrame) (s : State), m < 2 → s.macOn m = true →
    let good := 60 ≤ frame.length ∧ frame.length ≤ (if tagged frame then 1518 else 1514)
    let took := s.countUp (Reg.ethRxFrames m) 31 0 1
    let sent (q : Nat) (t : State) : Prop := Output.eth m q (onWire f.data) ∈ t.out
      ∧ t.field (Reg.ethTxFrames m) 31 0 = min (2 ^ 32 - 1) (s.field (Reg.ethTxFrames m) 31 0 + 1)
    (fcs = false ∨ ¬ good → Gives (.ethFrameReceive m frame fcs) s ((s.countUp (Reg.ethRxErr m) 31 0 1).event (Reg.ethStat m) 1))
    ∧ (good → (etherType frame = [0x88, 0xF7] ∧ s.ptpPort = m ∨ etherType frame ≠ [0x88, 0xB5] ∧ (pauseFrame frame = true ∨ s.ethToHost m frame = false)) →
      Gives (.ethFrameReceive m frame true) s took)
    ∧ (good → etherType frame = [0x88, 0xB5] → Gives (.ethFrameReceive m frame true) s
        (telegramArrives (fun c => decide (s.connImg c 1 1 % 4 = m ∨ s.connImg c 1 1 % 4 = 2)) (frame.drop (if tagged frame then 18 else 14)) took))
    ∧ (good → ¬ (etherType frame = [0x88, 0xF7] ∧ s.ptpPort = m) → etherType frame ≠ [0x88, 0xB5] → pauseFrame frame = false → s.ethToHost m frame = true →
      ((s.dch (16 + m)).desc = none → Gives (.ethFrameReceive m frame true) s ((took.countUp (Reg.ethRxDrop m) 31 0 1).event (Reg.ethStat m) 2))
      ∧ (∀ d, (s.dch (16 + m)).desc = some d → s.cap 11 = true → s.dmaState (16 + m) = 1 → dOp d = 5 → dDstDev d = false → s.masters = true → frame.length ≤ dLen d →
        Brings (.ethFrameReceive m frame true) s fun t => Output.hostWrite (BitVec.ofInt 64 (dDst d)) frame ∈ t.out))
    ∧ ((s.mac m).ptp = f :: r → Brings (.ethFrameTransmit m) s fun t => sent 0 t
      ∧ (f.ptp = none → t.mac m = { s.mac m with ptp := r })
      ∧ ∀ g, f.ptp = some g →
        (g.kind = 0 → m = s.ptpPort → (t.mac m).ptp = r ++ [s.ptpFrame { g with kind := 8 } s.txStamp])
        ∧ (g.kind = 1 → g.seq = s.tmu.delaySeq → t.tmu = { s.tmu with t3 := some s.txStamp }))
    ∧ (f.ptp = none → (s.mac m).ptp = [] → (s.mac m).safe = f :: r → Brings (.ethFrameTransmit m) s fun t => sent 1 t ∧ t.mac m = { s.mac m with safe := r })
    ∧ (f.ptp = none → (s.mac m).ptp = [] → (s.mac m).safe = [] → (s.mac m).timed = [] → (s.mac m).best = f :: r → Brings (.ethFrameTransmit m) s fun t =>
      sent 3 t ∧ t.mac m = { s.mac m with best := r })
    ∧ (f.ptp = none → (s.mac m).ptp = [] → (s.mac m).safe = [] → (s.mac m).timed = f :: r → s.launchAt m f ≤ s.tmu.ns → s.tmu.ns ≤ s.latestAt m f →
      Brings (.ethFrameTransmit m) s fun t => sent 2 t ∧ t.mac m = { s.mac m with timed := r } ∧ bit (t.reg (Reg.ethStat m)) 4 = true)
    ∧ (f.ptp = none → (s.mac m).ptp = [] → (s.mac m).safe = [] → (s.mac m).timed = f :: r → s.tmu.ns ≤ s.latestAt m f → Brings (.timedFrameLaunch m) s fun t =>
      let at_ := max s.tmu.ns (s.launchAt m f) + s.field (Reg.ethPhyDly m) 15 0
      sent 2 t ∧ t.mac m = { s.mac m with timed := r } ∧ bit (t.reg (Reg.ethStat m)) 4 = true
      ∧ t.reg (Reg.ethTxTsNs m) = w32 (at_ % 10 ^ 9) ∧ t.reg (Reg.ethTxTsSec m) = w32 (at_ / 10 ^ 9))
    ∧ ((s.mac m).timed = f :: r → s.latestAt m f < s.tmu.ns → Brings (.timedFrameLate m) s fun t => t.mac m = { s.mac m with timed := r }
      ∧ bit (t.reg (Reg.ethStat m)) 3 = true ∧ t.field (Reg.ethLateCnt m) 31 0 = min (2 ^ 32 - 1) (s.field (Reg.ethLateCnt m) 31 0 + 1))
    ∧ (bit (s.reg (Reg.ethLink m)) 0 ≠ up → Brings (.linkEvt m up slow) s fun t => bit (t.reg (Reg.ethLink m)) 0 = up
      ∧ (up = true → bit (t.reg (Reg.ethLink m)) 1 = slow) ∧ bit (t.reg (Reg.ethStat m)) 0 = true)
    ∧ (bit (s.reg (Reg.ethLink m)) 0 = up → Gives (.linkEvt m up slow) s s)

/-- R479 to R482, R484: a frame that passes a filter goes to the next receive entry if the device owns it, else it is lost; requests,
aborts and returns of entries; the sending of the entry on the bus, or into the own receiver; errors raise the counters (by the
steps of log 19), bus-off and the way back; rate detection. -/
def Obligations.CanControllers : Prop :=
  ∀ (c i j : Nat) (f : CanFrame) (tx ack dominant : Bool) (v : Word) (s : State), s.answers 0x06 c = true →
    let s1 := dropHold 0x06 s
    let e := (s.can c).next
    let a := Reg.canRxe c (20 * e)
    let x := s.can c
    let st := Reg.canState c
    let own := Reg.canRxOwn c
    let stat := Reg.canStat c
    (Brings (.txReq c v) s fun t => t.reg (Reg.canTxReq c) = s.reg (Reg.canTxReq c) ||| (v &&& 0xFF)
      ∧ (s.canSends c = true → x.onBus = none → (t.can c).onBus = lowest (t.txIdent c) (t.canPending c)))
    ∧ (Brings (.txAbort c v) s fun t => ∀ k, k < 8 →
      (bit v k = true → x.onBus ≠ some k → bit (t.reg (Reg.canTxReq c)) k = false)
      ∧ (bit v k = false ∨ x.onBus = some k → bit (t.reg (Reg.canTxReq c)) k = bit (s.reg (Reg.canTxReq c)) k)
      ∧ (bit v k = true → x.onBus = some k → (t.can c).abort.getLsbD k = true))
    ∧ Gives (.rxRet c v) s (s1.lower own v)
    ∧ (s.canConf c = 2 → Gives (.recover c) s (s1.setField st 3 3 1))
    ∧ (s.canConf c ≠ 2 → Gives (.recover c) s s1)
    ∧ (s.detectNext c 0 = some i → Brings (.detect c) s fun t => t.canDetecting c = true ∧ (t.can c).cand = i ∧ (t.can c).hits = 0 ∧ (t.can c).listen = true ∧ (t.can c).onBus = none)
    ∧ (s.detectNext c 0 = none → Brings (.detect c) s fun t => t.canDetecting c = false ∧ bit (t.reg stat) 6 = true)
    ∧ (s.canDetecting c = true → s.detectNext c (x.cand + 1) = some i → Brings (.detectCandidateTimeout c) s fun t =>
      t.canDetecting c = true ∧ (t.can c).cand = i ∧ (t.can c).hits = 0)
    ∧ (s.canDetecting c = true → s.detectNext c (x.cand + 1) = none → Brings (.detectCandidateTimeout c) s fun t =>
      t.canDetecting c = false ∧ bit (t.reg stat) 6 = true ∧ (t.can c).listen = false)
    ∧ (s.canOn c = true →
      (s.canHears c = true → (f.fdf = true → bit (s.reg (Reg.canCfg c)) 3 = true) →
        (s.canDetecting c = false → s.canFilter c f = some i → e < 32 → bit (s.reg own) e = false → Brings (.canFrameReceive c f) s fun t =>
          t.reg own = s.reg own ||| bitw e ∧ (t.can c).next = (e + 1) % 32 ∧ bit (t.reg stat) 0 = true
          ∧ t.reg a = w32 (f.id.toNat + 2 ^ 29 * b2n f.ide + 2 ^ 30 * b2n f.rtr)
          ∧ t.reg (a + 4) = w32 (f.dlc.toNat + 16 * b2n f.fdf + 32 * b2n f.brs + 64 * b2n f.esi + 256 * i)
          ∧ t.reg (a + 8) = w32 (canStamp (s.tmu.ns - f.age) / 10 ^ 9) ∧ t.reg (a + 12) = w32 (canStamp (s.tmu.ns - f.age) % 10 ^ 9))
        ∧ (s.canDetecting c = false → s.canFilter c f = some i → e < 32 → bit (s.reg own) e = true → Brings (.canFrameReceive c f) s fun t =>
          t.reg own = s.reg own ∧ bit (t.reg stat) 2 = true ∧ t.field (Reg.canRxLost c) 15 0 = min 65535 (s.field (Reg.canRxLost c) 15 0 + 1))
        ∧ (s.canDetecting c = false → s.canFilter c f = none → Brings (.canFrameReceive c f) s fun t => t.reg own = s.reg own ∧ (t.can c).next = e)
        ∧ (s.canDetecting c = true → x.hits = 0 → Brings (.canFrameReceive c f) s fun t => (t.can c).hits = 1 ∧ t.reg own = s.reg own)
        ∧ (s.canDetecting c = true → x.hits ≠ 0 → x.cand < 4 → Brings (.canFrameReceive c f) s fun t =>
          t.reg (Reg.canNbt c) = s.reg (Reg.canDetNbt c x.cand) &&& 0x3FFFFFFF#32 ∧ t.canDetecting c = false ∧ bit (t.reg stat) 5 = true))
      ∧ (x.above = false → Gives (.busOff c) s s)
      ∧ (x.above = true → Brings (.busOff c) s fun t => t.canConf c = 2 ∧ bit (t.reg stat) 4 = true ∧ (t.can c).onBus = none
        ∧ (bit (s.reg (Reg.canCfg c)) 4 = true → bit (t.reg st) 3 = true))
      ∧ (let n := canPenalty tx ack dominant (decide (s.canConf c = 1)) (s.field (Reg.canErr c) 7 0) (s.field (Reg.canErr c) 15 8)
        Brings (.canBusError c tx ack dominant) s fun t => t.field (Reg.canErr c) 7 0 = min 255 n.1 ∧ t.field (Reg.canErr c) 15 8 = min 128 n.2
          ∧ (t.can c).above = decide (255 < n.1) ∧ t.canConf c = b2n (decide (128 ≤ n.1 ∨ 128 ≤ n.2))
          ∧ (s.canConf c = 0 → (128 ≤ n.1 ∨ 128 ≤ n.2) → bit (t.reg stat) 3 = true)))
    ∧ (s.canConf c = 2 → bit (s.reg st) 3 = true → Brings (.canRecoveryDone c) s fun t => t.reg (Reg.canErr c) = 0 ∧ t.canConf c = 0 ∧ bit (t.reg st) 3 = false)
    ∧ (s.canSends c = true → x.onBus = some j →
      let g := s.txFrame c j
      let g := { g with data := if g.rtr then [] else g.data.take (dlcBytes g.fdf g.dlc.toNat) }
      (j < 8 → s.canMode c ≠ 2 → Brings (.txDone c j) s fun t => Output.can c j g ∈ t.out
          ∧ bit (t.reg (Reg.canTxReq c)) j = false ∧ bit (t.reg stat) 1 = true
          ∧ t.reg (Reg.canTxe c (20 * j) + 8) = w32 (canStamp x.sof / 10 ^ 9) ∧ t.reg (Reg.canTxe c (20 * j) + 12) = w32 (canStamp x.sof % 10 ^ 9))
      ∧ (j < 8 → s.canMode c = 2 → s.canFilter c g = some i → e < 32 → bit (s.reg own) e = false → Brings (.txDone c j) s fun t =>
          bit (t.reg (Reg.canTxReq c)) j = false ∧ t.reg own = s.reg own ||| bitw e ∧ (t.can c).next = (e + 1) % 32)
      ∧ (∀ w p, j = 8 → x.island = some (w, p) → s.canMode c ≠ 2 → Brings (.txDone c j) s fun t => (t.can c).island = none
          ∧ Output.can c 8 { id := BitVec.ofNat 29 (bits w 28 0), ide := bit w 31, rtr := false, fdf := true, brs := true, esi := false
                             dlc := 13, data := p, age := s.tmu.ns - x.sof } ∈ t.out))

/-! ### DMA, acquisition and the Innkeeper (R490 to R536) -/

/-- R490, R493, R497 to R500, R502, R503: a channel starts at its head, stops, looks again; a fetched descriptor is put in flight,
waited for, or halts the channel; its data is moved, its status written, and the next one taken. R511, R513, R514: the read index moves within what is filled, and beyond it only an event; a software trigger and the trigger line
leave marks in a running acquisition; a change of rate that the fill asks for takes one level. -/
def Obligations.TransferEngines : Prop :=
  (∀ (ch : Nat) (d host : Bytes) (be wf : Bool) (s : State), ch < 32 →
    let s1 := dropHold 0x07 s
    let halted (cause : Nat) (t : State) : Prop := t.dmaState ch = 4 ∧ t.field (Reg.dmaChState ch) 5 4 = cause ∧ (t.dch ch).desc = none
      ∧ bit (t.reg (Reg.dmaChStat ch)) 2 = true ∧ bit (t.reg Reg.dmaStat) ch = true
    (s.answers 0x07 0 = true →
      (ch < 22 →
        (s.dmaState ch = 0 ∨ s.dmaState ch = 4 → Brings (.dmaStart ch) s fun t => t.reg (Reg.dmaChState ch) = 1 ∧ t.dch ch = {}
          ∧ t.dmaCur ch = s.reg64 (Reg.dmaChHeadLo ch) (Reg.dmaChHeadHi ch))
        ∧ (s.dmaState ch ≠ 0 → s.dmaState ch ≠ 4 → Gives (.dmaStart ch) s s1)
        ∧ (s.dmaState ch = 1 → (s.dch ch).desc.isSome = true → Gives (.dmaStop ch) s (s1.setDma ch 5))
        ∧ (s.dmaState ch = 1 ∧ (s.dch ch).desc = none ∨ s.dmaState ch = 2 ∨ s.dmaState ch = 3 → Brings (.dmaStop ch) s fun t =>
          t.dmaState ch = 0 ∧ t.dch ch = {} ∧ bit (t.reg (Reg.dmaChStat ch)) 3 = true ∧ bit (t.reg Reg.dmaStat) ch = true)
        ∧ (s.dmaState ch = 0 ∨ s.dmaState ch = 4 ∨ s.dmaState ch = 5 → Gives (.dmaStop ch) s s1)
        ∧ (s.dmaState ch = 2 → Gives (.kick ch) s (s1.onDch ch fun c => { c with refetch := true }))
        ∧ (s.dmaState ch ≠ 2 → Gives (.kick ch) s s1))
      ∧ (22 ≤ ch → Gives (.dmaStart ch) s (chStat ch 5 s1) ∧ Gives (.dmaStop ch) s (chStat ch 5 s1) ∧ Gives (.kick ch) s (chStat ch 5 s1)))
    ∧ (s.up = true → s.dmaState ch = 2 → Gives (.waitOwnPoll ch) s (s.onDch ch fun c => { c with refetch := true }))
    ∧ (s.up = true → s.cap 11 = true → s.power.cut = false → (s.dch ch).desc = none → s.dmaState ch = 1 →
      let budget := s.field (Reg.dmaChCfg ch) 31 16
      (budget ≠ 0 → budget ≤ s.field (Reg.dmaChState ch) 31 16 → Brings (.descriptorFetch ch host be) s (halted 2))
      ∧ (budget = 0 ∨ s.field (Reg.dmaChState ch) 31 16 < budget → s.chainDev ch = false → s.qspi = false →
        (s.masters = false → Gives (.descriptorFetch ch host be) s (s.setDma ch 3))
        ∧ (s.masters = true → s.dmaCur ch % 16 ≠ 0 → Brings (.descriptorFetch ch host be) s (halted 1))
        ∧ (s.masters = true → Brings (.descriptorFetch ch host true) s (halted 1))
        ∧ (s.masters = true → s.dmaCur ch % 16 = 0 → host.length = 48 → (dFlag host 4 = false ∨ dStatus host = 0) → s.formatOk ch host = true →
          Brings (.descriptorFetch ch host false) s fun t => (t.dch ch).desc = some host ∧ t.dmaState ch = 1)
        ∧ (s.masters = true → s.dmaCur ch % 16 = 0 → host.length = 48 → dFlag host 4 = true → dStatus host ≠ 0 →
          Brings (.descriptorFetch ch host false) s fun t => (t.dch ch).desc = none ∧ t.dmaState ch = 2)))
    ∧ (s.up = true → (s.dch ch).desc = some d → (s.dch ch).queued = false → dOp d = 0 → dSrcDev d = false → dDstDev d = false → s.masters = true →
      s.chainDev ch = false → dLen d ≤ host.length → 0 < dLen d →
      let back (st : Byte) : Output := .hostWrite (BitVec.ofNat 64 (s.dmaCur ch + 2)) [st]
      (Brings (.descriptorComplete ch host false false) s fun t =>
        Output.hostWrite (BitVec.ofInt 64 (dDst d)) (host.take (dLen d)) ∈ t.out ∧ back 1 ∈ t.out
        ∧ t.field (Reg.dmaChState ch) 31 16 = min 65535 (s.field (Reg.dmaChState ch) 31 16 + 1) ∧ (t.dch ch).desc = none
        ∧ (dEnd d = true → t.dmaState ch = 0 ∧ bit (t.reg (Reg.dmaChStat ch)) 4 = true)
        ∧ (dEnd d = false → t.dmaCur ch = dNext d ∧ (s.dmaState ch ≠ 5 → t.dmaState ch = 1) ∧ (s.dmaState ch = 5 → t.dmaState ch = 0)))
      ∧ (Brings (.descriptorComplete ch host true false) s fun t => back 2 ∈ t.out ∧ bit (t.reg (Reg.dmaChStat ch)) 1 = true
        ∧ t.field Reg.dmaBadCnt 31 0 = min (2 ^ 32 - 1) (s.field Reg.dmaBadCnt 31 0 + 1))
      ∧ Brings (.descriptorComplete ch host be true) s (halted 1))
    ∧ ((s.dch ch).desc = none → Gives (.descriptorComplete ch host be wf) s s))
  ∧ (∀ (v : Word) (s : State),
    (s.answers 0x15 0 = true →
      ((v - s.reg Reg.acqRd).toNat ≤ s.acqFill → Gives (.acqRd v) s ((dropHold 0x15 s).setReg Reg.acqRd v))
      ∧ (s.acqFill < (v - s.reg Reg.acqRd).toNat → Gives (.acqRd v) s ((dropHold 0x15 s).event Reg.acqStat 5))
      ∧ (s.acqConfigured = false → Gives .trigSw s (dropHold 0x15 s))
      ∧ (s.acqConfigured = true → s.acqRunning = true → Brings .trigSw s fun t =>
        t.acq.marks = s.acq.marks ++ [(2, padTo 16 (leBytes 1 5 ++ leBytes 1 0 ++ leBytes 2 5 ++ stampBytes s.tmu.ns))]
        ∧ (bit s.acq.flags 1 = true → Output.trigLine ∈ t.out ∧ t.acq.muteEnd = s.inn.uptime + 2000)))
    ∧ (s.up = true → s.cap 1 = true → bit s.acq.trigEn 0 = true → s.acq.muteEnd ≤ s.inn.uptime → s.acqRunning = true → ∃ d, d < 16 ∧
      Gives .acqTrigLine s ({ s with draws := s.draws + 1 }.onAcq fun x =>
        { x with marks := x.marks ++ [(2, padTo 16 (leBytes 1 3 ++ leBytes 1 0 ++ leBytes 2 3 ++ stampBytes (s.tmu.ns + d * 5 / 2)))] }))
    ∧ (s.inn.uptime < s.acq.muteEnd ∨ bit s.acq.trigEn 0 = false → Gives .acqTrigLine s s)
    ∧ (s.acq.rateDue = 0 → Gives .acqRateChange s s)
    ∧ (∀ l, s.acq.rateDue ≠ 0 → (s.acqLevel : Int) + s.acq.rateDue = (l : Nat) → l < 16 → Brings .acqRateChange s fun t =>
      t.acqLevel = l ∧ t.reg Reg.acqDecEff = w32 (s.acq.dec * 2 ^ l) ∧ bit (t.reg Reg.acqStat) 2 = true ∧ t.acq.rateDue = 0
      ∧ (s.acqRunning = true → t.acq.marks = s.acq.marks ++ [(3, padTo 16 (leBytes 4 (s.acq.dec * 2 ^ l) ++ leBytes 4 s.acqFill))])))

/-- R518 to R520, R522, R526, R531, R532, R534: samples count against thresholds, and three in a row begin or end a crossing, with its
record in the ledger; heartbeats; the ledger and the wear accounts go to flash; a nameplate gets its wear block and is
compared; flash pages are repaired or their blocks marked; a silent update closes. -/
def Obligations.InnkeeperEvents : Prop :=
  ∀ (i slot part page block core : Nat) (lim copyOk : Bool) (np : Bytes) (values : List Int) (s : State),
    let k (b : Bool) := 4 * i + b2n b
    let on (b : Bool) := bit (s.reg (Reg.mgtSense i)) (if b then 17 else 16)
    let ex (b : Bool) := Map.get (fun _ => 0) s.inn.excess (k b)
    let ins (b : Bool) := Map.get (fun _ => 0) s.inn.inside (k b)
    let told (code unit : Nat) (t : State) : Prop := t.inn.next = s.inn.next + 1
      ∧ ∃ e ∈ t.inn.buffer, e.index = s.inn.next ∧ e.code = code ∧ e.unit = unit
    let w := s.wearOf slot part
    let all := s.inn.ledger ++ s.inn.buffer
    let read (t : State) : State := if page = 0x147F then t.onInn fun n => { n with scrubDate := t.tmu.ns / 10 ^ 9 } else t
    (s.serves = false → ∀ e ∈ [Instr.monitorSample values, .monitorCrossing i, .heartbeat core, .ledgerFlashWrite, .nameplateWriteBack slot part,
      .wearLedgerCopy, .npIdentityCheck slot part np, .flashScrub page lim copyOk, .flashRewrite block copyOk, .updateTimeout], Gives e s s)
    ∧ (s.serves = true →
    (values.length = 12 → i < 12 → Brings (.monitorSample values) s fun t =>
      t.field (Reg.mgtSense i) 15 0 = toU 16 (values.getD i 0) ∧ bit (t.reg (Reg.mgtSense i)) 16 = on false ∧ bit (t.reg (Reg.mgtSense i)) 17 = on true
      ∧ (s.judged i = true →
        Map.get (fun _ => 0) t.inn.excess (k lim) = (if (sensor i).beyond lim (values.getD i 0) then min 3 (ex lim + 1) else 0)
        ∧ Map.get (fun _ => 0) t.inn.inside (k lim) = (if (sensor i).within lim (values.getD i 0) then min 3 (ins lim + 1) else 0)))
    ∧ (i < 12 → s.judged i = true →
      let still (b : Bool) := on b = false ∧ ex b < 3 ∨ on b = true ∧ ins b < 3
      (still false → still true → Gives (.monitorCrossing i) s s)
      ∧ (on lim = false → 3 ≤ ex lim → still (!lim) → Brings (.monitorCrossing i) s fun t =>
        bit (t.reg (Reg.mgtSense i)) (if lim then 17 else 16) = true ∧ bit (t.reg Reg.mgtMon) (if lim then 16 + i else i) = true
        ∧ bit (t.reg Reg.mgtStat) (b2n lim) = true ∧ told (0x0200 + 2 * b2n lim) i t)
      ∧ (on lim = true → 3 ≤ ins lim → still (!lim) → Brings (.monitorCrossing i) s fun t =>
        bit (t.reg (Reg.mgtSense i)) (if lim then 17 else 16) = false ∧ bit (t.reg Reg.mgtMon) (if lim then 16 + i else i) = false
        ∧ bit (t.reg Reg.mgtStat) (b2n lim) = true ∧ told (0x0201 + 2 * b2n lim) i t))
    ∧ (core < 4 → s.capX (16 + core) = true →
      Gives (.heartbeat core) s (s.onInn fun n => { n with beat := Map.set (fun _ => 0) n.beat core n.uptime }))
    ∧ (s.inn.flashOk = false → Gives .ledgerFlashWrite s s)
    ∧ (s.inn.flashOk = true → all.length ≤ 131072 → Gives .ledgerFlashWrite s (s.onInn fun n => { n with ledger := all, buffer := [] }))
    ∧ (s.inn.flashOk = true → 131072 < all.length → s.inn.buffer ≠ [] → Brings .ledgerFlashWrite s fun t => t.inn.ledger = all.drop 2048 ∧ told 0x0903 0xFFFF t)
    ∧ (part < 4 → w.state = 1 → s.writesPlates = true → identityOk (s.plate (s.platePlace slot w.source w.np)) = true →
      Brings (.nameplateWriteBack slot part) s fun t => (t.wearOf slot part).wseq = w.wseq + 1 ∧ (t.wearOf slot part).wbDue = false
        ∧ ∃ b, Output.nameplate slot part b ∈ t.out ∧ Bytes.word b 0 = w.wseq + 1 ∧ Bytes.num b 4 8 = w.used % 2 ^ 64
          ∧ Bytes.num b 12 4 = w.hours % 2 ^ 32 ∧ b.drop 28 = leBytes 4 (crc32 (b.take 28)))
    ∧ (part < 4 → w.state ≠ 1 ∨ s.writesPlates = false → Brings (.nameplateWriteBack slot part) s fun t => t.inn.wear = s.inn.wear ∧ t.inn.plates = s.inn.plates)
    ∧ (Brings .wearLedgerCopy s fun t => t.inn.wearFlash = if s.inn.flashOk then s.inn.wear else s.inn.wearFlash)
    ∧ (w.state = 1 → identityOk np = false → Brings (.npIdentityCheck slot part np) s fun t =>
      (t.wearOf slot part).state = 3 ∧ bit (t.reg Reg.mgtStat) 4 = true ∧ told 0x0803 slot t)
    ∧ (w.state = 1 → identityOk np = true → (np.drop 40).take 16 ≠ (w.ident.drop 40).take 16 → Brings (.npIdentityCheck slot part np) s fun t =>
      (t.wearOf slot part).state = 2 ∧ bit (t.reg Reg.mgtStat) 4 = true ∧ told 0x0802 slot t)
    ∧ (w.state ≠ 1 ∨ identityOk np = true ∧ (np.drop 40).take 16 = (w.ident.drop 40).take 16 → Brings (.npIdentityCheck slot part np) s fun t => t.inn.wear = s.inn.wear)
    ∧ (s.inn.flashOk = true → Gives (.flashScrub page true copyOk) s (read s))
    ∧ (s.inn.flashOk = true → s.hasCopy page = true → Brings (.flashScrub page false true) s fun t => bit (t.reg Reg.mgtStat) 6 = true ∧ told 0x0901 0xFFFF t)
    ∧ (s.inn.flashOk = true → s.hasCopy page = false ∨ copyOk = false → Brings (.flashScrub page false copyOk) s fun t =>
      page / 16 ∈ t.inn.failedBlocks ∧ bit (t.reg Reg.mgtStat) 6 = true ∧ told 0x0902 0xFFFF t)
    ∧ (s.inn.flashOk = true → (block * 65536 < bankBase s.inn.runBank ∨ bankBase s.inn.runBank + 0x800000 ≤ block * 65536) →
      Brings (.flashRewrite block true) s (fun t => bit (t.reg Reg.mgtStat) 6 = true ∧ told 0x0900 0xFFFF t)
      ∧ Brings (.flashRewrite block false) s (fun t => block ∈ t.inn.failedBlocks ∧ bit (t.reg Reg.mgtStat) 6 = true ∧ told 0x0902 0xFFFF t))
    ∧ (∀ u, s.inn.update = some u → u.waiting = none → Brings .updateTimeout s fun t => t.inn.update = none)
    ∧ ((s.inn.update = none ∨ ∃ u, s.inn.update = some u ∧ u.waiting.isSome = true) → Gives .updateTimeout s s))

/-! ### What the events of a unit leave unchanged -/

/-- The rows of network time write the time unit and its registers, the MAC's PTP queue and the passing of time, and a step of the
time shifts the instants that PWM channels and encoder emulation count from; those of a CAN controller write the controllers and
their registers, and a telegram the island and what `SAFE` shows of it. Nothing else differs, but for messages and a held
guarded value. -/
def Obligations.NetworkFrame : Prop :=
  ∀ (m : PtpMsg) (f : CanFrame) (on ack dominant : Bool) (c j : Nat) (v : Word) (s t : State),
    (∀ i ∈ [Instr.referenceTick, .slewEnd, .lockEvt, .holdover, .ptpMessage m, .ptpSyncSend, .announceSend, .ptpEn on, .restep],
      exec i s = .next t → t = { s with
          regs := t.regs, tmu := t.tmu, macs := t.macs, pwm := t.pwm, emu := t.emu, inn := { s.inn with uptime := t.inn.uptime }, out := t.out
          bus := { s.bus with msixArm := t.bus.msixArm, msixPba := t.bus.msixPba, guard := t.bus.guard } }
        ∧ ∀ a, a / 0x10000 ≠ 0x04 → t.reg a = s.reg a)
    ∧ (j ≤ 8 → (s.can c).next < 32 →
      ∀ i ∈ [Instr.canFrameReceive c f, .txDone c j, .txReq c v, .txAbort c v, .rxRet c v, .busOff c, .recover c, .canRecoveryDone c, .detect c,
        .detectCandidateTimeout c, .canBusError c on ack dominant],
      exec i s = .next t → t = { s with
          regs := t.regs, cans := t.cans, island := t.island, draws := t.draws, out := t.out
          bus := { s.bus with msixArm := t.bus.msixArm, msixPba := t.bus.msixPba, guard := t.bus.guard } }
        ∧ (∀ a, a / 0x10000 ∉ [0x06, 0x13] → t.reg a = s.reg a) ∧ ∀ n, n ≠ c → t.can n = s.can n)

/-- The rows of the MACs and of the DMA engine write MACs, channels and the memories that descriptors name, their registers, and
the events of those memories; a telegram the island and what `SAFE` shows of it; a PTP frame that leaves its stamp. Nothing else differs, but for messages, the passing of time and a held guarded value. -/
def Obligations.TransferFrame : Prop :=
  ∀ (m ch : Nat) (frame host : Bytes) (a b : Bool) (s t : State), ch < 32 → (∀ f ∈ (s.mac m).timed, f.ch < 32) →
    ∀ i ∈ [Instr.ethFrameReceive m frame a, .ethFrameTransmit m, .timedFrameLaunch m, .timedFrameLate m, .linkEvt m a b,
      .dmaStart ch, .dmaStop ch, .kick ch, .waitOwnPoll ch, .descriptorFetch ch host a, .descriptorComplete ch host a b],
    exec i s = .next t → t = { s with
        regs := t.regs, macs := t.macs, dma := t.dma, sram := t.sram, sramFlip := t.sramFlip, leMem := t.leMem, engines := t.engines
        tmu := { s.tmu with ns := t.tmu.ns, frac := t.tmu.frac, lag := t.tmu.lag, lead := t.tmu.lead, t3 := t.tmu.t3, pd1 := t.tmu.pd1 }
        inn := { s.inn with uptime := t.inn.uptime }, island := t.island, draws := t.draws, out := t.out
        bus := { s.bus with msixArm := t.bus.msixArm, msixPba := t.bus.msixPba, guard := t.bus.guard } }
      ∧ ∀ x, x / 0x10000 ∉ [0x00, 0x05, 0x07, 0x09, 0x13] → t.reg x = s.reg x

/-- The rows of the feedback channels, analog inputs and encoder emulation write these and their registers; those of the PWM outputs
write these and theirs, and the reload of a channel lets time pass to its instant. -/
def Obligations.InstrumentFrame : Prop :=
  ∀ (n k d d' : Nat) (a b c : Bool) (pos : BitVec 64) (crc : BitVec 6) (code : BitVec 16) (v : Word) (s t : State),
    (∀ i ∈ [Instr.encoderEdge n (a, b) d, .indexEdge n a, .serialEncoderDone n pos a b crc (d, c) d', .mtStrobe n a b, .adcConversion n code a,
        .fbkCfgWrite n v, .mtClr n, .mtZero n, .emuArm v],
      exec i s = .next t → t = { s with
          regs := t.regs, fbk := t.fbk, mts := t.mts, adc := t.adc, emu := t.emu, out := t.out
          bus := { s.bus with msixArm := t.bus.msixArm, msixPba := t.bus.msixPba, guard := t.bus.guard } }
        ∧ ∀ x, x / 0x10000 ∉ [0x0C, 0x0F, 0x17] → t.reg x = s.reg x)
    ∧ (exec (.pwmReload n a) s = .next t → t = { s with
          regs := t.regs, pwm := t.pwm, out := t.out, tmu := { s.tmu with ns := t.tmu.ns, frac := t.tmu.frac, lag := t.tmu.lag, lead := t.tmu.lead }
          inn := { s.inn with uptime := t.inn.uptime }, bus := { s.bus with msixArm := t.bus.msixArm, msixPba := t.bus.msixPba } }
        ∧ ∀ x, x / 0x10000 ≠ 0x0B → t.reg x = s.reg x)
    ∧ (∀ i ∈ [Instr.pwmTrip n a, .tripClr v, .pwmShadowWrite n k v, .pwmArm v],
      exec i s = .next t → t = { s with
          regs := t.regs, pwm := t.pwm, out := t.out
          bus := { s.bus with msixArm := t.bus.msixArm, msixPba := t.bus.msixPba, guard := t.bus.guard } }
        ∧ ∀ x, x / 0x10000 ≠ 0x0B → t.reg x = s.reg x)

/-- The rows of the Innkeeper write its own state and the `MGT` registers, and a nameplate write-back may wait at a Viham port for its
words; those of the acquisition engine write it and its registers. -/
def Obligations.ServiceFrame : Prop :=
  ∀ (i' slot part page block core : Nat) (a b : Bool) (np : Bytes) (values : List Int) (v : Word) (s t : State),
    (∀ i ∈ [Instr.monitorSample values, .monitorCrossing i', .heartbeat core, .ledgerFlashWrite, .nameplateWriteBack slot part, .wearLedgerCopy,
        .npIdentityCheck slot part np, .flashScrub page a b, .flashRewrite block a, .updateTimeout],
      exec i s = .next t → t = { s with
          regs := t.regs, inn := t.inn, ports := t.ports, out := t.out
          bus := { s.bus with msixArm := t.bus.msixArm, msixPba := t.bus.msixPba } }
        ∧ (∀ x, x / 0x10000 ≠ 0x16 → t.reg x = s.reg x) ∧ ∀ p, { t.port p with plate := (s.port p).plate } = s.port p)
    ∧ (∀ i ∈ [Instr.acqRd v, .trigSw, .acqTrigLine, .acqRateChange],
      exec i s = .next t → t = { s with
          regs := t.regs, acq := t.acq, draws := t.draws, out := t.out
          bus := { s.bus with msixArm := t.bus.msixArm, msixPba := t.bus.msixPba, guard := t.bus.guard } }
        ∧ ∀ x, x / 0x10000 ≠ 0x15 → t.reg x = s.reg x)
end

