-- ==== Sys2Proof/Laws/Map.lean ====
section
/-!
SUPPORT. Laws of the sparse maps: what a read answers after a write, and that every write keeps the canonical
form.
-/
namespace Sys2Proof

theorem Map.find?_erase_self {α : Type} (m : Map α) (k : Nat) : Map.find? (Map.erase m k) k = none := by
  induction m with
  | nil => rfl
  | cons e r ih =>
    obtain ⟨a, v⟩ := e
    simp only [Map.erase]
    split
    · exact ih
    · simp only [Map.find?, if_neg ‹_›, ih]

theorem Map.find?_erase_ne {α : Type} (m : Map α) {k j : Nat} (h : j ≠ k) :
    Map.find? (Map.erase m k) j = Map.find? m j := by
  induction m with
  | nil => rfl
  | cons e r ih =>
    obtain ⟨a, v⟩ := e
    simp only [Map.erase]
    split
    · rename_i ha; subst ha; simp only [Map.find?, if_neg (Ne.symm h), ih]
    · simp only [Map.find?, ih]

theorem Map.find?_insert_self {α : Type} (m : Map α) (k : Nat) (x : α) (h : Map.find? m k = none) :
    Map.find? (Map.insert m k x) k = some x := by
  induction m with
  | nil => simp [Map.insert, Map.find?]
  | cons e r ih =>
    obtain ⟨a, v⟩ := e
    simp only [Map.insert]
    split
    · simp [Map.find?]
    · by_cases hak : a = k
      · simp [Map.find?, hak] at h
      · simp only [Map.find?, if_neg hak] at h ⊢; exact ih h

theorem Map.find?_insert_ne {α : Type} (m : Map α) {k j : Nat} (x : α) (h : j ≠ k) :
    Map.find? (Map.insert m k x) j = Map.find? m j := by
  induction m with
  | nil => simp [Map.insert, Map.find?, Ne.symm h]
  | cons e r ih =>
    obtain ⟨a, v⟩ := e
    simp only [Map.insert]
    split
    · simp [Map.find?, Ne.symm h]
    · simp only [Map.find?, ih]

/-- A read of the key that was written. -/
@[simp] theorem Map.get_set_self {α : Type} [DecidableEq α] (d : Nat → α) (m : Map α) (k : Nat) (x : α) :
    Map.get d (Map.set d m k x) k = x := by
  unfold Map.set Map.get
  split
  · rename_i hx; rw [Map.find?_erase_self, hx]; rfl
  · rw [Map.find?_insert_self _ _ _ (Map.find?_erase_self m k)]; rfl

/-- A read of another key than the one written. -/
theorem Map.get_set_ne {α : Type} [DecidableEq α] (d : Nat → α) (m : Map α) {k j : Nat} (x : α) (h : j ≠ k) :
    Map.get d (Map.set d m k x) j = Map.get d m j := by
  unfold Map.set Map.get
  split
  · rw [Map.find?_erase_ne _ h]
  · rw [Map.find?_insert_ne _ _ h, Map.find?_erase_ne _ h]

theorem Map.get_set {α : Type} [DecidableEq α] (d : Nat → α) (m : Map α) (k j : Nat) (x : α) :
    Map.get d (Map.set d m k x) j = if j = k then x else Map.get d m j := by
  split
  · rename_i h; subst h; exact Map.get_set_self d m j x
  · exact Map.get_set_ne d m x ‹_›

@[simp] theorem Map.get_nil {α : Type} (d : Nat → α) (k : Nat) : Map.get d [] k = d k := rfl

/-! ### The canonical form -/

/-- Keys of a rising map lie above the bound. -/
theorem Map.rising_some {α : Type} (m : Map α) (a : Nat) :
    Map.rising (some a) m = true ↔ (∀ e ∈ m, a < e.1) ∧ Map.rising none m = true := by
  induction m generalizing a with
  | nil => simp [Map.rising]
  | cons e r ih =>
    obtain ⟨k, v⟩ := e
    simp only [Map.rising, Bool.and_eq_true, decide_eq_true_eq, List.mem_cons, forall_eq_or_imp]
    constructor
    · rintro ⟨hk, hr⟩
      exact ⟨⟨hk, fun e he => Nat.lt_trans hk (((ih k).mp hr).1 e he)⟩, hr⟩
    · rintro ⟨⟨hk, _⟩, hr⟩; exact ⟨hk, hr⟩

theorem Map.mem_erase {α : Type} (m : Map α) (k : Nat) (e : Nat × α) :
    e ∈ Map.erase m k ↔ e ∈ m ∧ e.1 ≠ k := by
  induction m with
  | nil => simp [Map.erase]
  | cons x r ih =>
    obtain ⟨a, v⟩ := x
    simp only [Map.erase]
    split
    · rename_i h
      rw [ih, List.mem_cons]
      constructor
      · rintro ⟨h1, h2⟩; exact ⟨Or.inr h1, h2⟩
      · rintro ⟨h1 | h1, h2⟩
        · subst h1; exact absurd h h2
        · exact ⟨h1, h2⟩
    · rename_i h
      rw [List.mem_cons, List.mem_cons, ih]
      constructor
      · rintro (h1 | ⟨h1, h2⟩)
        · subst h1; exact ⟨Or.inl rfl, h⟩
        · exact ⟨Or.inr h1, h2⟩
      · rintro ⟨h1 | h1, h2⟩
        · exact Or.inl h1
        · exact Or.inr ⟨h1, h2⟩

theorem Map.rising_erase {α : Type} (m : Map α) (k : Nat) (h : Map.rising none m = true) :
    Map.rising none (Map.erase m k) = true := by
  induction m with
  | nil => rfl
  | cons x r ih =>
    obtain ⟨a, v⟩ := x
    simp only [Map.rising] at h
    have hr := (Map.rising_some r a).mp h
    simp only [Map.erase]
    split
    · exact ih hr.2
    · simp only [Map.rising]
      exact (Map.rising_some _ a).mpr ⟨fun e he => hr.1 e ((Map.mem_erase r k e).mp he).1, ih hr.2⟩

theorem Map.mem_insert {α : Type} (m : Map α) (k : Nat) (x : α) (e : Nat × α) :
    e ∈ Map.insert m k x ↔ e = (k, x) ∨ e ∈ m := by
  induction m with
  | nil => simp [Map.insert]
  | cons y r ih =>
    obtain ⟨a, v⟩ := y
    simp only [Map.insert]
    split
    · simp
    · rw [List.mem_cons, ih, List.mem_cons]
      constructor
      · rintro (h | h | h)
        · exact Or.inr (Or.inl h)
        · exact Or.inl h
        · exact Or.inr (Or.inr h)
      · rintro (h | h | h)
        · exact Or.inr (Or.inl h)
        · exact Or.inl h
        · exact Or.inr (Or.inr h)

theorem Map.rising_insert {α : Type} (m : Map α) (k : Nat) (x : α) (h : Map.rising none m = true)
    (hk : ∀ e ∈ m, e.1 ≠ k) : Map.rising none (Map.insert m k x) = true := by
  induction m with
  | nil => rfl
  | cons y r ih =>
    obtain ⟨a, v⟩ := y
    have ha : a ≠ k := hk (a, v) (List.mem_cons_self ..)
    simp only [Map.rising] at h
    have hr := (Map.rising_some r a).mp h
    simp only [Map.insert]
    split
    · simp only [Map.rising, Bool.and_eq_true, decide_eq_true_eq]; exact ⟨‹_›, h⟩
    · simp only [Map.rising]
      refine (Map.rising_some _ a).mpr ⟨fun e he => ?_, ih hr.2 fun e he => hk e (List.mem_cons_of_mem _ he)⟩
      rcases (Map.mem_insert r k x e).mp he with h1 | h1
      · subst h1; simp only; omega
      · exact hr.1 e h1

/-- A write keeps the canonical form. -/
theorem Map.wf_set {α : Type} [DecidableEq α] (d : Nat → α) (m : Map α) (k : Nat) (x : α)
    (h : Map.wf d m = true) : Map.wf d (Map.set d m k x) = true := by
  simp only [Map.wf, Bool.and_eq_true, List.all_eq_true, decide_eq_true_eq] at h ⊢
  have he : Map.rising none (Map.erase m k) = true := Map.rising_erase m k h.1
  unfold Map.set
  split
  · exact ⟨he, fun e hm => h.2 e ((Map.mem_erase m k e).mp hm).1⟩
  · refine ⟨Map.rising_insert _ k x he fun e hm => ((Map.mem_erase m k e).mp hm).2, fun e hm => ?_⟩
    rcases (Map.mem_insert _ k x e).mp hm with h1 | h1
    · subst h1; assumption
    · exact h.2 e ((Map.mem_erase m k e).mp h1).1

/-- Writes of a run keep the canonical form. -/
theorem Map.wf_setRun {α : Type} [DecidableEq α] (d : Nat → α) (l : List α) :
    ∀ (m : Map α) (k : Nat), Map.wf d m = true → Map.wf d (Map.setRun d m k l) = true := by
  induction l with
  | nil => intro m k h; exact h
  | cons x r ih => intro m k h; exact ih _ _ (Map.wf_set d m k x h)

theorem Memory.wf_set (m : Map Byte) (k : Nat) (b : Byte) (h : Memory.wf m = true) :
    Memory.wf (Map.set (fun _ => 0) m k b) = true := Map.wf_set _ m k b h

theorem Memory.wf_setRun (m : Map Byte) (k : Nat) (p : Bytes) (h : Memory.wf m = true) :
    Memory.wf (Map.setRun (fun _ => 0) m k p) = true := Map.wf_setRun _ p m k h

/-- Reading a byte after writing a run: the run's byte, or the former one outside it. -/
theorem Map.get_setRun {α : Type} [DecidableEq α] (d : Nat → α) (l : List α) :
    ∀ (m : Map α) (k j : Nat), Map.get d (Map.setRun d m k l) j =
      if h : k ≤ j ∧ j - k < l.length then l[j - k]'h.2 else Map.get d m j := by
  induction l with
  | nil => intro m k j; simp [Map.setRun]
  | cons x r ih =>
    intro m k j
    rw [Map.setRun, ih, Map.get_set]
    by_cases h1 : k + 1 ≤ j ∧ j - (k + 1) < r.length
    · have h2 : k ≤ j ∧ j - k < (x :: r).length := by simp only [List.length_cons]; omega
      rw [dif_pos h1, dif_pos h2]
      have h3 : j - k = (j - (k + 1)) + 1 := by omega
      simp only [h3, List.getElem_cons_succ]
    · rw [dif_neg h1]
      by_cases h4 : j = k
      · subst h4; simp
      · have h5 : ¬ (k ≤ j ∧ j - k < (x :: r).length) := by simp only [List.length_cons]; omega
        rw [if_neg h4, dif_neg h5]

end Sys2Proof
end

