-- ==== Sys2Proof/Laws/State.lean ====
section
/-!
SUPPORT. One law per field per update of the state: what an update writes and what it leaves.
-/
namespace Sys2Proof.Machine

/-! `State.setReg` writes the field `regs` alone. -/
@[simp] theorem State.setReg_pending (s : State) (a : Nat) (v : Word) : (s.setReg a v).pending = s.pending := rfl
@[simp] theorem State.setReg_part (s : State) (a : Nat) (v : Word) : (s.setReg a v).part = s.part := rfl
@[simp] theorem State.setReg_power (s : State) (a : Nat) (v : Word) : (s.setReg a v).power = s.power := rfl
@[simp] theorem State.setReg_bus (s : State) (a : Nat) (v : Word) : (s.setReg a v).bus = s.bus := rfl
@[simp] theorem State.setReg_out (s : State) (a : Nat) (v : Word) : (s.setReg a v).out = s.out := rfl
@[simp] theorem State.setReg_sram (s : State) (a : Nat) (v : Word) : (s.setReg a v).sram = s.sram := rfl
@[simp] theorem State.setReg_sramFlip (s : State) (a : Nat) (v : Word) : (s.setReg a v).sramFlip = s.sramFlip := rfl
@[simp] theorem State.setReg_leMem (s : State) (a : Nat) (v : Word) : (s.setReg a v).leMem = s.leMem := rfl
@[simp] theorem State.setReg_sessions (s : State) (a : Nat) (v : Word) : (s.setReg a v).sessions = s.sessions := rfl
@[simp] theorem State.setReg_journal (s : State) (a : Nat) (v : Word) : (s.setReg a v).journal = s.journal := rfl
@[simp] theorem State.setReg_porter (s : State) (a : Nat) (v : Word) : (s.setReg a v).porter = s.porter := rfl
@[simp] theorem State.setReg_staged (s : State) (a : Nat) (v : Word) : (s.setReg a v).staged = s.staged := rfl
@[simp] theorem State.setReg_params (s : State) (a : Nat) (v : Word) : (s.setReg a v).params = s.params := rfl
@[simp] theorem State.setReg_axes (s : State) (a : Nat) (v : Word) : (s.setReg a v).axes = s.axes := rfl
@[simp] theorem State.setReg_groups (s : State) (a : Nat) (v : Word) : (s.setReg a v).groups = s.groups := rfl
@[simp] theorem State.setReg_exchange (s : State) (a : Nat) (v : Word) : (s.setReg a v).exchange = s.exchange := rfl
@[simp] theorem State.setReg_exchNext (s : State) (a : Nat) (v : Word) : (s.setReg a v).exchNext = s.exchNext := rfl
@[simp] theorem State.setReg_exchAt (s : State) (a : Nat) (v : Word) : (s.setReg a v).exchAt = s.exchAt := rfl
@[simp] theorem State.setReg_exchAtNext (s : State) (a : Nat) (v : Word) : (s.setReg a v).exchAtNext = s.exchAtNext := rfl
@[simp] theorem State.setReg_active (s : State) (a : Nat) (v : Word) : (s.setReg a v).active = s.active := rfl
@[simp] theorem State.setReg_shadow (s : State) (a : Nat) (v : Word) : (s.setReg a v).shadow = s.shadow := rfl
@[simp] theorem State.setReg_engines (s : State) (a : Nat) (v : Word) : (s.setReg a v).engines = s.engines := rfl
@[simp] theorem State.setReg_blocks (s : State) (a : Nat) (v : Word) : (s.setReg a v).blocks = s.blocks := rfl
@[simp] theorem State.setReg_camHdr (s : State) (a : Nat) (v : Word) : (s.setReg a v).camHdr = s.camHdr := rfl
@[simp] theorem State.setReg_camPoints (s : State) (a : Nat) (v : Word) : (s.setReg a v).camPoints = s.camPoints := rfl
@[simp] theorem State.setReg_shafts (s : State) (a : Nat) (v : Word) : (s.setReg a v).shafts = s.shafts := rfl
@[simp] theorem State.setReg_latches (s : State) (a : Nat) (v : Word) : (s.setReg a v).latches = s.latches := rfl
@[simp] theorem State.setReg_fbk (s : State) (a : Nat) (v : Word) : (s.setReg a v).fbk = s.fbk := rfl
@[simp] theorem State.setReg_mts (s : State) (a : Nat) (v : Word) : (s.setReg a v).mts = s.mts := rfl
@[simp] theorem State.setReg_adc (s : State) (a : Nat) (v : Word) : (s.setReg a v).adc = s.adc := rfl
@[simp] theorem State.setReg_emu (s : State) (a : Nat) (v : Word) : (s.setReg a v).emu = s.emu := rfl
@[simp] theorem State.setReg_pwm (s : State) (a : Nat) (v : Word) : (s.setReg a v).pwm = s.pwm := rfl
@[simp] theorem State.setReg_steps (s : State) (a : Nat) (v : Word) : (s.setReg a v).steps = s.steps := rfl
@[simp] theorem State.setReg_ports (s : State) (a : Nat) (v : Word) : (s.setReg a v).ports = s.ports := rfl
@[simp] theorem State.setReg_heads (s : State) (a : Nat) (v : Word) : (s.setReg a v).heads = s.heads := rfl
@[simp] theorem State.setReg_pair (s : State) (a : Nat) (v : Word) : (s.setReg a v).pair = s.pair := rfl
@[simp] theorem State.setReg_island (s : State) (a : Nat) (v : Word) : (s.setReg a v).island = s.island := rfl
@[simp] theorem State.setReg_die (s : State) (a : Nat) (v : Word) : (s.setReg a v).die = s.die := rfl
@[simp] theorem State.setReg_tmu (s : State) (a : Nat) (v : Word) : (s.setReg a v).tmu = s.tmu := rfl
@[simp] theorem State.setReg_macs (s : State) (a : Nat) (v : Word) : (s.setReg a v).macs = s.macs := rfl
@[simp] theorem State.setReg_cans (s : State) (a : Nat) (v : Word) : (s.setReg a v).cans = s.cans := rfl
@[simp] theorem State.setReg_dma (s : State) (a : Nat) (v : Word) : (s.setReg a v).dma = s.dma := rfl
@[simp] theorem State.setReg_acq (s : State) (a : Nat) (v : Word) : (s.setReg a v).acq = s.acq := rfl
@[simp] theorem State.setReg_inn (s : State) (a : Nat) (v : Word) : (s.setReg a v).inn = s.inn := rfl
@[simp] theorem State.setReg_droppedStops (s : State) (a : Nat) (v : Word) : (s.setReg a v).droppedStops = s.droppedStops := rfl
@[simp] theorem State.setReg_draws (s : State) (a : Nat) (v : Word) : (s.setReg a v).draws = s.draws := rfl
@[simp] theorem State.setReg_ses (s : State) (a : Nat) (v : Word) (j : Nat) : (s.setReg a v).ses j = s.ses j := rfl
@[simp] theorem State.setReg_jrn (s : State) (a : Nat) (v : Word) (j : Nat) : (s.setReg a v).jrn j = s.jrn j := rfl
@[simp] theorem State.setReg_axis (s : State) (a : Nat) (v : Word) (j : Nat) : (s.setReg a v).axis j = s.axis j := rfl
@[simp] theorem State.setReg_group (s : State) (a : Nat) (v : Word) (j : Nat) : (s.setReg a v).group j = s.group j := rfl
@[simp] theorem State.setReg_act (s : State) (a : Nat) (v : Word) (j : Nat) : (s.setReg a v).act j = s.act j := rfl
@[simp] theorem State.setReg_shad (s : State) (a : Nat) (v : Word) (j : Nat) : (s.setReg a v).shad j = s.shad j := rfl
@[simp] theorem State.setReg_eng (s : State) (a : Nat) (v : Word) (j : Nat) : (s.setReg a v).eng j = s.eng j := rfl
@[simp] theorem State.setReg_blk (s : State) (a : Nat) (v : Word) (j : Nat) : (s.setReg a v).blk j = s.blk j := rfl
@[simp] theorem State.setReg_shaft (s : State) (a : Nat) (v : Word) (j : Nat) : (s.setReg a v).shaft j = s.shaft j := rfl
@[simp] theorem State.setReg_latch (s : State) (a : Nat) (v : Word) (j : Nat) : (s.setReg a v).latch j = s.latch j := rfl
@[simp] theorem State.setReg_fb (s : State) (a : Nat) (v : Word) (j : Nat) : (s.setReg a v).fb j = s.fb j := rfl
@[simp] theorem State.setReg_ain (s : State) (a : Nat) (v : Word) (j : Nat) : (s.setReg a v).ain j = s.ain j := rfl
@[simp] theorem State.setReg_em (s : State) (a : Nat) (v : Word) (j : Nat) : (s.setReg a v).em j = s.em j := rfl
@[simp] theorem State.setReg_pw (s : State) (a : Nat) (v : Word) (j : Nat) : (s.setReg a v).pw j = s.pw j := rfl
@[simp] theorem State.setReg_stp (s : State) (a : Nat) (v : Word) (j : Nat) : (s.setReg a v).stp j = s.stp j := rfl
@[simp] theorem State.setReg_port (s : State) (a : Nat) (v : Word) (j : Nat) : (s.setReg a v).port j = s.port j := rfl
@[simp] theorem State.setReg_head (s : State) (a : Nat) (v : Word) (j : Nat) : (s.setReg a v).head j = s.head j := rfl
@[simp] theorem State.setReg_mac (s : State) (a : Nat) (v : Word) (j : Nat) : (s.setReg a v).mac j = s.mac j := rfl
@[simp] theorem State.setReg_can (s : State) (a : Nat) (v : Word) (j : Nat) : (s.setReg a v).can j = s.can j := rfl
@[simp] theorem State.setReg_dch (s : State) (a : Nat) (v : Word) (j : Nat) : (s.setReg a v).dch j = s.dch j := rfl

/-! `State.emit` writes the field `out` alone. -/
@[simp] theorem State.emit_pending (s : State) (o : Output) : (s.emit o).pending = s.pending := rfl
@[simp] theorem State.emit_part (s : State) (o : Output) : (s.emit o).part = s.part := rfl
@[simp] theorem State.emit_power (s : State) (o : Output) : (s.emit o).power = s.power := rfl
@[simp] theorem State.emit_bus (s : State) (o : Output) : (s.emit o).bus = s.bus := rfl
@[simp] theorem State.emit_regs (s : State) (o : Output) : (s.emit o).regs = s.regs := rfl
@[simp] theorem State.emit_sram (s : State) (o : Output) : (s.emit o).sram = s.sram := rfl
@[simp] theorem State.emit_sramFlip (s : State) (o : Output) : (s.emit o).sramFlip = s.sramFlip := rfl
@[simp] theorem State.emit_leMem (s : State) (o : Output) : (s.emit o).leMem = s.leMem := rfl
@[simp] theorem State.emit_sessions (s : State) (o : Output) : (s.emit o).sessions = s.sessions := rfl
@[simp] theorem State.emit_journal (s : State) (o : Output) : (s.emit o).journal = s.journal := rfl
@[simp] theorem State.emit_porter (s : State) (o : Output) : (s.emit o).porter = s.porter := rfl
@[simp] theorem State.emit_staged (s : State) (o : Output) : (s.emit o).staged = s.staged := rfl
@[simp] theorem State.emit_params (s : State) (o : Output) : (s.emit o).params = s.params := rfl
@[simp] theorem State.emit_axes (s : State) (o : Output) : (s.emit o).axes = s.axes := rfl
@[simp] theorem State.emit_groups (s : State) (o : Output) : (s.emit o).groups = s.groups := rfl
@[simp] theorem State.emit_exchange (s : State) (o : Output) : (s.emit o).exchange = s.exchange := rfl
@[simp] theorem State.emit_exchNext (s : State) (o : Output) : (s.emit o).exchNext = s.exchNext := rfl
@[simp] theorem State.emit_exchAt (s : State) (o : Output) : (s.emit o).exchAt = s.exchAt := rfl
@[simp] theorem State.emit_exchAtNext (s : State) (o : Output) : (s.emit o).exchAtNext = s.exchAtNext := rfl
@[simp] theorem State.emit_active (s : State) (o : Output) : (s.emit o).active = s.active := rfl
@[simp] theorem State.emit_shadow (s : State) (o : Output) : (s.emit o).shadow = s.shadow := rfl
@[simp] theorem State.emit_engines (s : State) (o : Output) : (s.emit o).engines = s.engines := rfl
@[simp] theorem State.emit_blocks (s : State) (o : Output) : (s.emit o).blocks = s.blocks := rfl
@[simp] theorem State.emit_camHdr (s : State) (o : Output) : (s.emit o).camHdr = s.camHdr := rfl
@[simp] theorem State.emit_camPoints (s : State) (o : Output) : (s.emit o).camPoints = s.camPoints := rfl
@[simp] theorem State.emit_shafts (s : State) (o : Output) : (s.emit o).shafts = s.shafts := rfl
@[simp] theorem State.emit_latches (s : State) (o : Output) : (s.emit o).latches = s.latches := rfl
@[simp] theorem State.emit_fbk (s : State) (o : Output) : (s.emit o).fbk = s.fbk := rfl
@[simp] theorem State.emit_mts (s : State) (o : Output) : (s.emit o).mts = s.mts := rfl
@[simp] theorem State.emit_adc (s : State) (o : Output) : (s.emit o).adc = s.adc := rfl
@[simp] theorem State.emit_emu (s : State) (o : Output) : (s.emit o).emu = s.emu := rfl
@[simp] theorem State.emit_pwm (s : State) (o : Output) : (s.emit o).pwm = s.pwm := rfl
@[simp] theorem State.emit_steps (s : State) (o : Output) : (s.emit o).steps = s.steps := rfl
@[simp] theorem State.emit_ports (s : State) (o : Output) : (s.emit o).ports = s.ports := rfl
@[simp] theorem State.emit_heads (s : State) (o : Output) : (s.emit o).heads = s.heads := rfl
@[simp] theorem State.emit_pair (s : State) (o : Output) : (s.emit o).pair = s.pair := rfl
@[simp] theorem State.emit_island (s : State) (o : Output) : (s.emit o).island = s.island := rfl
@[simp] theorem State.emit_die (s : State) (o : Output) : (s.emit o).die = s.die := rfl
@[simp] theorem State.emit_tmu (s : State) (o : Output) : (s.emit o).tmu = s.tmu := rfl
@[simp] theorem State.emit_macs (s : State) (o : Output) : (s.emit o).macs = s.macs := rfl
@[simp] theorem State.emit_cans (s : State) (o : Output) : (s.emit o).cans = s.cans := rfl
@[simp] theorem State.emit_dma (s : State) (o : Output) : (s.emit o).dma = s.dma := rfl
@[simp] theorem State.emit_acq (s : State) (o : Output) : (s.emit o).acq = s.acq := rfl
@[simp] theorem State.emit_inn (s : State) (o : Output) : (s.emit o).inn = s.inn := rfl
@[simp] theorem State.emit_droppedStops (s : State) (o : Output) : (s.emit o).droppedStops = s.droppedStops := rfl
@[simp] theorem State.emit_draws (s : State) (o : Output) : (s.emit o).draws = s.draws := rfl
@[simp] theorem State.emit_ses (s : State) (o : Output) (j : Nat) : (s.emit o).ses j = s.ses j := rfl
@[simp] theorem State.emit_jrn (s : State) (o : Output) (j : Nat) : (s.emit o).jrn j = s.jrn j := rfl
@[simp] theorem State.emit_axis (s : State) (o : Output) (j : Nat) : (s.emit o).axis j = s.axis j := rfl
@[simp] theorem State.emit_group (s : State) (o : Output) (j : Nat) : (s.emit o).group j = s.group j := rfl
@[simp] theorem State.emit_act (s : State) (o : Output) (j : Nat) : (s.emit o).act j = s.act j := rfl
@[simp] theorem State.emit_shad (s : State) (o : Output) (j : Nat) : (s.emit o).shad j = s.shad j := rfl
@[simp] theorem State.emit_eng (s : State) (o : Output) (j : Nat) : (s.emit o).eng j = s.eng j := rfl
@[simp] theorem State.emit_blk (s : State) (o : Output) (j : Nat) : (s.emit o).blk j = s.blk j := rfl
@[simp] theorem State.emit_shaft (s : State) (o : Output) (j : Nat) : (s.emit o).shaft j = s.shaft j := rfl
@[simp] theorem State.emit_latch (s : State) (o : Output) (j : Nat) : (s.emit o).latch j = s.latch j := rfl
@[simp] theorem State.emit_fb (s : State) (o : Output) (j : Nat) : (s.emit o).fb j = s.fb j := rfl
@[simp] theorem State.emit_ain (s : State) (o : Output) (j : Nat) : (s.emit o).ain j = s.ain j := rfl
@[simp] theorem State.emit_em (s : State) (o : Output) (j : Nat) : (s.emit o).em j = s.em j := rfl
@[simp] theorem State.emit_pw (s : State) (o : Output) (j : Nat) : (s.emit o).pw j = s.pw j := rfl
@[simp] theorem State.emit_stp (s : State) (o : Output) (j : Nat) : (s.emit o).stp j = s.stp j := rfl
@[simp] theorem State.emit_port (s : State) (o : Output) (j : Nat) : (s.emit o).port j = s.port j := rfl
@[simp] theorem State.emit_head (s : State) (o : Output) (j : Nat) : (s.emit o).head j = s.head j := rfl
@[simp] theorem State.emit_mac (s : State) (o : Output) (j : Nat) : (s.emit o).mac j = s.mac j := rfl
@[simp] theorem State.emit_can (s : State) (o : Output) (j : Nat) : (s.emit o).can j = s.can j := rfl
@[simp] theorem State.emit_dch (s : State) (o : Output) (j : Nat) : (s.emit o).dch j = s.dch j := rfl
@[simp] theorem State.emit_reg (s : State) (o : Output) (j : Nat) : (s.emit o).reg j = s.reg j := rfl

/-! `State.setSes` writes the field `sessions` alone. -/
@[simp] theorem State.setSes_pending (s : State) (n : Nat) (x : Session) : (s.setSes n x).pending = s.pending := rfl
@[simp] theorem State.setSes_part (s : State) (n : Nat) (x : Session) : (s.setSes n x).part = s.part := rfl
@[simp] theorem State.setSes_power (s : State) (n : Nat) (x : Session) : (s.setSes n x).power = s.power := rfl
@[simp] theorem State.setSes_bus (s : State) (n : Nat) (x : Session) : (s.setSes n x).bus = s.bus := rfl
@[simp] theorem State.setSes_regs (s : State) (n : Nat) (x : Session) : (s.setSes n x).regs = s.regs := rfl
@[simp] theorem State.setSes_out (s : State) (n : Nat) (x : Session) : (s.setSes n x).out = s.out := rfl
@[simp] theorem State.setSes_sram (s : State) (n : Nat) (x : Session) : (s.setSes n x).sram = s.sram := rfl
@[simp] theorem State.setSes_sramFlip (s : State) (n : Nat) (x : Session) : (s.setSes n x).sramFlip = s.sramFlip := rfl
@[simp] theorem State.setSes_leMem (s : State) (n : Nat) (x : Session) : (s.setSes n x).leMem = s.leMem := rfl
@[simp] theorem State.setSes_journal (s : State) (n : Nat) (x : Session) : (s.setSes n x).journal = s.journal := rfl
@[simp] theorem State.setSes_porter (s : State) (n : Nat) (x : Session) : (s.setSes n x).porter = s.porter := rfl
@[simp] theorem State.setSes_staged (s : State) (n : Nat) (x : Session) : (s.setSes n x).staged = s.staged := rfl
@[simp] theorem State.setSes_params (s : State) (n : Nat) (x : Session) : (s.setSes n x).params = s.params := rfl
@[simp] theorem State.setSes_axes (s : State) (n : Nat) (x : Session) : (s.setSes n x).axes = s.axes := rfl
@[simp] theorem State.setSes_groups (s : State) (n : Nat) (x : Session) : (s.setSes n x).groups = s.groups := rfl
@[simp] theorem State.setSes_exchange (s : State) (n : Nat) (x : Session) : (s.setSes n x).exchange = s.exchange := rfl
@[simp] theorem State.setSes_exchNext (s : State) (n : Nat) (x : Session) : (s.setSes n x).exchNext = s.exchNext := rfl
@[simp] theorem State.setSes_exchAt (s : State) (n : Nat) (x : Session) : (s.setSes n x).exchAt = s.exchAt := rfl
@[simp] theorem State.setSes_exchAtNext (s : State) (n : Nat) (x : Session) : (s.setSes n x).exchAtNext = s.exchAtNext := rfl
@[simp] theorem State.setSes_active (s : State) (n : Nat) (x : Session) : (s.setSes n x).active = s.active := rfl
@[simp] theorem State.setSes_shadow (s : State) (n : Nat) (x : Session) : (s.setSes n x).shadow = s.shadow := rfl
@[simp] theorem State.setSes_engines (s : State) (n : Nat) (x : Session) : (s.setSes n x).engines = s.engines := rfl
@[simp] theorem State.setSes_blocks (s : State) (n : Nat) (x : Session) : (s.setSes n x).blocks = s.blocks := rfl
@[simp] theorem State.setSes_camHdr (s : State) (n : Nat) (x : Session) : (s.setSes n x).camHdr = s.camHdr := rfl
@[simp] theorem State.setSes_camPoints (s : State) (n : Nat) (x : Session) : (s.setSes n x).camPoints = s.camPoints := rfl
@[simp] theorem State.setSes_shafts (s : State) (n : Nat) (x : Session) : (s.setSes n x).shafts = s.shafts := rfl
@[simp] theorem State.setSes_latches (s : State) (n : Nat) (x : Session) : (s.setSes n x).latches = s.latches := rfl
@[simp] theorem State.setSes_fbk (s : State) (n : Nat) (x : Session) : (s.setSes n x).fbk = s.fbk := rfl
@[simp] theorem State.setSes_mts (s : State) (n : Nat) (x : Session) : (s.setSes n x).mts = s.mts := rfl
@[simp] theorem State.setSes_adc (s : State) (n : Nat) (x : Session) : (s.setSes n x).adc = s.adc := rfl
@[simp] theorem State.setSes_emu (s : State) (n : Nat) (x : Session) : (s.setSes n x).emu = s.emu := rfl
@[simp] theorem State.setSes_pwm (s : State) (n : Nat) (x : Session) : (s.setSes n x).pwm = s.pwm := rfl
@[simp] theorem State.setSes_steps (s : State) (n : Nat) (x : Session) : (s.setSes n x).steps = s.steps := rfl
@[simp] theorem State.setSes_ports (s : State) (n : Nat) (x : Session) : (s.setSes n x).ports = s.ports := rfl
@[simp] theorem State.setSes_heads (s : State) (n : Nat) (x : Session) : (s.setSes n x).heads = s.heads := rfl
@[simp] theorem State.setSes_pair (s : State) (n : Nat) (x : Session) : (s.setSes n x).pair = s.pair := rfl
@[simp] theorem State.setSes_island (s : State) (n : Nat) (x : Session) : (s.setSes n x).island = s.island := rfl
@[simp] theorem State.setSes_die (s : State) (n : Nat) (x : Session) : (s.setSes n x).die = s.die := rfl
@[simp] theorem State.setSes_tmu (s : State) (n : Nat) (x : Session) : (s.setSes n x).tmu = s.tmu := rfl
@[simp] theorem State.setSes_macs (s : State) (n : Nat) (x : Session) : (s.setSes n x).macs = s.macs := rfl
@[simp] theorem State.setSes_cans (s : State) (n : Nat) (x : Session) : (s.setSes n x).cans = s.cans := rfl
@[simp] theorem State.setSes_dma (s : State) (n : Nat) (x : Session) : (s.setSes n x).dma = s.dma := rfl
@[simp] theorem State.setSes_acq (s : State) (n : Nat) (x : Session) : (s.setSes n x).acq = s.acq := rfl
@[simp] theorem State.setSes_inn (s : State) (n : Nat) (x : Session) : (s.setSes n x).inn = s.inn := rfl
@[simp] theorem State.setSes_droppedStops (s : State) (n : Nat) (x : Session) : (s.setSes n x).droppedStops = s.droppedStops := rfl
@[simp] theorem State.setSes_draws (s : State) (n : Nat) (x : Session) : (s.setSes n x).draws = s.draws := rfl
@[simp] theorem State.setSes_jrn (s : State) (n : Nat) (x : Session) (j : Nat) : (s.setSes n x).jrn j = s.jrn j := rfl
@[simp] theorem State.setSes_axis (s : State) (n : Nat) (x : Session) (j : Nat) : (s.setSes n x).axis j = s.axis j := rfl
@[simp] theorem State.setSes_group (s : State) (n : Nat) (x : Session) (j : Nat) : (s.setSes n x).group j = s.group j := rfl
@[simp] theorem State.setSes_act (s : State) (n : Nat) (x : Session) (j : Nat) : (s.setSes n x).act j = s.act j := rfl
@[simp] theorem State.setSes_shad (s : State) (n : Nat) (x : Session) (j : Nat) : (s.setSes n x).shad j = s.shad j := rfl
@[simp] theorem State.setSes_eng (s : State) (n : Nat) (x : Session) (j : Nat) : (s.setSes n x).eng j = s.eng j := rfl
@[simp] theorem State.setSes_blk (s : State) (n : Nat) (x : Session) (j : Nat) : (s.setSes n x).blk j = s.blk j := rfl
@[simp] theorem State.setSes_shaft (s : State) (n : Nat) (x : Session) (j : Nat) : (s.setSes n x).shaft j = s.shaft j := rfl
@[simp] theorem State.setSes_latch (s : State) (n : Nat) (x : Session) (j : Nat) : (s.setSes n x).latch j = s.latch j := rfl
@[simp] theorem State.setSes_fb (s : State) (n : Nat) (x : Session) (j : Nat) : (s.setSes n x).fb j = s.fb j := rfl
@[simp] theorem State.setSes_ain (s : State) (n : Nat) (x : Session) (j : Nat) : (s.setSes n x).ain j = s.ain j := rfl
@[simp] theorem State.setSes_em (s : State) (n : Nat) (x : Session) (j : Nat) : (s.setSes n x).em j = s.em j := rfl
@[simp] theorem State.setSes_pw (s : State) (n : Nat) (x : Session) (j : Nat) : (s.setSes n x).pw j = s.pw j := rfl
@[simp] theorem State.setSes_stp (s : State) (n : Nat) (x : Session) (j : Nat) : (s.setSes n x).stp j = s.stp j := rfl
@[simp] theorem State.setSes_port (s : State) (n : Nat) (x : Session) (j : Nat) : (s.setSes n x).port j = s.port j := rfl
@[simp] theorem State.setSes_head (s : State) (n : Nat) (x : Session) (j : Nat) : (s.setSes n x).head j = s.head j := rfl
@[simp] theorem State.setSes_mac (s : State) (n : Nat) (x : Session) (j : Nat) : (s.setSes n x).mac j = s.mac j := rfl
@[simp] theorem State.setSes_can (s : State) (n : Nat) (x : Session) (j : Nat) : (s.setSes n x).can j = s.can j := rfl
@[simp] theorem State.setSes_dch (s : State) (n : Nat) (x : Session) (j : Nat) : (s.setSes n x).dch j = s.dch j := rfl
@[simp] theorem State.setSes_reg (s : State) (n : Nat) (x : Session) (j : Nat) : (s.setSes n x).reg j = s.reg j := rfl

/-! `State.setJrn` writes the field `journal` alone. -/
@[simp] theorem State.setJrn_pending (s : State) (n : Nat) (x : Journal) : (s.setJrn n x).pending = s.pending := rfl
@[simp] theorem State.setJrn_part (s : State) (n : Nat) (x : Journal) : (s.setJrn n x).part = s.part := rfl
@[simp] theorem State.setJrn_power (s : State) (n : Nat) (x : Journal) : (s.setJrn n x).power = s.power := rfl
@[simp] theorem State.setJrn_bus (s : State) (n : Nat) (x : Journal) : (s.setJrn n x).bus = s.bus := rfl
@[simp] theorem State.setJrn_regs (s : State) (n : Nat) (x : Journal) : (s.setJrn n x).regs = s.regs := rfl
@[simp] theorem State.setJrn_out (s : State) (n : Nat) (x : Journal) : (s.setJrn n x).out = s.out := rfl
@[simp] theorem State.setJrn_sram (s : State) (n : Nat) (x : Journal) : (s.setJrn n x).sram = s.sram := rfl
@[simp] theorem State.setJrn_sramFlip (s : State) (n : Nat) (x : Journal) : (s.setJrn n x).sramFlip = s.sramFlip := rfl
@[simp] theorem State.setJrn_leMem (s : State) (n : Nat) (x : Journal) : (s.setJrn n x).leMem = s.leMem := rfl
@[simp] theorem State.setJrn_sessions (s : State) (n : Nat) (x : Journal) : (s.setJrn n x).sessions = s.sessions := rfl
@[simp] theorem State.setJrn_porter (s : State) (n : Nat) (x : Journal) : (s.setJrn n x).porter = s.porter := rfl
@[simp] theorem State.setJrn_staged (s : State) (n : Nat) (x : Journal) : (s.setJrn n x).staged = s.staged := rfl
@[simp] theorem State.setJrn_params (s : State) (n : Nat) (x : Journal) : (s.setJrn n x).params = s.params := rfl
@[simp] theorem State.setJrn_axes (s : State) (n : Nat) (x : Journal) : (s.setJrn n x).axes = s.axes := rfl
@[simp] theorem State.setJrn_groups (s : State) (n : Nat) (x : Journal) : (s.setJrn n x).groups = s.groups := rfl
@[simp] theorem State.setJrn_exchange (s : State) (n : Nat) (x : Journal) : (s.setJrn n x).exchange = s.exchange := rfl
@[simp] theorem State.setJrn_exchNext (s : State) (n : Nat) (x : Journal) : (s.setJrn n x).exchNext = s.exchNext := rfl
@[simp] theorem State.setJrn_exchAt (s : State) (n : Nat) (x : Journal) : (s.setJrn n x).exchAt = s.exchAt := rfl
@[simp] theorem State.setJrn_exchAtNext (s : State) (n : Nat) (x : Journal) : (s.setJrn n x).exchAtNext = s.exchAtNext := rfl
@[simp] theorem State.setJrn_active (s : State) (n : Nat) (x : Journal) : (s.setJrn n x).active = s.active := rfl
@[simp] theorem State.setJrn_shadow (s : State) (n : Nat) (x : Journal) : (s.setJrn n x).shadow = s.shadow := rfl
@[simp] theorem State.setJrn_engines (s : State) (n : Nat) (x : Journal) : (s.setJrn n x).engines = s.engines := rfl
@[simp] theorem State.setJrn_blocks (s : State) (n : Nat) (x : Journal) : (s.setJrn n x).blocks = s.blocks := rfl
@[simp] theorem State.setJrn_camHdr (s : State) (n : Nat) (x : Journal) : (s.setJrn n x).camHdr = s.camHdr := rfl
@[simp] theorem State.setJrn_camPoints (s : State) (n : Nat) (x : Journal) : (s.setJrn n x).camPoints = s.camPoints := rfl
@[simp] theorem State.setJrn_shafts (s : State) (n : Nat) (x : Journal) : (s.setJrn n x).shafts = s.shafts := rfl
@[simp] theorem State.setJrn_latches (s : State) (n : Nat) (x : Journal) : (s.setJrn n x).latches = s.latches := rfl
@[simp] theorem State.setJrn_fbk (s : State) (n : Nat) (x : Journal) : (s.setJrn n x).fbk = s.fbk := rfl
@[simp] theorem State.setJrn_mts (s : State) (n : Nat) (x : Journal) : (s.setJrn n x).mts = s.mts := rfl
@[simp] theorem State.setJrn_adc (s : State) (n : Nat) (x : Journal) : (s.setJrn n x).adc = s.adc := rfl
@[simp] theorem State.setJrn_emu (s : State) (n : Nat) (x : Journal) : (s.setJrn n x).emu = s.emu := rfl
@[simp] theorem State.setJrn_pwm (s : State) (n : Nat) (x : Journal) : (s.setJrn n x).pwm = s.pwm := rfl
@[simp] theorem State.setJrn_steps (s : State) (n : Nat) (x : Journal) : (s.setJrn n x).steps = s.steps := rfl
@[simp] theorem State.setJrn_ports (s : State) (n : Nat) (x : Journal) : (s.setJrn n x).ports = s.ports := rfl
@[simp] theorem State.setJrn_heads (s : State) (n : Nat) (x : Journal) : (s.setJrn n x).heads = s.heads := rfl
@[simp] theorem State.setJrn_pair (s : State) (n : Nat) (x : Journal) : (s.setJrn n x).pair = s.pair := rfl
@[simp] theorem State.setJrn_island (s : State) (n : Nat) (x : Journal) : (s.setJrn n x).island = s.island := rfl
@[simp] theorem State.setJrn_die (s : State) (n : Nat) (x : Journal) : (s.setJrn n x).die = s.die := rfl
@[simp] theorem State.setJrn_tmu (s : State) (n : Nat) (x : Journal) : (s.setJrn n x).tmu = s.tmu := rfl
@[simp] theorem State.setJrn_macs (s : State) (n : Nat) (x : Journal) : (s.setJrn n x).macs = s.macs := rfl
@[simp] theorem State.setJrn_cans (s : State) (n : Nat) (x : Journal) : (s.setJrn n x).cans = s.cans := rfl
@[simp] theorem State.setJrn_dma (s : State) (n : Nat) (x : Journal) : (s.setJrn n x).dma = s.dma := rfl
@[simp] theorem State.setJrn_acq (s : State) (n : Nat) (x : Journal) : (s.setJrn n x).acq = s.acq := rfl
@[simp] theorem State.setJrn_inn (s : State) (n : Nat) (x : Journal) : (s.setJrn n x).inn = s.inn := rfl
@[simp] theorem State.setJrn_droppedStops (s : State) (n : Nat) (x : Journal) : (s.setJrn n x).droppedStops = s.droppedStops := rfl
@[simp] theorem State.setJrn_draws (s : State) (n : Nat) (x : Journal) : (s.setJrn n x).draws = s.draws := rfl
@[simp] theorem State.setJrn_ses (s : State) (n : Nat) (x : Journal) (j : Nat) : (s.setJrn n x).ses j = s.ses j := rfl
@[simp] theorem State.setJrn_axis (s : State) (n : Nat) (x : Journal) (j : Nat) : (s.setJrn n x).axis j = s.axis j := rfl
@[simp] theorem State.setJrn_group (s : State) (n : Nat) (x : Journal) (j : Nat) : (s.setJrn n x).group j = s.group j := rfl
@[simp] theorem State.setJrn_act (s : State) (n : Nat) (x : Journal) (j : Nat) : (s.setJrn n x).act j = s.act j := rfl
@[simp] theorem State.setJrn_shad (s : State) (n : Nat) (x : Journal) (j : Nat) : (s.setJrn n x).shad j = s.shad j := rfl
@[simp] theorem State.setJrn_eng (s : State) (n : Nat) (x : Journal) (j : Nat) : (s.setJrn n x).eng j = s.eng j := rfl
@[simp] theorem State.setJrn_blk (s : State) (n : Nat) (x : Journal) (j : Nat) : (s.setJrn n x).blk j = s.blk j := rfl
@[simp] theorem State.setJrn_shaft (s : State) (n : Nat) (x : Journal) (j : Nat) : (s.setJrn n x).shaft j = s.shaft j := rfl
@[simp] theorem State.setJrn_latch (s : State) (n : Nat) (x : Journal) (j : Nat) : (s.setJrn n x).latch j = s.latch j := rfl
@[simp] theorem State.setJrn_fb (s : State) (n : Nat) (x : Journal) (j : Nat) : (s.setJrn n x).fb j = s.fb j := rfl
@[simp] theorem State.setJrn_ain (s : State) (n : Nat) (x : Journal) (j : Nat) : (s.setJrn n x).ain j = s.ain j := rfl
@[simp] theorem State.setJrn_em (s : State) (n : Nat) (x : Journal) (j : Nat) : (s.setJrn n x).em j = s.em j := rfl
@[simp] theorem State.setJrn_pw (s : State) (n : Nat) (x : Journal) (j : Nat) : (s.setJrn n x).pw j = s.pw j := rfl
@[simp] theorem State.setJrn_stp (s : State) (n : Nat) (x : Journal) (j : Nat) : (s.setJrn n x).stp j = s.stp j := rfl
@[simp] theorem State.setJrn_port (s : State) (n : Nat) (x : Journal) (j : Nat) : (s.setJrn n x).port j = s.port j := rfl
@[simp] theorem State.setJrn_head (s : State) (n : Nat) (x : Journal) (j : Nat) : (s.setJrn n x).head j = s.head j := rfl
@[simp] theorem State.setJrn_mac (s : State) (n : Nat) (x : Journal) (j : Nat) : (s.setJrn n x).mac j = s.mac j := rfl
@[simp] theorem State.setJrn_can (s : State) (n : Nat) (x : Journal) (j : Nat) : (s.setJrn n x).can j = s.can j := rfl
@[simp] theorem State.setJrn_dch (s : State) (n : Nat) (x : Journal) (j : Nat) : (s.setJrn n x).dch j = s.dch j := rfl
@[simp] theorem State.setJrn_reg (s : State) (n : Nat) (x : Journal) (j : Nat) : (s.setJrn n x).reg j = s.reg j := rfl

/-! `State.setAxis` writes the field `axes` alone. -/
@[simp] theorem State.setAxis_pending (s : State) (n : Nat) (x : Axis) : (s.setAxis n x).pending = s.pending := rfl
@[simp] theorem State.setAxis_part (s : State) (n : Nat) (x : Axis) : (s.setAxis n x).part = s.part := rfl
@[simp] theorem State.setAxis_power (s : State) (n : Nat) (x : Axis) : (s.setAxis n x).power = s.power := rfl
@[simp] theorem State.setAxis_bus (s : State) (n : Nat) (x : Axis) : (s.setAxis n x).bus = s.bus := rfl
@[simp] theorem State.setAxis_regs (s : State) (n : Nat) (x : Axis) : (s.setAxis n x).regs = s.regs := rfl
@[simp] theorem State.setAxis_out (s : State) (n : Nat) (x : Axis) : (s.setAxis n x).out = s.out := rfl
@[simp] theorem State.setAxis_sram (s : State) (n : Nat) (x : Axis) : (s.setAxis n x).sram = s.sram := rfl
@[simp] theorem State.setAxis_sramFlip (s : State) (n : Nat) (x : Axis) : (s.setAxis n x).sramFlip = s.sramFlip := rfl
@[simp] theorem State.setAxis_leMem (s : State) (n : Nat) (x : Axis) : (s.setAxis n x).leMem = s.leMem := rfl
@[simp] theorem State.setAxis_sessions (s : State) (n : Nat) (x : Axis) : (s.setAxis n x).sessions = s.sessions := rfl
@[simp] theorem State.setAxis_journal (s : State) (n : Nat) (x : Axis) : (s.setAxis n x).journal = s.journal := rfl
@[simp] theorem State.setAxis_porter (s : State) (n : Nat) (x : Axis) : (s.setAxis n x).porter = s.porter := rfl
@[simp] theorem State.setAxis_staged (s : State) (n : Nat) (x : Axis) : (s.setAxis n x).staged = s.staged := rfl
@[simp] theorem State.setAxis_params (s : State) (n : Nat) (x : Axis) : (s.setAxis n x).params = s.params := rfl
@[simp] theorem State.setAxis_groups (s : State) (n : Nat) (x : Axis) : (s.setAxis n x).groups = s.groups := rfl
@[simp] theorem State.setAxis_exchange (s : State) (n : Nat) (x : Axis) : (s.setAxis n x).exchange = s.exchange := rfl
@[simp] theorem State.setAxis_exchNext (s : State) (n : Nat) (x : Axis) : (s.setAxis n x).exchNext = s.exchNext := rfl
@[simp] theorem State.setAxis_exchAt (s : State) (n : Nat) (x : Axis) : (s.setAxis n x).exchAt = s.exchAt := rfl
@[simp] theorem State.setAxis_exchAtNext (s : State) (n : Nat) (x : Axis) : (s.setAxis n x).exchAtNext = s.exchAtNext := rfl
@[simp] theorem State.setAxis_active (s : State) (n : Nat) (x : Axis) : (s.setAxis n x).active = s.active := rfl
@[simp] theorem State.setAxis_shadow (s : State) (n : Nat) (x : Axis) : (s.setAxis n x).shadow = s.shadow := rfl
@[simp] theorem State.setAxis_engines (s : State) (n : Nat) (x : Axis) : (s.setAxis n x).engines = s.engines := rfl
@[simp] theorem State.setAxis_blocks (s : State) (n : Nat) (x : Axis) : (s.setAxis n x).blocks = s.blocks := rfl
@[simp] theorem State.setAxis_camHdr (s : State) (n : Nat) (x : Axis) : (s.setAxis n x).camHdr = s.camHdr := rfl
@[simp] theorem State.setAxis_camPoints (s : State) (n : Nat) (x : Axis) : (s.setAxis n x).camPoints = s.camPoints := rfl
@[simp] theorem State.setAxis_shafts (s : State) (n : Nat) (x : Axis) : (s.setAxis n x).shafts = s.shafts := rfl
@[simp] theorem State.setAxis_latches (s : State) (n : Nat) (x : Axis) : (s.setAxis n x).latches = s.latches := rfl
@[simp] theorem State.setAxis_fbk (s : State) (n : Nat) (x : Axis) : (s.setAxis n x).fbk = s.fbk := rfl
@[simp] theorem State.setAxis_mts (s : State) (n : Nat) (x : Axis) : (s.setAxis n x).mts = s.mts := rfl
@[simp] theorem State.setAxis_adc (s : State) (n : Nat) (x : Axis) : (s.setAxis n x).adc = s.adc := rfl
@[simp] theorem State.setAxis_emu (s : State) (n : Nat) (x : Axis) : (s.setAxis n x).emu = s.emu := rfl
@[simp] theorem State.setAxis_pwm (s : State) (n : Nat) (x : Axis) : (s.setAxis n x).pwm = s.pwm := rfl
@[simp] theorem State.setAxis_steps (s : State) (n : Nat) (x : Axis) : (s.setAxis n x).steps = s.steps := rfl
@[simp] theorem State.setAxis_ports (s : State) (n : Nat) (x : Axis) : (s.setAxis n x).ports = s.ports := rfl
@[simp] theorem State.setAxis_heads (s : State) (n : Nat) (x : Axis) : (s.setAxis n x).heads = s.heads := rfl
@[simp] theorem State.setAxis_pair (s : State) (n : Nat) (x : Axis) : (s.setAxis n x).pair = s.pair := rfl
@[simp] theorem State.setAxis_island (s : State) (n : Nat) (x : Axis) : (s.setAxis n x).island = s.island := rfl
@[simp] theorem State.setAxis_die (s : State) (n : Nat) (x : Axis) : (s.setAxis n x).die = s.die := rfl
@[simp] theorem State.setAxis_tmu (s : State) (n : Nat) (x : Axis) : (s.setAxis n x).tmu = s.tmu := rfl
@[simp] theorem State.setAxis_macs (s : State) (n : Nat) (x : Axis) : (s.setAxis n x).macs = s.macs := rfl
@[simp] theorem State.setAxis_cans (s : State) (n : Nat) (x : Axis) : (s.setAxis n x).cans = s.cans := rfl
@[simp] theorem State.setAxis_dma (s : State) (n : Nat) (x : Axis) : (s.setAxis n x).dma = s.dma := rfl
@[simp] theorem State.setAxis_acq (s : State) (n : Nat) (x : Axis) : (s.setAxis n x).acq = s.acq := rfl
@[simp] theorem State.setAxis_inn (s : State) (n : Nat) (x : Axis) : (s.setAxis n x).inn = s.inn := rfl
@[simp] theorem State.setAxis_droppedStops (s : State) (n : Nat) (x : Axis) : (s.setAxis n x).droppedStops = s.droppedStops := rfl
@[simp] theorem State.setAxis_draws (s : State) (n : Nat) (x : Axis) : (s.setAxis n x).draws = s.draws := rfl
@[simp] theorem State.setAxis_ses (s : State) (n : Nat) (x : Axis) (j : Nat) : (s.setAxis n x).ses j = s.ses j := rfl
@[simp] theorem State.setAxis_jrn (s : State) (n : Nat) (x : Axis) (j : Nat) : (s.setAxis n x).jrn j = s.jrn j := rfl
@[simp] theorem State.setAxis_group (s : State) (n : Nat) (x : Axis) (j : Nat) : (s.setAxis n x).group j = s.group j := rfl
@[simp] theorem State.setAxis_act (s : State) (n : Nat) (x : Axis) (j : Nat) : (s.setAxis n x).act j = s.act j := rfl
@[simp] theorem State.setAxis_shad (s : State) (n : Nat) (x : Axis) (j : Nat) : (s.setAxis n x).shad j = s.shad j := rfl
@[simp] theorem State.setAxis_eng (s : State) (n : Nat) (x : Axis) (j : Nat) : (s.setAxis n x).eng j = s.eng j := rfl
@[simp] theorem State.setAxis_blk (s : State) (n : Nat) (x : Axis) (j : Nat) : (s.setAxis n x).blk j = s.blk j := rfl
@[simp] theorem State.setAxis_shaft (s : State) (n : Nat) (x : Axis) (j : Nat) : (s.setAxis n x).shaft j = s.shaft j := rfl
@[simp] theorem State.setAxis_latch (s : State) (n : Nat) (x : Axis) (j : Nat) : (s.setAxis n x).latch j = s.latch j := rfl
@[simp] theorem State.setAxis_fb (s : State) (n : Nat) (x : Axis) (j : Nat) : (s.setAxis n x).fb j = s.fb j := rfl
@[simp] theorem State.setAxis_ain (s : State) (n : Nat) (x : Axis) (j : Nat) : (s.setAxis n x).ain j = s.ain j := rfl
@[simp] theorem State.setAxis_em (s : State) (n : Nat) (x : Axis) (j : Nat) : (s.setAxis n x).em j = s.em j := rfl
@[simp] theorem State.setAxis_pw (s : State) (n : Nat) (x : Axis) (j : Nat) : (s.setAxis n x).pw j = s.pw j := rfl
@[simp] theorem State.setAxis_stp (s : State) (n : Nat) (x : Axis) (j : Nat) : (s.setAxis n x).stp j = s.stp j := rfl
@[simp] theorem State.setAxis_port (s : State) (n : Nat) (x : Axis) (j : Nat) : (s.setAxis n x).port j = s.port j := rfl
@[simp] theorem State.setAxis_head (s : State) (n : Nat) (x : Axis) (j : Nat) : (s.setAxis n x).head j = s.head j := rfl
@[simp] theorem State.setAxis_mac (s : State) (n : Nat) (x : Axis) (j : Nat) : (s.setAxis n x).mac j = s.mac j := rfl
@[simp] theorem State.setAxis_can (s : State) (n : Nat) (x : Axis) (j : Nat) : (s.setAxis n x).can j = s.can j := rfl
@[simp] theorem State.setAxis_dch (s : State) (n : Nat) (x : Axis) (j : Nat) : (s.setAxis n x).dch j = s.dch j := rfl
@[simp] theorem State.setAxis_reg (s : State) (n : Nat) (x : Axis) (j : Nat) : (s.setAxis n x).reg j = s.reg j := rfl

/-! `State.setGroup` writes the field `groups` alone. -/
@[simp] theorem State.setGroup_pending (s : State) (n : Nat) (x : Group) : (s.setGroup n x).pending = s.pending := rfl
@[simp] theorem State.setGroup_part (s : State) (n : Nat) (x : Group) : (s.setGroup n x).part = s.part := rfl
@[simp] theorem State.setGroup_power (s : State) (n : Nat) (x : Group) : (s.setGroup n x).power = s.power := rfl
@[simp] theorem State.setGroup_bus (s : State) (n : Nat) (x : Group) : (s.setGroup n x).bus = s.bus := rfl
@[simp] theorem State.setGroup_regs (s : State) (n : Nat) (x : Group) : (s.setGroup n x).regs = s.regs := rfl
@[simp] theorem State.setGroup_out (s : State) (n : Nat) (x : Group) : (s.setGroup n x).out = s.out := rfl
@[simp] theorem State.setGroup_sram (s : State) (n : Nat) (x : Group) : (s.setGroup n x).sram = s.sram := rfl
@[simp] theorem State.setGroup_sramFlip (s : State) (n : Nat) (x : Group) : (s.setGroup n x).sramFlip = s.sramFlip := rfl
@[simp] theorem State.setGroup_leMem (s : State) (n : Nat) (x : Group) : (s.setGroup n x).leMem = s.leMem := rfl
@[simp] theorem State.setGroup_sessions (s : State) (n : Nat) (x : Group) : (s.setGroup n x).sessions = s.sessions := rfl
@[simp] theorem State.setGroup_journal (s : State) (n : Nat) (x : Group) : (s.setGroup n x).journal = s.journal := rfl
@[simp] theorem State.setGroup_porter (s : State) (n : Nat) (x : Group) : (s.setGroup n x).porter = s.porter := rfl
@[simp] theorem State.setGroup_staged (s : State) (n : Nat) (x : Group) : (s.setGroup n x).staged = s.staged := rfl
@[simp] theorem State.setGroup_params (s : State) (n : Nat) (x : Group) : (s.setGroup n x).params = s.params := rfl
@[simp] theorem State.setGroup_axes (s : State) (n : Nat) (x : Group) : (s.setGroup n x).axes = s.axes := rfl
@[simp] theorem State.setGroup_exchange (s : State) (n : Nat) (x : Group) : (s.setGroup n x).exchange = s.exchange := rfl
@[simp] theorem State.setGroup_exchNext (s : State) (n : Nat) (x : Group) : (s.setGroup n x).exchNext = s.exchNext := rfl
@[simp] theorem State.setGroup_exchAt (s : State) (n : Nat) (x : Group) : (s.setGroup n x).exchAt = s.exchAt := rfl
@[simp] theorem State.setGroup_exchAtNext (s : State) (n : Nat) (x : Group) : (s.setGroup n x).exchAtNext = s.exchAtNext := rfl
@[simp] theorem State.setGroup_active (s : State) (n : Nat) (x : Group) : (s.setGroup n x).active = s.active := rfl
@[simp] theorem State.setGroup_shadow (s : State) (n : Nat) (x : Group) : (s.setGroup n x).shadow = s.shadow := rfl
@[simp] theorem State.setGroup_engines (s : State) (n : Nat) (x : Group) : (s.setGroup n x).engines = s.engines := rfl
@[simp] theorem State.setGroup_blocks (s : State) (n : Nat) (x : Group) : (s.setGroup n x).blocks = s.blocks := rfl
@[simp] theorem State.setGroup_camHdr (s : State) (n : Nat) (x : Group) : (s.setGroup n x).camHdr = s.camHdr := rfl
@[simp] theorem State.setGroup_camPoints (s : State) (n : Nat) (x : Group) : (s.setGroup n x).camPoints = s.camPoints := rfl
@[simp] theorem State.setGroup_shafts (s : State) (n : Nat) (x : Group) : (s.setGroup n x).shafts = s.shafts := rfl
@[simp] theorem State.setGroup_latches (s : State) (n : Nat) (x : Group) : (s.setGroup n x).latches = s.latches := rfl
@[simp] theorem State.setGroup_fbk (s : State) (n : Nat) (x : Group) : (s.setGroup n x).fbk = s.fbk := rfl
@[simp] theorem State.setGroup_mts (s : State) (n : Nat) (x : Group) : (s.setGroup n x).mts = s.mts := rfl
@[simp] theorem State.setGroup_adc (s : State) (n : Nat) (x : Group) : (s.setGroup n x).adc = s.adc := rfl
@[simp] theorem State.setGroup_emu (s : State) (n : Nat) (x : Group) : (s.setGroup n x).emu = s.emu := rfl
@[simp] theorem State.setGroup_pwm (s : State) (n : Nat) (x : Group) : (s.setGroup n x).pwm = s.pwm := rfl
@[simp] theorem State.setGroup_steps (s : State) (n : Nat) (x : Group) : (s.setGroup n x).steps = s.steps := rfl
@[simp] theorem State.setGroup_ports (s : State) (n : Nat) (x : Group) : (s.setGroup n x).ports = s.ports := rfl
@[simp] theorem State.setGroup_heads (s : State) (n : Nat) (x : Group) : (s.setGroup n x).heads = s.heads := rfl
@[simp] theorem State.setGroup_pair (s : State) (n : Nat) (x : Group) : (s.setGroup n x).pair = s.pair := rfl
@[simp] theorem State.setGroup_island (s : State) (n : Nat) (x : Group) : (s.setGroup n x).island = s.island := rfl
@[simp] theorem State.setGroup_die (s : State) (n : Nat) (x : Group) : (s.setGroup n x).die = s.die := rfl
@[simp] theorem State.setGroup_tmu (s : State) (n : Nat) (x : Group) : (s.setGroup n x).tmu = s.tmu := rfl
@[simp] theorem State.setGroup_macs (s : State) (n : Nat) (x : Group) : (s.setGroup n x).macs = s.macs := rfl
@[simp] theorem State.setGroup_cans (s : State) (n : Nat) (x : Group) : (s.setGroup n x).cans = s.cans := rfl
@[simp] theorem State.setGroup_dma (s : State) (n : Nat) (x : Group) : (s.setGroup n x).dma = s.dma := rfl
@[simp] theorem State.setGroup_acq (s : State) (n : Nat) (x : Group) : (s.setGroup n x).acq = s.acq := rfl
@[simp] theorem State.setGroup_inn (s : State) (n : Nat) (x : Group) : (s.setGroup n x).inn = s.inn := rfl
@[simp] theorem State.setGroup_droppedStops (s : State) (n : Nat) (x : Group) : (s.setGroup n x).droppedStops = s.droppedStops := rfl
@[simp] theorem State.setGroup_draws (s : State) (n : Nat) (x : Group) : (s.setGroup n x).draws = s.draws := rfl
@[simp] theorem State.setGroup_ses (s : State) (n : Nat) (x : Group) (j : Nat) : (s.setGroup n x).ses j = s.ses j := rfl
@[simp] theorem State.setGroup_jrn (s : State) (n : Nat) (x : Group) (j : Nat) : (s.setGroup n x).jrn j = s.jrn j := rfl
@[simp] theorem State.setGroup_axis (s : State) (n : Nat) (x : Group) (j : Nat) : (s.setGroup n x).axis j = s.axis j := rfl
@[simp] theorem State.setGroup_act (s : State) (n : Nat) (x : Group) (j : Nat) : (s.setGroup n x).act j = s.act j := rfl
@[simp] theorem State.setGroup_shad (s : State) (n : Nat) (x : Group) (j : Nat) : (s.setGroup n x).shad j = s.shad j := rfl
@[simp] theorem State.setGroup_eng (s : State) (n : Nat) (x : Group) (j : Nat) : (s.setGroup n x).eng j = s.eng j := rfl
@[simp] theorem State.setGroup_blk (s : State) (n : Nat) (x : Group) (j : Nat) : (s.setGroup n x).blk j = s.blk j := rfl
@[simp] theorem State.setGroup_shaft (s : State) (n : Nat) (x : Group) (j : Nat) : (s.setGroup n x).shaft j = s.shaft j := rfl
@[simp] theorem State.setGroup_latch (s : State) (n : Nat) (x : Group) (j : Nat) : (s.setGroup n x).latch j = s.latch j := rfl
@[simp] theorem State.setGroup_fb (s : State) (n : Nat) (x : Group) (j : Nat) : (s.setGroup n x).fb j = s.fb j := rfl
@[simp] theorem State.setGroup_ain (s : State) (n : Nat) (x : Group) (j : Nat) : (s.setGroup n x).ain j = s.ain j := rfl
@[simp] theorem State.setGroup_em (s : State) (n : Nat) (x : Group) (j : Nat) : (s.setGroup n x).em j = s.em j := rfl
@[simp] theorem State.setGroup_pw (s : State) (n : Nat) (x : Group) (j : Nat) : (s.setGroup n x).pw j = s.pw j := rfl
@[simp] theorem State.setGroup_stp (s : State) (n : Nat) (x : Group) (j : Nat) : (s.setGroup n x).stp j = s.stp j := rfl
@[simp] theorem State.setGroup_port (s : State) (n : Nat) (x : Group) (j : Nat) : (s.setGroup n x).port j = s.port j := rfl
@[simp] theorem State.setGroup_head (s : State) (n : Nat) (x : Group) (j : Nat) : (s.setGroup n x).head j = s.head j := rfl
@[simp] theorem State.setGroup_mac (s : State) (n : Nat) (x : Group) (j : Nat) : (s.setGroup n x).mac j = s.mac j := rfl
@[simp] theorem State.setGroup_can (s : State) (n : Nat) (x : Group) (j : Nat) : (s.setGroup n x).can j = s.can j := rfl
@[simp] theorem State.setGroup_dch (s : State) (n : Nat) (x : Group) (j : Nat) : (s.setGroup n x).dch j = s.dch j := rfl
@[simp] theorem State.setGroup_reg (s : State) (n : Nat) (x : Group) (j : Nat) : (s.setGroup n x).reg j = s.reg j := rfl

/-! `State.setAct` writes the field `active` alone. -/
@[simp] theorem State.setAct_pending (s : State) (n : Nat) (x : StopRec) : (s.setAct n x).pending = s.pending := rfl
@[simp] theorem State.setAct_part (s : State) (n : Nat) (x : StopRec) : (s.setAct n x).part = s.part := rfl
@[simp] theorem State.setAct_power (s : State) (n : Nat) (x : StopRec) : (s.setAct n x).power = s.power := rfl
@[simp] theorem State.setAct_bus (s : State) (n : Nat) (x : StopRec) : (s.setAct n x).bus = s.bus := rfl
@[simp] theorem State.setAct_regs (s : State) (n : Nat) (x : StopRec) : (s.setAct n x).regs = s.regs := rfl
@[simp] theorem State.setAct_out (s : State) (n : Nat) (x : StopRec) : (s.setAct n x).out = s.out := rfl
@[simp] theorem State.setAct_sram (s : State) (n : Nat) (x : StopRec) : (s.setAct n x).sram = s.sram := rfl
@[simp] theorem State.setAct_sramFlip (s : State) (n : Nat) (x : StopRec) : (s.setAct n x).sramFlip = s.sramFlip := rfl
@[simp] theorem State.setAct_leMem (s : State) (n : Nat) (x : StopRec) : (s.setAct n x).leMem = s.leMem := rfl
@[simp] theorem State.setAct_sessions (s : State) (n : Nat) (x : StopRec) : (s.setAct n x).sessions = s.sessions := rfl
@[simp] theorem State.setAct_journal (s : State) (n : Nat) (x : StopRec) : (s.setAct n x).journal = s.journal := rfl
@[simp] theorem State.setAct_porter (s : State) (n : Nat) (x : StopRec) : (s.setAct n x).porter = s.porter := rfl
@[simp] theorem State.setAct_staged (s : State) (n : Nat) (x : StopRec) : (s.setAct n x).staged = s.staged := rfl
@[simp] theorem State.setAct_params (s : State) (n : Nat) (x : StopRec) : (s.setAct n x).params = s.params := rfl
@[simp] theorem State.setAct_axes (s : State) (n : Nat) (x : StopRec) : (s.setAct n x).axes = s.axes := rfl
@[simp] theorem State.setAct_groups (s : State) (n : Nat) (x : StopRec) : (s.setAct n x).groups = s.groups := rfl
@[simp] theorem State.setAct_exchange (s : State) (n : Nat) (x : StopRec) : (s.setAct n x).exchange = s.exchange := rfl
@[simp] theorem State.setAct_exchNext (s : State) (n : Nat) (x : StopRec) : (s.setAct n x).exchNext = s.exchNext := rfl
@[simp] theorem State.setAct_exchAt (s : State) (n : Nat) (x : StopRec) : (s.setAct n x).exchAt = s.exchAt := rfl
@[simp] theorem State.setAct_exchAtNext (s : State) (n : Nat) (x : StopRec) : (s.setAct n x).exchAtNext = s.exchAtNext := rfl
@[simp] theorem State.setAct_shadow (s : State) (n : Nat) (x : StopRec) : (s.setAct n x).shadow = s.shadow := rfl
@[simp] theorem State.setAct_engines (s : State) (n : Nat) (x : StopRec) : (s.setAct n x).engines = s.engines := rfl
@[simp] theorem State.setAct_blocks (s : State) (n : Nat) (x : StopRec) : (s.setAct n x).blocks = s.blocks := rfl
@[simp] theorem State.setAct_camHdr (s : State) (n : Nat) (x : StopRec) : (s.setAct n x).camHdr = s.camHdr := rfl
@[simp] theorem State.setAct_camPoints (s : State) (n : Nat) (x : StopRec) : (s.setAct n x).camPoints = s.camPoints := rfl
@[simp] theorem State.setAct_shafts (s : State) (n : Nat) (x : StopRec) : (s.setAct n x).shafts = s.shafts := rfl
@[simp] theorem State.setAct_latches (s : State) (n : Nat) (x : StopRec) : (s.setAct n x).latches = s.latches := rfl
@[simp] theorem State.setAct_fbk (s : State) (n : Nat) (x : StopRec) : (s.setAct n x).fbk = s.fbk := rfl
@[simp] theorem State.setAct_mts (s : State) (n : Nat) (x : StopRec) : (s.setAct n x).mts = s.mts := rfl
@[simp] theorem State.setAct_adc (s : State) (n : Nat) (x : StopRec) : (s.setAct n x).adc = s.adc := rfl
@[simp] theorem State.setAct_emu (s : State) (n : Nat) (x : StopRec) : (s.setAct n x).emu = s.emu := rfl
@[simp] theorem State.setAct_pwm (s : State) (n : Nat) (x : StopRec) : (s.setAct n x).pwm = s.pwm := rfl
@[simp] theorem State.setAct_steps (s : State) (n : Nat) (x : StopRec) : (s.setAct n x).steps = s.steps := rfl
@[simp] theorem State.setAct_ports (s : State) (n : Nat) (x : StopRec) : (s.setAct n x).ports = s.ports := rfl
@[simp] theorem State.setAct_heads (s : State) (n : Nat) (x : StopRec) : (s.setAct n x).heads = s.heads := rfl
@[simp] theorem State.setAct_pair (s : State) (n : Nat) (x : StopRec) : (s.setAct n x).pair = s.pair := rfl
@[simp] theorem State.setAct_island (s : State) (n : Nat) (x : StopRec) : (s.setAct n x).island = s.island := rfl
@[simp] theorem State.setAct_die (s : State) (n : Nat) (x : StopRec) : (s.setAct n x).die = s.die := rfl
@[simp] theorem State.setAct_tmu (s : State) (n : Nat) (x : StopRec) : (s.setAct n x).tmu = s.tmu := rfl
@[simp] theorem State.setAct_macs (s : State) (n : Nat) (x : StopRec) : (s.setAct n x).macs = s.macs := rfl
@[simp] theorem State.setAct_cans (s : State) (n : Nat) (x : StopRec) : (s.setAct n x).cans = s.cans := rfl
@[simp] theorem State.setAct_dma (s : State) (n : Nat) (x : StopRec) : (s.setAct n x).dma = s.dma := rfl
@[simp] theorem State.setAct_acq (s : State) (n : Nat) (x : StopRec) : (s.setAct n x).acq = s.acq := rfl
@[simp] theorem State.setAct_inn (s : State) (n : Nat) (x : StopRec) : (s.setAct n x).inn = s.inn := rfl
@[simp] theorem State.setAct_droppedStops (s : State) (n : Nat) (x : StopRec) : (s.setAct n x).droppedStops = s.droppedStops := rfl
@[simp] theorem State.setAct_draws (s : State) (n : Nat) (x : StopRec) : (s.setAct n x).draws = s.draws := rfl
@[simp] theorem State.setAct_ses (s : State) (n : Nat) (x : StopRec) (j : Nat) : (s.setAct n x).ses j = s.ses j := rfl
@[simp] theorem State.setAct_jrn (s : State) (n : Nat) (x : StopRec) (j : Nat) : (s.setAct n x).jrn j = s.jrn j := rfl
@[simp] theorem State.setAct_axis (s : State) (n : Nat) (x : StopRec) (j : Nat) : (s.setAct n x).axis j = s.axis j := rfl
@[simp] theorem State.setAct_group (s : State) (n : Nat) (x : StopRec) (j : Nat) : (s.setAct n x).group j = s.group j := rfl
@[simp] theorem State.setAct_shad (s : State) (n : Nat) (x : StopRec) (j : Nat) : (s.setAct n x).shad j = s.shad j := rfl
@[simp] theorem State.setAct_eng (s : State) (n : Nat) (x : StopRec) (j : Nat) : (s.setAct n x).eng j = s.eng j := rfl
@[simp] theorem State.setAct_blk (s : State) (n : Nat) (x : StopRec) (j : Nat) : (s.setAct n x).blk j = s.blk j := rfl
@[simp] theorem State.setAct_shaft (s : State) (n : Nat) (x : StopRec) (j : Nat) : (s.setAct n x).shaft j = s.shaft j := rfl
@[simp] theorem State.setAct_latch (s : State) (n : Nat) (x : StopRec) (j : Nat) : (s.setAct n x).latch j = s.latch j := rfl
@[simp] theorem State.setAct_fb (s : State) (n : Nat) (x : StopRec) (j : Nat) : (s.setAct n x).fb j = s.fb j := rfl
@[simp] theorem State.setAct_ain (s : State) (n : Nat) (x : StopRec) (j : Nat) : (s.setAct n x).ain j = s.ain j := rfl
@[simp] theorem State.setAct_em (s : State) (n : Nat) (x : StopRec) (j : Nat) : (s.setAct n x).em j = s.em j := rfl
@[simp] theorem State.setAct_pw (s : State) (n : Nat) (x : StopRec) (j : Nat) : (s.setAct n x).pw j = s.pw j := rfl
@[simp] theorem State.setAct_stp (s : State) (n : Nat) (x : StopRec) (j : Nat) : (s.setAct n x).stp j = s.stp j := rfl
@[simp] theorem State.setAct_port (s : State) (n : Nat) (x : StopRec) (j : Nat) : (s.setAct n x).port j = s.port j := rfl
@[simp] theorem State.setAct_head (s : State) (n : Nat) (x : StopRec) (j : Nat) : (s.setAct n x).head j = s.head j := rfl
@[simp] theorem State.setAct_mac (s : State) (n : Nat) (x : StopRec) (j : Nat) : (s.setAct n x).mac j = s.mac j := rfl
@[simp] theorem State.setAct_can (s : State) (n : Nat) (x : StopRec) (j : Nat) : (s.setAct n x).can j = s.can j := rfl
@[simp] theorem State.setAct_dch (s : State) (n : Nat) (x : StopRec) (j : Nat) : (s.setAct n x).dch j = s.dch j := rfl
@[simp] theorem State.setAct_reg (s : State) (n : Nat) (x : StopRec) (j : Nat) : (s.setAct n x).reg j = s.reg j := rfl

/-! `State.setShad` writes the field `shadow` alone. -/
@[simp] theorem State.setShad_pending (s : State) (n : Nat) (x : StopRec) : (s.setShad n x).pending = s.pending := rfl
@[simp] theorem State.setShad_part (s : State) (n : Nat) (x : StopRec) : (s.setShad n x).part = s.part := rfl
@[simp] theorem State.setShad_power (s : State) (n : Nat) (x : StopRec) : (s.setShad n x).power = s.power := rfl
@[simp] theorem State.setShad_bus (s : State) (n : Nat) (x : StopRec) : (s.setShad n x).bus = s.bus := rfl
@[simp] theorem State.setShad_regs (s : State) (n : Nat) (x : StopRec) : (s.setShad n x).regs = s.regs := rfl
@[simp] theorem State.setShad_out (s : State) (n : Nat) (x : StopRec) : (s.setShad n x).out = s.out := rfl
@[simp] theorem State.setShad_sram (s : State) (n : Nat) (x : StopRec) : (s.setShad n x).sram = s.sram := rfl
@[simp] theorem State.setShad_sramFlip (s : State) (n : Nat) (x : StopRec) : (s.setShad n x).sramFlip = s.sramFlip := rfl
@[simp] theorem State.setShad_leMem (s : State) (n : Nat) (x : StopRec) : (s.setShad n x).leMem = s.leMem := rfl
@[simp] theorem State.setShad_sessions (s : State) (n : Nat) (x : StopRec) : (s.setShad n x).sessions = s.sessions := rfl
@[simp] theorem State.setShad_journal (s : State) (n : Nat) (x : StopRec) : (s.setShad n x).journal = s.journal := rfl
@[simp] theorem State.setShad_porter (s : State) (n : Nat) (x : StopRec) : (s.setShad n x).porter = s.porter := rfl
@[simp] theorem State.setShad_staged (s : State) (n : Nat) (x : StopRec) : (s.setShad n x).staged = s.staged := rfl
@[simp] theorem State.setShad_params (s : State) (n : Nat) (x : StopRec) : (s.setShad n x).params = s.params := rfl
@[simp] theorem State.setShad_axes (s : State) (n : Nat) (x : StopRec) : (s.setShad n x).axes = s.axes := rfl
@[simp] theorem State.setShad_groups (s : State) (n : Nat) (x : StopRec) : (s.setShad n x).groups = s.groups := rfl
@[simp] theorem State.setShad_exchange (s : State) (n : Nat) (x : StopRec) : (s.setShad n x).exchange = s.exchange := rfl
@[simp] theorem State.setShad_exchNext (s : State) (n : Nat) (x : StopRec) : (s.setShad n x).exchNext = s.exchNext := rfl
@[simp] theorem State.setShad_exchAt (s : State) (n : Nat) (x : StopRec) : (s.setShad n x).exchAt = s.exchAt := rfl
@[simp] theorem State.setShad_exchAtNext (s : State) (n : Nat) (x : StopRec) : (s.setShad n x).exchAtNext = s.exchAtNext := rfl
@[simp] theorem State.setShad_active (s : State) (n : Nat) (x : StopRec) : (s.setShad n x).active = s.active := rfl
@[simp] theorem State.setShad_engines (s : State) (n : Nat) (x : StopRec) : (s.setShad n x).engines = s.engines := rfl
@[simp] theorem State.setShad_blocks (s : State) (n : Nat) (x : StopRec) : (s.setShad n x).blocks = s.blocks := rfl
@[simp] theorem State.setShad_camHdr (s : State) (n : Nat) (x : StopRec) : (s.setShad n x).camHdr = s.camHdr := rfl
@[simp] theorem State.setShad_camPoints (s : State) (n : Nat) (x : StopRec) : (s.setShad n x).camPoints = s.camPoints := rfl
@[simp] theorem State.setShad_shafts (s : State) (n : Nat) (x : StopRec) : (s.setShad n x).shafts = s.shafts := rfl
@[simp] theorem State.setShad_latches (s : State) (n : Nat) (x : StopRec) : (s.setShad n x).latches = s.latches := rfl
@[simp] theorem State.setShad_fbk (s : State) (n : Nat) (x : StopRec) : (s.setShad n x).fbk = s.fbk := rfl
@[simp] theorem State.setShad_mts (s : State) (n : Nat) (x : StopRec) : (s.setShad n x).mts = s.mts := rfl
@[simp] theorem State.setShad_adc (s : State) (n : Nat) (x : StopRec) : (s.setShad n x).adc = s.adc := rfl
@[simp] theorem State.setShad_emu (s : State) (n : Nat) (x : StopRec) : (s.setShad n x).emu = s.emu := rfl
@[simp] theorem State.setShad_pwm (s : State) (n : Nat) (x : StopRec) : (s.setShad n x).pwm = s.pwm := rfl
@[simp] theorem State.setShad_steps (s : State) (n : Nat) (x : StopRec) : (s.setShad n x).steps = s.steps := rfl
@[simp] theorem State.setShad_ports (s : State) (n : Nat) (x : StopRec) : (s.setShad n x).ports = s.ports := rfl
@[simp] theorem State.setShad_heads (s : State) (n : Nat) (x : StopRec) : (s.setShad n x).heads = s.heads := rfl
@[simp] theorem State.setShad_pair (s : State) (n : Nat) (x : StopRec) : (s.setShad n x).pair = s.pair := rfl
@[simp] theorem State.setShad_island (s : State) (n : Nat) (x : StopRec) : (s.setShad n x).island = s.island := rfl
@[simp] theorem State.setShad_die (s : State) (n : Nat) (x : StopRec) : (s.setShad n x).die = s.die := rfl
@[simp] theorem State.setShad_tmu (s : State) (n : Nat) (x : StopRec) : (s.setShad n x).tmu = s.tmu := rfl
@[simp] theorem State.setShad_macs (s : State) (n : Nat) (x : StopRec) : (s.setShad n x).macs = s.macs := rfl
@[simp] theorem State.setShad_cans (s : State) (n : Nat) (x : StopRec) : (s.setShad n x).cans = s.cans := rfl
@[simp] theorem State.setShad_dma (s : State) (n : Nat) (x : StopRec) : (s.setShad n x).dma = s.dma := rfl
@[simp] theorem State.setShad_acq (s : State) (n : Nat) (x : StopRec) : (s.setShad n x).acq = s.acq := rfl
@[simp] theorem State.setShad_inn (s : State) (n : Nat) (x : StopRec) : (s.setShad n x).inn = s.inn := rfl
@[simp] theorem State.setShad_droppedStops (s : State) (n : Nat) (x : StopRec) : (s.setShad n x).droppedStops = s.droppedStops := rfl
@[simp] theorem State.setShad_draws (s : State) (n : Nat) (x : StopRec) : (s.setShad n x).draws = s.draws := rfl
@[simp] theorem State.setShad_ses (s : State) (n : Nat) (x : StopRec) (j : Nat) : (s.setShad n x).ses j = s.ses j := rfl
@[simp] theorem State.setShad_jrn (s : State) (n : Nat) (x : StopRec) (j : Nat) : (s.setShad n x).jrn j = s.jrn j := rfl
@[simp] theorem State.setShad_axis (s : State) (n : Nat) (x : StopRec) (j : Nat) : (s.setShad n x).axis j = s.axis j := rfl
@[simp] theorem State.setShad_group (s : State) (n : Nat) (x : StopRec) (j : Nat) : (s.setShad n x).group j = s.group j := rfl
@[simp] theorem State.setShad_act (s : State) (n : Nat) (x : StopRec) (j : Nat) : (s.setShad n x).act j = s.act j := rfl
@[simp] theorem State.setShad_eng (s : State) (n : Nat) (x : StopRec) (j : Nat) : (s.setShad n x).eng j = s.eng j := rfl
@[simp] theorem State.setShad_blk (s : State) (n : Nat) (x : StopRec) (j : Nat) : (s.setShad n x).blk j = s.blk j := rfl
@[simp] theorem State.setShad_shaft (s : State) (n : Nat) (x : StopRec) (j : Nat) : (s.setShad n x).shaft j = s.shaft j := rfl
@[simp] theorem State.setShad_latch (s : State) (n : Nat) (x : StopRec) (j : Nat) : (s.setShad n x).latch j = s.latch j := rfl
@[simp] theorem State.setShad_fb (s : State) (n : Nat) (x : StopRec) (j : Nat) : (s.setShad n x).fb j = s.fb j := rfl
@[simp] theorem State.setShad_ain (s : State) (n : Nat) (x : StopRec) (j : Nat) : (s.setShad n x).ain j = s.ain j := rfl
@[simp] theorem State.setShad_em (s : State) (n : Nat) (x : StopRec) (j : Nat) : (s.setShad n x).em j = s.em j := rfl
@[simp] theorem State.setShad_pw (s : State) (n : Nat) (x : StopRec) (j : Nat) : (s.setShad n x).pw j = s.pw j := rfl
@[simp] theorem State.setShad_stp (s : State) (n : Nat) (x : StopRec) (j : Nat) : (s.setShad n x).stp j = s.stp j := rfl
@[simp] theorem State.setShad_port (s : State) (n : Nat) (x : StopRec) (j : Nat) : (s.setShad n x).port j = s.port j := rfl
@[simp] theorem State.setShad_head (s : State) (n : Nat) (x : StopRec) (j : Nat) : (s.setShad n x).head j = s.head j := rfl
@[simp] theorem State.setShad_mac (s : State) (n : Nat) (x : StopRec) (j : Nat) : (s.setShad n x).mac j = s.mac j := rfl
@[simp] theorem State.setShad_can (s : State) (n : Nat) (x : StopRec) (j : Nat) : (s.setShad n x).can j = s.can j := rfl
@[simp] theorem State.setShad_dch (s : State) (n : Nat) (x : StopRec) (j : Nat) : (s.setShad n x).dch j = s.dch j := rfl
@[simp] theorem State.setShad_reg (s : State) (n : Nat) (x : StopRec) (j : Nat) : (s.setShad n x).reg j = s.reg j := rfl

/-! `State.setEng` writes the field `engines` alone. -/
@[simp] theorem State.setEng_pending (s : State) (n : Nat) (x : Engine) : (s.setEng n x).pending = s.pending := rfl
@[simp] theorem State.setEng_part (s : State) (n : Nat) (x : Engine) : (s.setEng n x).part = s.part := rfl
@[simp] theorem State.setEng_power (s : State) (n : Nat) (x : Engine) : (s.setEng n x).power = s.power := rfl
@[simp] theorem State.setEng_bus (s : State) (n : Nat) (x : Engine) : (s.setEng n x).bus = s.bus := rfl
@[simp] theorem State.setEng_regs (s : State) (n : Nat) (x : Engine) : (s.setEng n x).regs = s.regs := rfl
@[simp] theorem State.setEng_out (s : State) (n : Nat) (x : Engine) : (s.setEng n x).out = s.out := rfl
@[simp] theorem State.setEng_sram (s : State) (n : Nat) (x : Engine) : (s.setEng n x).sram = s.sram := rfl
@[simp] theorem State.setEng_sramFlip (s : State) (n : Nat) (x : Engine) : (s.setEng n x).sramFlip = s.sramFlip := rfl
@[simp] theorem State.setEng_leMem (s : State) (n : Nat) (x : Engine) : (s.setEng n x).leMem = s.leMem := rfl
@[simp] theorem State.setEng_sessions (s : State) (n : Nat) (x : Engine) : (s.setEng n x).sessions = s.sessions := rfl
@[simp] theorem State.setEng_journal (s : State) (n : Nat) (x : Engine) : (s.setEng n x).journal = s.journal := rfl
@[simp] theorem State.setEng_porter (s : State) (n : Nat) (x : Engine) : (s.setEng n x).porter = s.porter := rfl
@[simp] theorem State.setEng_staged (s : State) (n : Nat) (x : Engine) : (s.setEng n x).staged = s.staged := rfl
@[simp] theorem State.setEng_params (s : State) (n : Nat) (x : Engine) : (s.setEng n x).params = s.params := rfl
@[simp] theorem State.setEng_axes (s : State) (n : Nat) (x : Engine) : (s.setEng n x).axes = s.axes := rfl
@[simp] theorem State.setEng_groups (s : State) (n : Nat) (x : Engine) : (s.setEng n x).groups = s.groups := rfl
@[simp] theorem State.setEng_exchange (s : State) (n : Nat) (x : Engine) : (s.setEng n x).exchange = s.exchange := rfl
@[simp] theorem State.setEng_exchNext (s : State) (n : Nat) (x : Engine) : (s.setEng n x).exchNext = s.exchNext := rfl
@[simp] theorem State.setEng_exchAt (s : State) (n : Nat) (x : Engine) : (s.setEng n x).exchAt = s.exchAt := rfl
@[simp] theorem State.setEng_exchAtNext (s : State) (n : Nat) (x : Engine) : (s.setEng n x).exchAtNext = s.exchAtNext := rfl
@[simp] theorem State.setEng_active (s : State) (n : Nat) (x : Engine) : (s.setEng n x).active = s.active := rfl
@[simp] theorem State.setEng_shadow (s : State) (n : Nat) (x : Engine) : (s.setEng n x).shadow = s.shadow := rfl
@[simp] theorem State.setEng_blocks (s : State) (n : Nat) (x : Engine) : (s.setEng n x).blocks = s.blocks := rfl
@[simp] theorem State.setEng_camHdr (s : State) (n : Nat) (x : Engine) : (s.setEng n x).camHdr = s.camHdr := rfl
@[simp] theorem State.setEng_camPoints (s : State) (n : Nat) (x : Engine) : (s.setEng n x).camPoints = s.camPoints := rfl
@[simp] theorem State.setEng_shafts (s : State) (n : Nat) (x : Engine) : (s.setEng n x).shafts = s.shafts := rfl
@[simp] theorem State.setEng_latches (s : State) (n : Nat) (x : Engine) : (s.setEng n x).latches = s.latches := rfl
@[simp] theorem State.setEng_fbk (s : State) (n : Nat) (x : Engine) : (s.setEng n x).fbk = s.fbk := rfl
@[simp] theorem State.setEng_mts (s : State) (n : Nat) (x : Engine) : (s.setEng n x).mts = s.mts := rfl
@[simp] theorem State.setEng_adc (s : State) (n : Nat) (x : Engine) : (s.setEng n x).adc = s.adc := rfl
@[simp] theorem State.setEng_emu (s : State) (n : Nat) (x : Engine) : (s.setEng n x).emu = s.emu := rfl
@[simp] theorem State.setEng_pwm (s : State) (n : Nat) (x : Engine) : (s.setEng n x).pwm = s.pwm := rfl
@[simp] theorem State.setEng_steps (s : State) (n : Nat) (x : Engine) : (s.setEng n x).steps = s.steps := rfl
@[simp] theorem State.setEng_ports (s : State) (n : Nat) (x : Engine) : (s.setEng n x).ports = s.ports := rfl
@[simp] theorem State.setEng_heads (s : State) (n : Nat) (x : Engine) : (s.setEng n x).heads = s.heads := rfl
@[simp] theorem State.setEng_pair (s : State) (n : Nat) (x : Engine) : (s.setEng n x).pair = s.pair := rfl
@[simp] theorem State.setEng_island (s : State) (n : Nat) (x : Engine) : (s.setEng n x).island = s.island := rfl
@[simp] theorem State.setEng_die (s : State) (n : Nat) (x : Engine) : (s.setEng n x).die = s.die := rfl
@[simp] theorem State.setEng_tmu (s : State) (n : Nat) (x : Engine) : (s.setEng n x).tmu = s.tmu := rfl
@[simp] theorem State.setEng_macs (s : State) (n : Nat) (x : Engine) : (s.setEng n x).macs = s.macs := rfl
@[simp] theorem State.setEng_cans (s : State) (n : Nat) (x : Engine) : (s.setEng n x).cans = s.cans := rfl
@[simp] theorem State.setEng_dma (s : State) (n : Nat) (x : Engine) : (s.setEng n x).dma = s.dma := rfl
@[simp] theorem State.setEng_acq (s : State) (n : Nat) (x : Engine) : (s.setEng n x).acq = s.acq := rfl
@[simp] theorem State.setEng_inn (s : State) (n : Nat) (x : Engine) : (s.setEng n x).inn = s.inn := rfl
@[simp] theorem State.setEng_droppedStops (s : State) (n : Nat) (x : Engine) : (s.setEng n x).droppedStops = s.droppedStops := rfl
@[simp] theorem State.setEng_draws (s : State) (n : Nat) (x : Engine) : (s.setEng n x).draws = s.draws := rfl
@[simp] theorem State.setEng_ses (s : State) (n : Nat) (x : Engine) (j : Nat) : (s.setEng n x).ses j = s.ses j := rfl
@[simp] theorem State.setEng_jrn (s : State) (n : Nat) (x : Engine) (j : Nat) : (s.setEng n x).jrn j = s.jrn j := rfl
@[simp] theorem State.setEng_axis (s : State) (n : Nat) (x : Engine) (j : Nat) : (s.setEng n x).axis j = s.axis j := rfl
@[simp] theorem State.setEng_group (s : State) (n : Nat) (x : Engine) (j : Nat) : (s.setEng n x).group j = s.group j := rfl
@[simp] theorem State.setEng_act (s : State) (n : Nat) (x : Engine) (j : Nat) : (s.setEng n x).act j = s.act j := rfl
@[simp] theorem State.setEng_shad (s : State) (n : Nat) (x : Engine) (j : Nat) : (s.setEng n x).shad j = s.shad j := rfl
@[simp] theorem State.setEng_blk (s : State) (n : Nat) (x : Engine) (j : Nat) : (s.setEng n x).blk j = s.blk j := rfl
@[simp] theorem State.setEng_shaft (s : State) (n : Nat) (x : Engine) (j : Nat) : (s.setEng n x).shaft j = s.shaft j := rfl
@[simp] theorem State.setEng_latch (s : State) (n : Nat) (x : Engine) (j : Nat) : (s.setEng n x).latch j = s.latch j := rfl
@[simp] theorem State.setEng_fb (s : State) (n : Nat) (x : Engine) (j : Nat) : (s.setEng n x).fb j = s.fb j := rfl
@[simp] theorem State.setEng_ain (s : State) (n : Nat) (x : Engine) (j : Nat) : (s.setEng n x).ain j = s.ain j := rfl
@[simp] theorem State.setEng_em (s : State) (n : Nat) (x : Engine) (j : Nat) : (s.setEng n x).em j = s.em j := rfl
@[simp] theorem State.setEng_pw (s : State) (n : Nat) (x : Engine) (j : Nat) : (s.setEng n x).pw j = s.pw j := rfl
@[simp] theorem State.setEng_stp (s : State) (n : Nat) (x : Engine) (j : Nat) : (s.setEng n x).stp j = s.stp j := rfl
@[simp] theorem State.setEng_port (s : State) (n : Nat) (x : Engine) (j : Nat) : (s.setEng n x).port j = s.port j := rfl
@[simp] theorem State.setEng_head (s : State) (n : Nat) (x : Engine) (j : Nat) : (s.setEng n x).head j = s.head j := rfl
@[simp] theorem State.setEng_mac (s : State) (n : Nat) (x : Engine) (j : Nat) : (s.setEng n x).mac j = s.mac j := rfl
@[simp] theorem State.setEng_can (s : State) (n : Nat) (x : Engine) (j : Nat) : (s.setEng n x).can j = s.can j := rfl
@[simp] theorem State.setEng_dch (s : State) (n : Nat) (x : Engine) (j : Nat) : (s.setEng n x).dch j = s.dch j := rfl
@[simp] theorem State.setEng_reg (s : State) (n : Nat) (x : Engine) (j : Nat) : (s.setEng n x).reg j = s.reg j := rfl

/-! `State.setBlk` writes the field `blocks` alone. -/
@[simp] theorem State.setBlk_pending (s : State) (n : Nat) (x : Block) : (s.setBlk n x).pending = s.pending := rfl
@[simp] theorem State.setBlk_part (s : State) (n : Nat) (x : Block) : (s.setBlk n x).part = s.part := rfl
@[simp] theorem State.setBlk_power (s : State) (n : Nat) (x : Block) : (s.setBlk n x).power = s.power := rfl
@[simp] theorem State.setBlk_bus (s : State) (n : Nat) (x : Block) : (s.setBlk n x).bus = s.bus := rfl
@[simp] theorem State.setBlk_regs (s : State) (n : Nat) (x : Block) : (s.setBlk n x).regs = s.regs := rfl
@[simp] theorem State.setBlk_out (s : State) (n : Nat) (x : Block) : (s.setBlk n x).out = s.out := rfl
@[simp] theorem State.setBlk_sram (s : State) (n : Nat) (x : Block) : (s.setBlk n x).sram = s.sram := rfl
@[simp] theorem State.setBlk_sramFlip (s : State) (n : Nat) (x : Block) : (s.setBlk n x).sramFlip = s.sramFlip := rfl
@[simp] theorem State.setBlk_leMem (s : State) (n : Nat) (x : Block) : (s.setBlk n x).leMem = s.leMem := rfl
@[simp] theorem State.setBlk_sessions (s : State) (n : Nat) (x : Block) : (s.setBlk n x).sessions = s.sessions := rfl
@[simp] theorem State.setBlk_journal (s : State) (n : Nat) (x : Block) : (s.setBlk n x).journal = s.journal := rfl
@[simp] theorem State.setBlk_porter (s : State) (n : Nat) (x : Block) : (s.setBlk n x).porter = s.porter := rfl
@[simp] theorem State.setBlk_staged (s : State) (n : Nat) (x : Block) : (s.setBlk n x).staged = s.staged := rfl
@[simp] theorem State.setBlk_params (s : State) (n : Nat) (x : Block) : (s.setBlk n x).params = s.params := rfl
@[simp] theorem State.setBlk_axes (s : State) (n : Nat) (x : Block) : (s.setBlk n x).axes = s.axes := rfl
@[simp] theorem State.setBlk_groups (s : State) (n : Nat) (x : Block) : (s.setBlk n x).groups = s.groups := rfl
@[simp] theorem State.setBlk_exchange (s : State) (n : Nat) (x : Block) : (s.setBlk n x).exchange = s.exchange := rfl
@[simp] theorem State.setBlk_exchNext (s : State) (n : Nat) (x : Block) : (s.setBlk n x).exchNext = s.exchNext := rfl
@[simp] theorem State.setBlk_exchAt (s : State) (n : Nat) (x : Block) : (s.setBlk n x).exchAt = s.exchAt := rfl
@[simp] theorem State.setBlk_exchAtNext (s : State) (n : Nat) (x : Block) : (s.setBlk n x).exchAtNext = s.exchAtNext := rfl
@[simp] theorem State.setBlk_active (s : State) (n : Nat) (x : Block) : (s.setBlk n x).active = s.active := rfl
@[simp] theorem State.setBlk_shadow (s : State) (n : Nat) (x : Block) : (s.setBlk n x).shadow = s.shadow := rfl
@[simp] theorem State.setBlk_engines (s : State) (n : Nat) (x : Block) : (s.setBlk n x).engines = s.engines := rfl
@[simp] theorem State.setBlk_camHdr (s : State) (n : Nat) (x : Block) : (s.setBlk n x).camHdr = s.camHdr := rfl
@[simp] theorem State.setBlk_camPoints (s : State) (n : Nat) (x : Block) : (s.setBlk n x).camPoints = s.camPoints := rfl
@[simp] theorem State.setBlk_shafts (s : State) (n : Nat) (x : Block) : (s.setBlk n x).shafts = s.shafts := rfl
@[simp] theorem State.setBlk_latches (s : State) (n : Nat) (x : Block) : (s.setBlk n x).latches = s.latches := rfl
@[simp] theorem State.setBlk_fbk (s : State) (n : Nat) (x : Block) : (s.setBlk n x).fbk = s.fbk := rfl
@[simp] theorem State.setBlk_mts (s : State) (n : Nat) (x : Block) : (s.setBlk n x).mts = s.mts := rfl
@[simp] theorem State.setBlk_adc (s : State) (n : Nat) (x : Block) : (s.setBlk n x).adc = s.adc := rfl
@[simp] theorem State.setBlk_emu (s : State) (n : Nat) (x : Block) : (s.setBlk n x).emu = s.emu := rfl
@[simp] theorem State.setBlk_pwm (s : State) (n : Nat) (x : Block) : (s.setBlk n x).pwm = s.pwm := rfl
@[simp] theorem State.setBlk_steps (s : State) (n : Nat) (x : Block) : (s.setBlk n x).steps = s.steps := rfl
@[simp] theorem State.setBlk_ports (s : State) (n : Nat) (x : Block) : (s.setBlk n x).ports = s.ports := rfl
@[simp] theorem State.setBlk_heads (s : State) (n : Nat) (x : Block) : (s.setBlk n x).heads = s.heads := rfl
@[simp] theorem State.setBlk_pair (s : State) (n : Nat) (x : Block) : (s.setBlk n x).pair = s.pair := rfl
@[simp] theorem State.setBlk_island (s : State) (n : Nat) (x : Block) : (s.setBlk n x).island = s.island := rfl
@[simp] theorem State.setBlk_die (s : State) (n : Nat) (x : Block) : (s.setBlk n x).die = s.die := rfl
@[simp] theorem State.setBlk_tmu (s : State) (n : Nat) (x : Block) : (s.setBlk n x).tmu = s.tmu := rfl
@[simp] theorem State.setBlk_macs (s : State) (n : Nat) (x : Block) : (s.setBlk n x).macs = s.macs := rfl
@[simp] theorem State.setBlk_cans (s : State) (n : Nat) (x : Block) : (s.setBlk n x).cans = s.cans := rfl
@[simp] theorem State.setBlk_dma (s : State) (n : Nat) (x : Block) : (s.setBlk n x).dma = s.dma := rfl
@[simp] theorem State.setBlk_acq (s : State) (n : Nat) (x : Block) : (s.setBlk n x).acq = s.acq := rfl
@[simp] theorem State.setBlk_inn (s : State) (n : Nat) (x : Block) : (s.setBlk n x).inn = s.inn := rfl
@[simp] theorem State.setBlk_droppedStops (s : State) (n : Nat) (x : Block) : (s.setBlk n x).droppedStops = s.droppedStops := rfl
@[simp] theorem State.setBlk_draws (s : State) (n : Nat) (x : Block) : (s.setBlk n x).draws = s.draws := rfl
@[simp] theorem State.setBlk_ses (s : State) (n : Nat) (x : Block) (j : Nat) : (s.setBlk n x).ses j = s.ses j := rfl
@[simp] theorem State.setBlk_jrn (s : State) (n : Nat) (x : Block) (j : Nat) : (s.setBlk n x).jrn j = s.jrn j := rfl
@[simp] theorem State.setBlk_axis (s : State) (n : Nat) (x : Block) (j : Nat) : (s.setBlk n x).axis j = s.axis j := rfl
@[simp] theorem State.setBlk_group (s : State) (n : Nat) (x : Block) (j : Nat) : (s.setBlk n x).group j = s.group j := rfl
@[simp] theorem State.setBlk_act (s : State) (n : Nat) (x : Block) (j : Nat) : (s.setBlk n x).act j = s.act j := rfl
@[simp] theorem State.setBlk_shad (s : State) (n : Nat) (x : Block) (j : Nat) : (s.setBlk n x).shad j = s.shad j := rfl
@[simp] theorem State.setBlk_eng (s : State) (n : Nat) (x : Block) (j : Nat) : (s.setBlk n x).eng j = s.eng j := rfl
@[simp] theorem State.setBlk_shaft (s : State) (n : Nat) (x : Block) (j : Nat) : (s.setBlk n x).shaft j = s.shaft j := rfl
@[simp] theorem State.setBlk_latch (s : State) (n : Nat) (x : Block) (j : Nat) : (s.setBlk n x).latch j = s.latch j := rfl
@[simp] theorem State.setBlk_fb (s : State) (n : Nat) (x : Block) (j : Nat) : (s.setBlk n x).fb j = s.fb j := rfl
@[simp] theorem State.setBlk_ain (s : State) (n : Nat) (x : Block) (j : Nat) : (s.setBlk n x).ain j = s.ain j := rfl
@[simp] theorem State.setBlk_em (s : State) (n : Nat) (x : Block) (j : Nat) : (s.setBlk n x).em j = s.em j := rfl
@[simp] theorem State.setBlk_pw (s : State) (n : Nat) (x : Block) (j : Nat) : (s.setBlk n x).pw j = s.pw j := rfl
@[simp] theorem State.setBlk_stp (s : State) (n : Nat) (x : Block) (j : Nat) : (s.setBlk n x).stp j = s.stp j := rfl
@[simp] theorem State.setBlk_port (s : State) (n : Nat) (x : Block) (j : Nat) : (s.setBlk n x).port j = s.port j := rfl
@[simp] theorem State.setBlk_head (s : State) (n : Nat) (x : Block) (j : Nat) : (s.setBlk n x).head j = s.head j := rfl
@[simp] theorem State.setBlk_mac (s : State) (n : Nat) (x : Block) (j : Nat) : (s.setBlk n x).mac j = s.mac j := rfl
@[simp] theorem State.setBlk_can (s : State) (n : Nat) (x : Block) (j : Nat) : (s.setBlk n x).can j = s.can j := rfl
@[simp] theorem State.setBlk_dch (s : State) (n : Nat) (x : Block) (j : Nat) : (s.setBlk n x).dch j = s.dch j := rfl
@[simp] theorem State.setBlk_reg (s : State) (n : Nat) (x : Block) (j : Nat) : (s.setBlk n x).reg j = s.reg j := rfl

/-! `State.setShaft` writes the field `shafts` alone. -/
@[simp] theorem State.setShaft_pending (s : State) (n : Nat) (x : Shaft) : (s.setShaft n x).pending = s.pending := rfl
@[simp] theorem State.setShaft_part (s : State) (n : Nat) (x : Shaft) : (s.setShaft n x).part = s.part := rfl
@[simp] theorem State.setShaft_power (s : State) (n : Nat) (x : Shaft) : (s.setShaft n x).power = s.power := rfl
@[simp] theorem State.setShaft_bus (s : State) (n : Nat) (x : Shaft) : (s.setShaft n x).bus = s.bus := rfl
@[simp] theorem State.setShaft_regs (s : State) (n : Nat) (x : Shaft) : (s.setShaft n x).regs = s.regs := rfl
@[simp] theorem State.setShaft_out (s : State) (n : Nat) (x : Shaft) : (s.setShaft n x).out = s.out := rfl
@[simp] theorem State.setShaft_sram (s : State) (n : Nat) (x : Shaft) : (s.setShaft n x).sram = s.sram := rfl
@[simp] theorem State.setShaft_sramFlip (s : State) (n : Nat) (x : Shaft) : (s.setShaft n x).sramFlip = s.sramFlip := rfl
@[simp] theorem State.setShaft_leMem (s : State) (n : Nat) (x : Shaft) : (s.setShaft n x).leMem = s.leMem := rfl
@[simp] theorem State.setShaft_sessions (s : State) (n : Nat) (x : Shaft) : (s.setShaft n x).sessions = s.sessions := rfl
@[simp] theorem State.setShaft_journal (s : State) (n : Nat) (x : Shaft) : (s.setShaft n x).journal = s.journal := rfl
@[simp] theorem State.setShaft_porter (s : State) (n : Nat) (x : Shaft) : (s.setShaft n x).porter = s.porter := rfl
@[simp] theorem State.setShaft_staged (s : State) (n : Nat) (x : Shaft) : (s.setShaft n x).staged = s.staged := rfl
@[simp] theorem State.setShaft_params (s : State) (n : Nat) (x : Shaft) : (s.setShaft n x).params = s.params := rfl
@[simp] theorem State.setShaft_axes (s : State) (n : Nat) (x : Shaft) : (s.setShaft n x).axes = s.axes := rfl
@[simp] theorem State.setShaft_groups (s : State) (n : Nat) (x : Shaft) : (s.setShaft n x).groups = s.groups := rfl
@[simp] theorem State.setShaft_exchange (s : State) (n : Nat) (x : Shaft) : (s.setShaft n x).exchange = s.exchange := rfl
@[simp] theorem State.setShaft_exchNext (s : State) (n : Nat) (x : Shaft) : (s.setShaft n x).exchNext = s.exchNext := rfl
@[simp] theorem State.setShaft_exchAt (s : State) (n : Nat) (x : Shaft) : (s.setShaft n x).exchAt = s.exchAt := rfl
@[simp] theorem State.setShaft_exchAtNext (s : State) (n : Nat) (x : Shaft) : (s.setShaft n x).exchAtNext = s.exchAtNext := rfl
@[simp] theorem State.setShaft_active (s : State) (n : Nat) (x : Shaft) : (s.setShaft n x).active = s.active := rfl
@[simp] theorem State.setShaft_shadow (s : State) (n : Nat) (x : Shaft) : (s.setShaft n x).shadow = s.shadow := rfl
@[simp] theorem State.setShaft_engines (s : State) (n : Nat) (x : Shaft) : (s.setShaft n x).engines = s.engines := rfl
@[simp] theorem State.setShaft_blocks (s : State) (n : Nat) (x : Shaft) : (s.setShaft n x).blocks = s.blocks := rfl
@[simp] theorem State.setShaft_camHdr (s : State) (n : Nat) (x : Shaft) : (s.setShaft n x).camHdr = s.camHdr := rfl
@[simp] theorem State.setShaft_camPoints (s : State) (n : Nat) (x : Shaft) : (s.setShaft n x).camPoints = s.camPoints := rfl
@[simp] theorem State.setShaft_latches (s : State) (n : Nat) (x : Shaft) : (s.setShaft n x).latches = s.latches := rfl
@[simp] theorem State.setShaft_fbk (s : State) (n : Nat) (x : Shaft) : (s.setShaft n x).fbk = s.fbk := rfl
@[simp] theorem State.setShaft_mts (s : State) (n : Nat) (x : Shaft) : (s.setShaft n x).mts = s.mts := rfl
@[simp] theorem State.setShaft_adc (s : State) (n : Nat) (x : Shaft) : (s.setShaft n x).adc = s.adc := rfl
@[simp] theorem State.setShaft_emu (s : State) (n : Nat) (x : Shaft) : (s.setShaft n x).emu = s.emu := rfl
@[simp] theorem State.setShaft_pwm (s : State) (n : Nat) (x : Shaft) : (s.setShaft n x).pwm = s.pwm := rfl
@[simp] theorem State.setShaft_steps (s : State) (n : Nat) (x : Shaft) : (s.setShaft n x).steps = s.steps := rfl
@[simp] theorem State.setShaft_ports (s : State) (n : Nat) (x : Shaft) : (s.setShaft n x).ports = s.ports := rfl
@[simp] theorem State.setShaft_heads (s : State) (n : Nat) (x : Shaft) : (s.setShaft n x).heads = s.heads := rfl
@[simp] theorem State.setShaft_pair (s : State) (n : Nat) (x : Shaft) : (s.setShaft n x).pair = s.pair := rfl
@[simp] theorem State.setShaft_island (s : State) (n : Nat) (x : Shaft) : (s.setShaft n x).island = s.island := rfl
@[simp] theorem State.setShaft_die (s : State) (n : Nat) (x : Shaft) : (s.setShaft n x).die = s.die := rfl
@[simp] theorem State.setShaft_tmu (s : State) (n : Nat) (x : Shaft) : (s.setShaft n x).tmu = s.tmu := rfl
@[simp] theorem State.setShaft_macs (s : State) (n : Nat) (x : Shaft) : (s.setShaft n x).macs = s.macs := rfl
@[simp] theorem State.setShaft_cans (s : State) (n : Nat) (x : Shaft) : (s.setShaft n x).cans = s.cans := rfl
@[simp] theorem State.setShaft_dma (s : State) (n : Nat) (x : Shaft) : (s.setShaft n x).dma = s.dma := rfl
@[simp] theorem State.setShaft_acq (s : State) (n : Nat) (x : Shaft) : (s.setShaft n x).acq = s.acq := rfl
@[simp] theorem State.setShaft_inn (s : State) (n : Nat) (x : Shaft) : (s.setShaft n x).inn = s.inn := rfl
@[simp] theorem State.setShaft_droppedStops (s : State) (n : Nat) (x : Shaft) : (s.setShaft n x).droppedStops = s.droppedStops := rfl
@[simp] theorem State.setShaft_draws (s : State) (n : Nat) (x : Shaft) : (s.setShaft n x).draws = s.draws := rfl
@[simp] theorem State.setShaft_ses (s : State) (n : Nat) (x : Shaft) (j : Nat) : (s.setShaft n x).ses j = s.ses j := rfl
@[simp] theorem State.setShaft_jrn (s : State) (n : Nat) (x : Shaft) (j : Nat) : (s.setShaft n x).jrn j = s.jrn j := rfl
@[simp] theorem State.setShaft_axis (s : State) (n : Nat) (x : Shaft) (j : Nat) : (s.setShaft n x).axis j = s.axis j := rfl
@[simp] theorem State.setShaft_group (s : State) (n : Nat) (x : Shaft) (j : Nat) : (s.setShaft n x).group j = s.group j := rfl
@[simp] theorem State.setShaft_act (s : State) (n : Nat) (x : Shaft) (j : Nat) : (s.setShaft n x).act j = s.act j := rfl
@[simp] theorem State.setShaft_shad (s : State) (n : Nat) (x : Shaft) (j : Nat) : (s.setShaft n x).shad j = s.shad j := rfl
@[simp] theorem State.setShaft_eng (s : State) (n : Nat) (x : Shaft) (j : Nat) : (s.setShaft n x).eng j = s.eng j := rfl
@[simp] theorem State.setShaft_blk (s : State) (n : Nat) (x : Shaft) (j : Nat) : (s.setShaft n x).blk j = s.blk j := rfl
@[simp] theorem State.setShaft_latch (s : State) (n : Nat) (x : Shaft) (j : Nat) : (s.setShaft n x).latch j = s.latch j := rfl
@[simp] theorem State.setShaft_fb (s : State) (n : Nat) (x : Shaft) (j : Nat) : (s.setShaft n x).fb j = s.fb j := rfl
@[simp] theorem State.setShaft_ain (s : State) (n : Nat) (x : Shaft) (j : Nat) : (s.setShaft n x).ain j = s.ain j := rfl
@[simp] theorem State.setShaft_em (s : State) (n : Nat) (x : Shaft) (j : Nat) : (s.setShaft n x).em j = s.em j := rfl
@[simp] theorem State.setShaft_pw (s : State) (n : Nat) (x : Shaft) (j : Nat) : (s.setShaft n x).pw j = s.pw j := rfl
@[simp] theorem State.setShaft_stp (s : State) (n : Nat) (x : Shaft) (j : Nat) : (s.setShaft n x).stp j = s.stp j := rfl
@[simp] theorem State.setShaft_port (s : State) (n : Nat) (x : Shaft) (j : Nat) : (s.setShaft n x).port j = s.port j := rfl
@[simp] theorem State.setShaft_head (s : State) (n : Nat) (x : Shaft) (j : Nat) : (s.setShaft n x).head j = s.head j := rfl
@[simp] theorem State.setShaft_mac (s : State) (n : Nat) (x : Shaft) (j : Nat) : (s.setShaft n x).mac j = s.mac j := rfl
@[simp] theorem State.setShaft_can (s : State) (n : Nat) (x : Shaft) (j : Nat) : (s.setShaft n x).can j = s.can j := rfl
@[simp] theorem State.setShaft_dch (s : State) (n : Nat) (x : Shaft) (j : Nat) : (s.setShaft n x).dch j = s.dch j := rfl
@[simp] theorem State.setShaft_reg (s : State) (n : Nat) (x : Shaft) (j : Nat) : (s.setShaft n x).reg j = s.reg j := rfl

/-! `State.setLatch` writes the field `latches` alone. -/
@[simp] theorem State.setLatch_pending (s : State) (n : Nat) (x : Latch) : (s.setLatch n x).pending = s.pending := rfl
@[simp] theorem State.setLatch_part (s : State) (n : Nat) (x : Latch) : (s.setLatch n x).part = s.part := rfl
@[simp] theorem State.setLatch_power (s : State) (n : Nat) (x : Latch) : (s.setLatch n x).power = s.power := rfl
@[simp] theorem State.setLatch_bus (s : State) (n : Nat) (x : Latch) : (s.setLatch n x).bus = s.bus := rfl
@[simp] theorem State.setLatch_regs (s : State) (n : Nat) (x : Latch) : (s.setLatch n x).regs = s.regs := rfl
@[simp] theorem State.setLatch_out (s : State) (n : Nat) (x : Latch) : (s.setLatch n x).out = s.out := rfl
@[simp] theorem State.setLatch_sram (s : State) (n : Nat) (x : Latch) : (s.setLatch n x).sram = s.sram := rfl
@[simp] theorem State.setLatch_sramFlip (s : State) (n : Nat) (x : Latch) : (s.setLatch n x).sramFlip = s.sramFlip := rfl
@[simp] theorem State.setLatch_leMem (s : State) (n : Nat) (x : Latch) : (s.setLatch n x).leMem = s.leMem := rfl
@[simp] theorem State.setLatch_sessions (s : State) (n : Nat) (x : Latch) : (s.setLatch n x).sessions = s.sessions := rfl
@[simp] theorem State.setLatch_journal (s : State) (n : Nat) (x : Latch) : (s.setLatch n x).journal = s.journal := rfl
@[simp] theorem State.setLatch_porter (s : State) (n : Nat) (x : Latch) : (s.setLatch n x).porter = s.porter := rfl
@[simp] theorem State.setLatch_staged (s : State) (n : Nat) (x : Latch) : (s.setLatch n x).staged = s.staged := rfl
@[simp] theorem State.setLatch_params (s : State) (n : Nat) (x : Latch) : (s.setLatch n x).params = s.params := rfl
@[simp] theorem State.setLatch_axes (s : State) (n : Nat) (x : Latch) : (s.setLatch n x).axes = s.axes := rfl
@[simp] theorem State.setLatch_groups (s : State) (n : Nat) (x : Latch) : (s.setLatch n x).groups = s.groups := rfl
@[simp] theorem State.setLatch_exchange (s : State) (n : Nat) (x : Latch) : (s.setLatch n x).exchange = s.exchange := rfl
@[simp] theorem State.setLatch_exchNext (s : State) (n : Nat) (x : Latch) : (s.setLatch n x).exchNext = s.exchNext := rfl
@[simp] theorem State.setLatch_exchAt (s : State) (n : Nat) (x : Latch) : (s.setLatch n x).exchAt = s.exchAt := rfl
@[simp] theorem State.setLatch_exchAtNext (s : State) (n : Nat) (x : Latch) : (s.setLatch n x).exchAtNext = s.exchAtNext := rfl
@[simp] theorem State.setLatch_active (s : State) (n : Nat) (x : Latch) : (s.setLatch n x).active = s.active := rfl
@[simp] theorem State.setLatch_shadow (s : State) (n : Nat) (x : Latch) : (s.setLatch n x).shadow = s.shadow := rfl
@[simp] theorem State.setLatch_engines (s : State) (n : Nat) (x : Latch) : (s.setLatch n x).engines = s.engines := rfl
@[simp] theorem State.setLatch_blocks (s : State) (n : Nat) (x : Latch) : (s.setLatch n x).blocks = s.blocks := rfl
@[simp] theorem State.setLatch_camHdr (s : State) (n : Nat) (x : Latch) : (s.setLatch n x).camHdr = s.camHdr := rfl
@[simp] theorem State.setLatch_camPoints (s : State) (n : Nat) (x : Latch) : (s.setLatch n x).camPoints = s.camPoints := rfl
@[simp] theorem State.setLatch_shafts (s : State) (n : Nat) (x : Latch) : (s.setLatch n x).shafts = s.shafts := rfl
@[simp] theorem State.setLatch_fbk (s : State) (n : Nat) (x : Latch) : (s.setLatch n x).fbk = s.fbk := rfl
@[simp] theorem State.setLatch_mts (s : State) (n : Nat) (x : Latch) : (s.setLatch n x).mts = s.mts := rfl
@[simp] theorem State.setLatch_adc (s : State) (n : Nat) (x : Latch) : (s.setLatch n x).adc = s.adc := rfl
@[simp] theorem State.setLatch_emu (s : State) (n : Nat) (x : Latch) : (s.setLatch n x).emu = s.emu := rfl
@[simp] theorem State.setLatch_pwm (s : State) (n : Nat) (x : Latch) : (s.setLatch n x).pwm = s.pwm := rfl
@[simp] theorem State.setLatch_steps (s : State) (n : Nat) (x : Latch) : (s.setLatch n x).steps = s.steps := rfl
@[simp] theorem State.setLatch_ports (s : State) (n : Nat) (x : Latch) : (s.setLatch n x).ports = s.ports := rfl
@[simp] theorem State.setLatch_heads (s : State) (n : Nat) (x : Latch) : (s.setLatch n x).heads = s.heads := rfl
@[simp] theorem State.setLatch_pair (s : State) (n : Nat) (x : Latch) : (s.setLatch n x).pair = s.pair := rfl
@[simp] theorem State.setLatch_island (s : State) (n : Nat) (x : Latch) : (s.setLatch n x).island = s.island := rfl
@[simp] theorem State.setLatch_die (s : State) (n : Nat) (x : Latch) : (s.setLatch n x).die = s.die := rfl
@[simp] theorem State.setLatch_tmu (s : State) (n : Nat) (x : Latch) : (s.setLatch n x).tmu = s.tmu := rfl
@[simp] theorem State.setLatch_macs (s : State) (n : Nat) (x : Latch) : (s.setLatch n x).macs = s.macs := rfl
@[simp] theorem State.setLatch_cans (s : State) (n : Nat) (x : Latch) : (s.setLatch n x).cans = s.cans := rfl
@[simp] theorem State.setLatch_dma (s : State) (n : Nat) (x : Latch) : (s.setLatch n x).dma = s.dma := rfl
@[simp] theorem State.setLatch_acq (s : State) (n : Nat) (x : Latch) : (s.setLatch n x).acq = s.acq := rfl
@[simp] theorem State.setLatch_inn (s : State) (n : Nat) (x : Latch) : (s.setLatch n x).inn = s.inn := rfl
@[simp] theorem State.setLatch_droppedStops (s : State) (n : Nat) (x : Latch) : (s.setLatch n x).droppedStops = s.droppedStops := rfl
@[simp] theorem State.setLatch_draws (s : State) (n : Nat) (x : Latch) : (s.setLatch n x).draws = s.draws := rfl
@[simp] theorem State.setLatch_ses (s : State) (n : Nat) (x : Latch) (j : Nat) : (s.setLatch n x).ses j = s.ses j := rfl
@[simp] theorem State.setLatch_jrn (s : State) (n : Nat) (x : Latch) (j : Nat) : (s.setLatch n x).jrn j = s.jrn j := rfl
@[simp] theorem State.setLatch_axis (s : State) (n : Nat) (x : Latch) (j : Nat) : (s.setLatch n x).axis j = s.axis j := rfl
@[simp] theorem State.setLatch_group (s : State) (n : Nat) (x : Latch) (j : Nat) : (s.setLatch n x).group j = s.group j := rfl
@[simp] theorem State.setLatch_act (s : State) (n : Nat) (x : Latch) (j : Nat) : (s.setLatch n x).act j = s.act j := rfl
@[simp] theorem State.setLatch_shad (s : State) (n : Nat) (x : Latch) (j : Nat) : (s.setLatch n x).shad j = s.shad j := rfl
@[simp] theorem State.setLatch_eng (s : State) (n : Nat) (x : Latch) (j : Nat) : (s.setLatch n x).eng j = s.eng j := rfl
@[simp] theorem State.setLatch_blk (s : State) (n : Nat) (x : Latch) (j : Nat) : (s.setLatch n x).blk j = s.blk j := rfl
@[simp] theorem State.setLatch_shaft (s : State) (n : Nat) (x : Latch) (j : Nat) : (s.setLatch n x).shaft j = s.shaft j := rfl
@[simp] theorem State.setLatch_fb (s : State) (n : Nat) (x : Latch) (j : Nat) : (s.setLatch n x).fb j = s.fb j := rfl
@[simp] theorem State.setLatch_ain (s : State) (n : Nat) (x : Latch) (j : Nat) : (s.setLatch n x).ain j = s.ain j := rfl
@[simp] theorem State.setLatch_em (s : State) (n : Nat) (x : Latch) (j : Nat) : (s.setLatch n x).em j = s.em j := rfl
@[simp] theorem State.setLatch_pw (s : State) (n : Nat) (x : Latch) (j : Nat) : (s.setLatch n x).pw j = s.pw j := rfl
@[simp] theorem State.setLatch_stp (s : State) (n : Nat) (x : Latch) (j : Nat) : (s.setLatch n x).stp j = s.stp j := rfl
@[simp] theorem State.setLatch_port (s : State) (n : Nat) (x : Latch) (j : Nat) : (s.setLatch n x).port j = s.port j := rfl
@[simp] theorem State.setLatch_head (s : State) (n : Nat) (x : Latch) (j : Nat) : (s.setLatch n x).head j = s.head j := rfl
@[simp] theorem State.setLatch_mac (s : State) (n : Nat) (x : Latch) (j : Nat) : (s.setLatch n x).mac j = s.mac j := rfl
@[simp] theorem State.setLatch_can (s : State) (n : Nat) (x : Latch) (j : Nat) : (s.setLatch n x).can j = s.can j := rfl
@[simp] theorem State.setLatch_dch (s : State) (n : Nat) (x : Latch) (j : Nat) : (s.setLatch n x).dch j = s.dch j := rfl
@[simp] theorem State.setLatch_reg (s : State) (n : Nat) (x : Latch) (j : Nat) : (s.setLatch n x).reg j = s.reg j := rfl

/-! `State.setFb` writes the field `fbk` alone. -/
@[simp] theorem State.setFb_pending (s : State) (n : Nat) (x : FbkCh) : (s.setFb n x).pending = s.pending := rfl
@[simp] theorem State.setFb_part (s : State) (n : Nat) (x : FbkCh) : (s.setFb n x).part = s.part := rfl
@[simp] theorem State.setFb_power (s : State) (n : Nat) (x : FbkCh) : (s.setFb n x).power = s.power := rfl
@[simp] theorem State.setFb_bus (s : State) (n : Nat) (x : FbkCh) : (s.setFb n x).bus = s.bus := rfl
@[simp] theorem State.setFb_regs (s : State) (n : Nat) (x : FbkCh) : (s.setFb n x).regs = s.regs := rfl
@[simp] theorem State.setFb_out (s : State) (n : Nat) (x : FbkCh) : (s.setFb n x).out = s.out := rfl
@[simp] theorem State.setFb_sram (s : State) (n : Nat) (x : FbkCh) : (s.setFb n x).sram = s.sram := rfl
@[simp] theorem State.setFb_sramFlip (s : State) (n : Nat) (x : FbkCh) : (s.setFb n x).sramFlip = s.sramFlip := rfl
@[simp] theorem State.setFb_leMem (s : State) (n : Nat) (x : FbkCh) : (s.setFb n x).leMem = s.leMem := rfl
@[simp] theorem State.setFb_sessions (s : State) (n : Nat) (x : FbkCh) : (s.setFb n x).sessions = s.sessions := rfl
@[simp] theorem State.setFb_journal (s : State) (n : Nat) (x : FbkCh) : (s.setFb n x).journal = s.journal := rfl
@[simp] theorem State.setFb_porter (s : State) (n : Nat) (x : FbkCh) : (s.setFb n x).porter = s.porter := rfl
@[simp] theorem State.setFb_staged (s : State) (n : Nat) (x : FbkCh) : (s.setFb n x).staged = s.staged := rfl
@[simp] theorem State.setFb_params (s : State) (n : Nat) (x : FbkCh) : (s.setFb n x).params = s.params := rfl
@[simp] theorem State.setFb_axes (s : State) (n : Nat) (x : FbkCh) : (s.setFb n x).axes = s.axes := rfl
@[simp] theorem State.setFb_groups (s : State) (n : Nat) (x : FbkCh) : (s.setFb n x).groups = s.groups := rfl
@[simp] theorem State.setFb_exchange (s : State) (n : Nat) (x : FbkCh) : (s.setFb n x).exchange = s.exchange := rfl
@[simp] theorem State.setFb_exchNext (s : State) (n : Nat) (x : FbkCh) : (s.setFb n x).exchNext = s.exchNext := rfl
@[simp] theorem State.setFb_exchAt (s : State) (n : Nat) (x : FbkCh) : (s.setFb n x).exchAt = s.exchAt := rfl
@[simp] theorem State.setFb_exchAtNext (s : State) (n : Nat) (x : FbkCh) : (s.setFb n x).exchAtNext = s.exchAtNext := rfl
@[simp] theorem State.setFb_active (s : State) (n : Nat) (x : FbkCh) : (s.setFb n x).active = s.active := rfl
@[simp] theorem State.setFb_shadow (s : State) (n : Nat) (x : FbkCh) : (s.setFb n x).shadow = s.shadow := rfl
@[simp] theorem State.setFb_engines (s : State) (n : Nat) (x : FbkCh) : (s.setFb n x).engines = s.engines := rfl
@[simp] theorem State.setFb_blocks (s : State) (n : Nat) (x : FbkCh) : (s.setFb n x).blocks = s.blocks := rfl
@[simp] theorem State.setFb_camHdr (s : State) (n : Nat) (x : FbkCh) : (s.setFb n x).camHdr = s.camHdr := rfl
@[simp] theorem State.setFb_camPoints (s : State) (n : Nat) (x : FbkCh) : (s.setFb n x).camPoints = s.camPoints := rfl
@[simp] theorem State.setFb_shafts (s : State) (n : Nat) (x : FbkCh) : (s.setFb n x).shafts = s.shafts := rfl
@[simp] theorem State.setFb_latches (s : State) (n : Nat) (x : FbkCh) : (s.setFb n x).latches = s.latches := rfl
@[simp] theorem State.setFb_mts (s : State) (n : Nat) (x : FbkCh) : (s.setFb n x).mts = s.mts := rfl
@[simp] theorem State.setFb_adc (s : State) (n : Nat) (x : FbkCh) : (s.setFb n x).adc = s.adc := rfl
@[simp] theorem State.setFb_emu (s : State) (n : Nat) (x : FbkCh) : (s.setFb n x).emu = s.emu := rfl
@[simp] theorem State.setFb_pwm (s : State) (n : Nat) (x : FbkCh) : (s.setFb n x).pwm = s.pwm := rfl
@[simp] theorem State.setFb_steps (s : State) (n : Nat) (x : FbkCh) : (s.setFb n x).steps = s.steps := rfl
@[simp] theorem State.setFb_ports (s : State) (n : Nat) (x : FbkCh) : (s.setFb n x).ports = s.ports := rfl
@[simp] theorem State.setFb_heads (s : State) (n : Nat) (x : FbkCh) : (s.setFb n x).heads = s.heads := rfl
@[simp] theorem State.setFb_pair (s : State) (n : Nat) (x : FbkCh) : (s.setFb n x).pair = s.pair := rfl
@[simp] theorem State.setFb_island (s : State) (n : Nat) (x : FbkCh) : (s.setFb n x).island = s.island := rfl
@[simp] theorem State.setFb_die (s : State) (n : Nat) (x : FbkCh) : (s.setFb n x).die = s.die := rfl
@[simp] theorem State.setFb_tmu (s : State) (n : Nat) (x : FbkCh) : (s.setFb n x).tmu = s.tmu := rfl
@[simp] theorem State.setFb_macs (s : State) (n : Nat) (x : FbkCh) : (s.setFb n x).macs = s.macs := rfl
@[simp] theorem State.setFb_cans (s : State) (n : Nat) (x : FbkCh) : (s.setFb n x).cans = s.cans := rfl
@[simp] theorem State.setFb_dma (s : State) (n : Nat) (x : FbkCh) : (s.setFb n x).dma = s.dma := rfl
@[simp] theorem State.setFb_acq (s : State) (n : Nat) (x : FbkCh) : (s.setFb n x).acq = s.acq := rfl
@[simp] theorem State.setFb_inn (s : State) (n : Nat) (x : FbkCh) : (s.setFb n x).inn = s.inn := rfl
@[simp] theorem State.setFb_droppedStops (s : State) (n : Nat) (x : FbkCh) : (s.setFb n x).droppedStops = s.droppedStops := rfl
@[simp] theorem State.setFb_draws (s : State) (n : Nat) (x : FbkCh) : (s.setFb n x).draws = s.draws := rfl
@[simp] theorem State.setFb_ses (s : State) (n : Nat) (x : FbkCh) (j : Nat) : (s.setFb n x).ses j = s.ses j := rfl
@[simp] theorem State.setFb_jrn (s : State) (n : Nat) (x : FbkCh) (j : Nat) : (s.setFb n x).jrn j = s.jrn j := rfl
@[simp] theorem State.setFb_axis (s : State) (n : Nat) (x : FbkCh) (j : Nat) : (s.setFb n x).axis j = s.axis j := rfl
@[simp] theorem State.setFb_group (s : State) (n : Nat) (x : FbkCh) (j : Nat) : (s.setFb n x).group j = s.group j := rfl
@[simp] theorem State.setFb_act (s : State) (n : Nat) (x : FbkCh) (j : Nat) : (s.setFb n x).act j = s.act j := rfl
@[simp] theorem State.setFb_shad (s : State) (n : Nat) (x : FbkCh) (j : Nat) : (s.setFb n x).shad j = s.shad j := rfl
@[simp] theorem State.setFb_eng (s : State) (n : Nat) (x : FbkCh) (j : Nat) : (s.setFb n x).eng j = s.eng j := rfl
@[simp] theorem State.setFb_blk (s : State) (n : Nat) (x : FbkCh) (j : Nat) : (s.setFb n x).blk j = s.blk j := rfl
@[simp] theorem State.setFb_shaft (s : State) (n : Nat) (x : FbkCh) (j : Nat) : (s.setFb n x).shaft j = s.shaft j := rfl
@[simp] theorem State.setFb_latch (s : State) (n : Nat) (x : FbkCh) (j : Nat) : (s.setFb n x).latch j = s.latch j := rfl
@[simp] theorem State.setFb_ain (s : State) (n : Nat) (x : FbkCh) (j : Nat) : (s.setFb n x).ain j = s.ain j := rfl
@[simp] theorem State.setFb_em (s : State) (n : Nat) (x : FbkCh) (j : Nat) : (s.setFb n x).em j = s.em j := rfl
@[simp] theorem State.setFb_pw (s : State) (n : Nat) (x : FbkCh) (j : Nat) : (s.setFb n x).pw j = s.pw j := rfl
@[simp] theorem State.setFb_stp (s : State) (n : Nat) (x : FbkCh) (j : Nat) : (s.setFb n x).stp j = s.stp j := rfl
@[simp] theorem State.setFb_port (s : State) (n : Nat) (x : FbkCh) (j : Nat) : (s.setFb n x).port j = s.port j := rfl
@[simp] theorem State.setFb_head (s : State) (n : Nat) (x : FbkCh) (j : Nat) : (s.setFb n x).head j = s.head j := rfl
@[simp] theorem State.setFb_mac (s : State) (n : Nat) (x : FbkCh) (j : Nat) : (s.setFb n x).mac j = s.mac j := rfl
@[simp] theorem State.setFb_can (s : State) (n : Nat) (x : FbkCh) (j : Nat) : (s.setFb n x).can j = s.can j := rfl
@[simp] theorem State.setFb_dch (s : State) (n : Nat) (x : FbkCh) (j : Nat) : (s.setFb n x).dch j = s.dch j := rfl
@[simp] theorem State.setFb_reg (s : State) (n : Nat) (x : FbkCh) (j : Nat) : (s.setFb n x).reg j = s.reg j := rfl

/-! `State.setAin` writes the field `adc` alone. -/
@[simp] theorem State.setAin_pending (s : State) (n : Nat) (x : AdcIn) : (s.setAin n x).pending = s.pending := rfl
@[simp] theorem State.setAin_part (s : State) (n : Nat) (x : AdcIn) : (s.setAin n x).part = s.part := rfl
@[simp] theorem State.setAin_power (s : State) (n : Nat) (x : AdcIn) : (s.setAin n x).power = s.power := rfl
@[simp] theorem State.setAin_bus (s : State) (n : Nat) (x : AdcIn) : (s.setAin n x).bus = s.bus := rfl
@[simp] theorem State.setAin_regs (s : State) (n : Nat) (x : AdcIn) : (s.setAin n x).regs = s.regs := rfl
@[simp] theorem State.setAin_out (s : State) (n : Nat) (x : AdcIn) : (s.setAin n x).out = s.out := rfl
@[simp] theorem State.setAin_sram (s : State) (n : Nat) (x : AdcIn) : (s.setAin n x).sram = s.sram := rfl
@[simp] theorem State.setAin_sramFlip (s : State) (n : Nat) (x : AdcIn) : (s.setAin n x).sramFlip = s.sramFlip := rfl
@[simp] theorem State.setAin_leMem (s : State) (n : Nat) (x : AdcIn) : (s.setAin n x).leMem = s.leMem := rfl
@[simp] theorem State.setAin_sessions (s : State) (n : Nat) (x : AdcIn) : (s.setAin n x).sessions = s.sessions := rfl
@[simp] theorem State.setAin_journal (s : State) (n : Nat) (x : AdcIn) : (s.setAin n x).journal = s.journal := rfl
@[simp] theorem State.setAin_porter (s : State) (n : Nat) (x : AdcIn) : (s.setAin n x).porter = s.porter := rfl
@[simp] theorem State.setAin_staged (s : State) (n : Nat) (x : AdcIn) : (s.setAin n x).staged = s.staged := rfl
@[simp] theorem State.setAin_params (s : State) (n : Nat) (x : AdcIn) : (s.setAin n x).params = s.params := rfl
@[simp] theorem State.setAin_axes (s : State) (n : Nat) (x : AdcIn) : (s.setAin n x).axes = s.axes := rfl
@[simp] theorem State.setAin_groups (s : State) (n : Nat) (x : AdcIn) : (s.setAin n x).groups = s.groups := rfl
@[simp] theorem State.setAin_exchange (s : State) (n : Nat) (x : AdcIn) : (s.setAin n x).exchange = s.exchange := rfl
@[simp] theorem State.setAin_exchNext (s : State) (n : Nat) (x : AdcIn) : (s.setAin n x).exchNext = s.exchNext := rfl
@[simp] theorem State.setAin_exchAt (s : State) (n : Nat) (x : AdcIn) : (s.setAin n x).exchAt = s.exchAt := rfl
@[simp] theorem State.setAin_exchAtNext (s : State) (n : Nat) (x : AdcIn) : (s.setAin n x).exchAtNext = s.exchAtNext := rfl
@[simp] theorem State.setAin_active (s : State) (n : Nat) (x : AdcIn) : (s.setAin n x).active = s.active := rfl
@[simp] theorem State.setAin_shadow (s : State) (n : Nat) (x : AdcIn) : (s.setAin n x).shadow = s.shadow := rfl
@[simp] theorem State.setAin_engines (s : State) (n : Nat) (x : AdcIn) : (s.setAin n x).engines = s.engines := rfl
@[simp] theorem State.setAin_blocks (s : State) (n : Nat) (x : AdcIn) : (s.setAin n x).blocks = s.blocks := rfl
@[simp] theorem State.setAin_camHdr (s : State) (n : Nat) (x : AdcIn) : (s.setAin n x).camHdr = s.camHdr := rfl
@[simp] theorem State.setAin_camPoints (s : State) (n : Nat) (x : AdcIn) : (s.setAin n x).camPoints = s.camPoints := rfl
@[simp] theorem State.setAin_shafts (s : State) (n : Nat) (x : AdcIn) : (s.setAin n x).shafts = s.shafts := rfl
@[simp] theorem State.setAin_latches (s : State) (n : Nat) (x : AdcIn) : (s.setAin n x).latches = s.latches := rfl
@[simp] theorem State.setAin_fbk (s : State) (n : Nat) (x : AdcIn) : (s.setAin n x).fbk = s.fbk := rfl
@[simp] theorem State.setAin_mts (s : State) (n : Nat) (x : AdcIn) : (s.setAin n x).mts = s.mts := rfl
@[simp] theorem State.setAin_emu (s : State) (n : Nat) (x : AdcIn) : (s.setAin n x).emu = s.emu := rfl
@[simp] theorem State.setAin_pwm (s : State) (n : Nat) (x : AdcIn) : (s.setAin n x).pwm = s.pwm := rfl
@[simp] theorem State.setAin_steps (s : State) (n : Nat) (x : AdcIn) : (s.setAin n x).steps = s.steps := rfl
@[simp] theorem State.setAin_ports (s : State) (n : Nat) (x : AdcIn) : (s.setAin n x).ports = s.ports := rfl
@[simp] theorem State.setAin_heads (s : State) (n : Nat) (x : AdcIn) : (s.setAin n x).heads = s.heads := rfl
@[simp] theorem State.setAin_pair (s : State) (n : Nat) (x : AdcIn) : (s.setAin n x).pair = s.pair := rfl
@[simp] theorem State.setAin_island (s : State) (n : Nat) (x : AdcIn) : (s.setAin n x).island = s.island := rfl
@[simp] theorem State.setAin_die (s : State) (n : Nat) (x : AdcIn) : (s.setAin n x).die = s.die := rfl
@[simp] theorem State.setAin_tmu (s : State) (n : Nat) (x : AdcIn) : (s.setAin n x).tmu = s.tmu := rfl
@[simp] theorem State.setAin_macs (s : State) (n : Nat) (x : AdcIn) : (s.setAin n x).macs = s.macs := rfl
@[simp] theorem State.setAin_cans (s : State) (n : Nat) (x : AdcIn) : (s.setAin n x).cans = s.cans := rfl
@[simp] theorem State.setAin_dma (s : State) (n : Nat) (x : AdcIn) : (s.setAin n x).dma = s.dma := rfl
@[simp] theorem State.setAin_acq (s : State) (n : Nat) (x : AdcIn) : (s.setAin n x).acq = s.acq := rfl
@[simp] theorem State.setAin_inn (s : State) (n : Nat) (x : AdcIn) : (s.setAin n x).inn = s.inn := rfl
@[simp] theorem State.setAin_droppedStops (s : State) (n : Nat) (x : AdcIn) : (s.setAin n x).droppedStops = s.droppedStops := rfl
@[simp] theorem State.setAin_draws (s : State) (n : Nat) (x : AdcIn) : (s.setAin n x).draws = s.draws := rfl
@[simp] theorem State.setAin_ses (s : State) (n : Nat) (x : AdcIn) (j : Nat) : (s.setAin n x).ses j = s.ses j := rfl
@[simp] theorem State.setAin_jrn (s : State) (n : Nat) (x : AdcIn) (j : Nat) : (s.setAin n x).jrn j = s.jrn j := rfl
@[simp] theorem State.setAin_axis (s : State) (n : Nat) (x : AdcIn) (j : Nat) : (s.setAin n x).axis j = s.axis j := rfl
@[simp] theorem State.setAin_group (s : State) (n : Nat) (x : AdcIn) (j : Nat) : (s.setAin n x).group j = s.group j := rfl
@[simp] theorem State.setAin_act (s : State) (n : Nat) (x : AdcIn) (j : Nat) : (s.setAin n x).act j = s.act j := rfl
@[simp] theorem State.setAin_shad (s : State) (n : Nat) (x : AdcIn) (j : Nat) : (s.setAin n x).shad j = s.shad j := rfl
@[simp] theorem State.setAin_eng (s : State) (n : Nat) (x : AdcIn) (j : Nat) : (s.setAin n x).eng j = s.eng j := rfl
@[simp] theorem State.setAin_blk (s : State) (n : Nat) (x : AdcIn) (j : Nat) : (s.setAin n x).blk j = s.blk j := rfl
@[simp] theorem State.setAin_shaft (s : State) (n : Nat) (x : AdcIn) (j : Nat) : (s.setAin n x).shaft j = s.shaft j := rfl
@[simp] theorem State.setAin_latch (s : State) (n : Nat) (x : AdcIn) (j : Nat) : (s.setAin n x).latch j = s.latch j := rfl
@[simp] theorem State.setAin_fb (s : State) (n : Nat) (x : AdcIn) (j : Nat) : (s.setAin n x).fb j = s.fb j := rfl
@[simp] theorem State.setAin_em (s : State) (n : Nat) (x : AdcIn) (j : Nat) : (s.setAin n x).em j = s.em j := rfl
@[simp] theorem State.setAin_pw (s : State) (n : Nat) (x : AdcIn) (j : Nat) : (s.setAin n x).pw j = s.pw j := rfl
@[simp] theorem State.setAin_stp (s : State) (n : Nat) (x : AdcIn) (j : Nat) : (s.setAin n x).stp j = s.stp j := rfl
@[simp] theorem State.setAin_port (s : State) (n : Nat) (x : AdcIn) (j : Nat) : (s.setAin n x).port j = s.port j := rfl
@[simp] theorem State.setAin_head (s : State) (n : Nat) (x : AdcIn) (j : Nat) : (s.setAin n x).head j = s.head j := rfl
@[simp] theorem State.setAin_mac (s : State) (n : Nat) (x : AdcIn) (j : Nat) : (s.setAin n x).mac j = s.mac j := rfl
@[simp] theorem State.setAin_can (s : State) (n : Nat) (x : AdcIn) (j : Nat) : (s.setAin n x).can j = s.can j := rfl
@[simp] theorem State.setAin_dch (s : State) (n : Nat) (x : AdcIn) (j : Nat) : (s.setAin n x).dch j = s.dch j := rfl
@[simp] theorem State.setAin_reg (s : State) (n : Nat) (x : AdcIn) (j : Nat) : (s.setAin n x).reg j = s.reg j := rfl

/-! `State.setEm` writes the field `emu` alone. -/
@[simp] theorem State.setEm_pending (s : State) (n : Nat) (x : Emu) : (s.setEm n x).pending = s.pending := rfl
@[simp] theorem State.setEm_part (s : State) (n : Nat) (x : Emu) : (s.setEm n x).part = s.part := rfl
@[simp] theorem State.setEm_power (s : State) (n : Nat) (x : Emu) : (s.setEm n x).power = s.power := rfl
@[simp] theorem State.setEm_bus (s : State) (n : Nat) (x : Emu) : (s.setEm n x).bus = s.bus := rfl
@[simp] theorem State.setEm_regs (s : State) (n : Nat) (x : Emu) : (s.setEm n x).regs = s.regs := rfl
@[simp] theorem State.setEm_out (s : State) (n : Nat) (x : Emu) : (s.setEm n x).out = s.out := rfl
@[simp] theorem State.setEm_sram (s : State) (n : Nat) (x : Emu) : (s.setEm n x).sram = s.sram := rfl
@[simp] theorem State.setEm_sramFlip (s : State) (n : Nat) (x : Emu) : (s.setEm n x).sramFlip = s.sramFlip := rfl
@[simp] theorem State.setEm_leMem (s : State) (n : Nat) (x : Emu) : (s.setEm n x).leMem = s.leMem := rfl
@[simp] theorem State.setEm_sessions (s : State) (n : Nat) (x : Emu) : (s.setEm n x).sessions = s.sessions := rfl
@[simp] theorem State.setEm_journal (s : State) (n : Nat) (x : Emu) : (s.setEm n x).journal = s.journal := rfl
@[simp] theorem State.setEm_porter (s : State) (n : Nat) (x : Emu) : (s.setEm n x).porter = s.porter := rfl
@[simp] theorem State.setEm_staged (s : State) (n : Nat) (x : Emu) : (s.setEm n x).staged = s.staged := rfl
@[simp] theorem State.setEm_params (s : State) (n : Nat) (x : Emu) : (s.setEm n x).params = s.params := rfl
@[simp] theorem State.setEm_axes (s : State) (n : Nat) (x : Emu) : (s.setEm n x).axes = s.axes := rfl
@[simp] theorem State.setEm_groups (s : State) (n : Nat) (x : Emu) : (s.setEm n x).groups = s.groups := rfl
@[simp] theorem State.setEm_exchange (s : State) (n : Nat) (x : Emu) : (s.setEm n x).exchange = s.exchange := rfl
@[simp] theorem State.setEm_exchNext (s : State) (n : Nat) (x : Emu) : (s.setEm n x).exchNext = s.exchNext := rfl
@[simp] theorem State.setEm_exchAt (s : State) (n : Nat) (x : Emu) : (s.setEm n x).exchAt = s.exchAt := rfl
@[simp] theorem State.setEm_exchAtNext (s : State) (n : Nat) (x : Emu) : (s.setEm n x).exchAtNext = s.exchAtNext := rfl
@[simp] theorem State.setEm_active (s : State) (n : Nat) (x : Emu) : (s.setEm n x).active = s.active := rfl
@[simp] theorem State.setEm_shadow (s : State) (n : Nat) (x : Emu) : (s.setEm n x).shadow = s.shadow := rfl
@[simp] theorem State.setEm_engines (s : State) (n : Nat) (x : Emu) : (s.setEm n x).engines = s.engines := rfl
@[simp] theorem State.setEm_blocks (s : State) (n : Nat) (x : Emu) : (s.setEm n x).blocks = s.blocks := rfl
@[simp] theorem State.setEm_camHdr (s : State) (n : Nat) (x : Emu) : (s.setEm n x).camHdr = s.camHdr := rfl
@[simp] theorem State.setEm_camPoints (s : State) (n : Nat) (x : Emu) : (s.setEm n x).camPoints = s.camPoints := rfl
@[simp] theorem State.setEm_shafts (s : State) (n : Nat) (x : Emu) : (s.setEm n x).shafts = s.shafts := rfl
@[simp] theorem State.setEm_latches (s : State) (n : Nat) (x : Emu) : (s.setEm n x).latches = s.latches := rfl
@[simp] theorem State.setEm_fbk (s : State) (n : Nat) (x : Emu) : (s.setEm n x).fbk = s.fbk := rfl
@[simp] theorem State.setEm_mts (s : State) (n : Nat) (x : Emu) : (s.setEm n x).mts = s.mts := rfl
@[simp] theorem State.setEm_adc (s : State) (n : Nat) (x : Emu) : (s.setEm n x).adc = s.adc := rfl
@[simp] theorem State.setEm_pwm (s : State) (n : Nat) (x : Emu) : (s.setEm n x).pwm = s.pwm := rfl
@[simp] theorem State.setEm_steps (s : State) (n : Nat) (x : Emu) : (s.setEm n x).steps = s.steps := rfl
@[simp] theorem State.setEm_ports (s : State) (n : Nat) (x : Emu) : (s.setEm n x).ports = s.ports := rfl
@[simp] theorem State.setEm_heads (s : State) (n : Nat) (x : Emu) : (s.setEm n x).heads = s.heads := rfl
@[simp] theorem State.setEm_pair (s : State) (n : Nat) (x : Emu) : (s.setEm n x).pair = s.pair := rfl
@[simp] theorem State.setEm_island (s : State) (n : Nat) (x : Emu) : (s.setEm n x).island = s.island := rfl
@[simp] theorem State.setEm_die (s : State) (n : Nat) (x : Emu) : (s.setEm n x).die = s.die := rfl
@[simp] theorem State.setEm_tmu (s : State) (n : Nat) (x : Emu) : (s.setEm n x).tmu = s.tmu := rfl
@[simp] theorem State.setEm_macs (s : State) (n : Nat) (x : Emu) : (s.setEm n x).macs = s.macs := rfl
@[simp] theorem State.setEm_cans (s : State) (n : Nat) (x : Emu) : (s.setEm n x).cans = s.cans := rfl
@[simp] theorem State.setEm_dma (s : State) (n : Nat) (x : Emu) : (s.setEm n x).dma = s.dma := rfl
@[simp] theorem State.setEm_acq (s : State) (n : Nat) (x : Emu) : (s.setEm n x).acq = s.acq := rfl
@[simp] theorem State.setEm_inn (s : State) (n : Nat) (x : Emu) : (s.setEm n x).inn = s.inn := rfl
@[simp] theorem State.setEm_droppedStops (s : State) (n : Nat) (x : Emu) : (s.setEm n x).droppedStops = s.droppedStops := rfl
@[simp] theorem State.setEm_draws (s : State) (n : Nat) (x : Emu) : (s.setEm n x).draws = s.draws := rfl
@[simp] theorem State.setEm_ses (s : State) (n : Nat) (x : Emu) (j : Nat) : (s.setEm n x).ses j = s.ses j := rfl
@[simp] theorem State.setEm_jrn (s : State) (n : Nat) (x : Emu) (j : Nat) : (s.setEm n x).jrn j = s.jrn j := rfl
@[simp] theorem State.setEm_axis (s : State) (n : Nat) (x : Emu) (j : Nat) : (s.setEm n x).axis j = s.axis j := rfl
@[simp] theorem State.setEm_group (s : State) (n : Nat) (x : Emu) (j : Nat) : (s.setEm n x).group j = s.group j := rfl
@[simp] theorem State.setEm_act (s : State) (n : Nat) (x : Emu) (j : Nat) : (s.setEm n x).act j = s.act j := rfl
@[simp] theorem State.setEm_shad (s : State) (n : Nat) (x : Emu) (j : Nat) : (s.setEm n x).shad j = s.shad j := rfl
@[simp] theorem State.setEm_eng (s : State) (n : Nat) (x : Emu) (j : Nat) : (s.setEm n x).eng j = s.eng j := rfl
@[simp] theorem State.setEm_blk (s : State) (n : Nat) (x : Emu) (j : Nat) : (s.setEm n x).blk j = s.blk j := rfl
@[simp] theorem State.setEm_shaft (s : State) (n : Nat) (x : Emu) (j : Nat) : (s.setEm n x).shaft j = s.shaft j := rfl
@[simp] theorem State.setEm_latch (s : State) (n : Nat) (x : Emu) (j : Nat) : (s.setEm n x).latch j = s.latch j := rfl
@[simp] theorem State.setEm_fb (s : State) (n : Nat) (x : Emu) (j : Nat) : (s.setEm n x).fb j = s.fb j := rfl
@[simp] theorem State.setEm_ain (s : State) (n : Nat) (x : Emu) (j : Nat) : (s.setEm n x).ain j = s.ain j := rfl
@[simp] theorem State.setEm_pw (s : State) (n : Nat) (x : Emu) (j : Nat) : (s.setEm n x).pw j = s.pw j := rfl
@[simp] theorem State.setEm_stp (s : State) (n : Nat) (x : Emu) (j : Nat) : (s.setEm n x).stp j = s.stp j := rfl
@[simp] theorem State.setEm_port (s : State) (n : Nat) (x : Emu) (j : Nat) : (s.setEm n x).port j = s.port j := rfl
@[simp] theorem State.setEm_head (s : State) (n : Nat) (x : Emu) (j : Nat) : (s.setEm n x).head j = s.head j := rfl
@[simp] theorem State.setEm_mac (s : State) (n : Nat) (x : Emu) (j : Nat) : (s.setEm n x).mac j = s.mac j := rfl
@[simp] theorem State.setEm_can (s : State) (n : Nat) (x : Emu) (j : Nat) : (s.setEm n x).can j = s.can j := rfl
@[simp] theorem State.setEm_dch (s : State) (n : Nat) (x : Emu) (j : Nat) : (s.setEm n x).dch j = s.dch j := rfl
@[simp] theorem State.setEm_reg (s : State) (n : Nat) (x : Emu) (j : Nat) : (s.setEm n x).reg j = s.reg j := rfl

/-! `State.setPw` writes the field `pwm` alone. -/
@[simp] theorem State.setPw_pending (s : State) (n : Nat) (x : Pwm) : (s.setPw n x).pending = s.pending := rfl
@[simp] theorem State.setPw_part (s : State) (n : Nat) (x : Pwm) : (s.setPw n x).part = s.part := rfl
@[simp] theorem State.setPw_power (s : State) (n : Nat) (x : Pwm) : (s.setPw n x).power = s.power := rfl
@[simp] theorem State.setPw_bus (s : State) (n : Nat) (x : Pwm) : (s.setPw n x).bus = s.bus := rfl
@[simp] theorem State.setPw_regs (s : State) (n : Nat) (x : Pwm) : (s.setPw n x).regs = s.regs := rfl
@[simp] theorem State.setPw_out (s : State) (n : Nat) (x : Pwm) : (s.setPw n x).out = s.out := rfl
@[simp] theorem State.setPw_sram (s : State) (n : Nat) (x : Pwm) : (s.setPw n x).sram = s.sram := rfl
@[simp] theorem State.setPw_sramFlip (s : State) (n : Nat) (x : Pwm) : (s.setPw n x).sramFlip = s.sramFlip := rfl
@[simp] theorem State.setPw_leMem (s : State) (n : Nat) (x : Pwm) : (s.setPw n x).leMem = s.leMem := rfl
@[simp] theorem State.setPw_sessions (s : State) (n : Nat) (x : Pwm) : (s.setPw n x).sessions = s.sessions := rfl
@[simp] theorem State.setPw_journal (s : State) (n : Nat) (x : Pwm) : (s.setPw n x).journal = s.journal := rfl
@[simp] theorem State.setPw_porter (s : State) (n : Nat) (x : Pwm) : (s.setPw n x).porter = s.porter := rfl
@[simp] theorem State.setPw_staged (s : State) (n : Nat) (x : Pwm) : (s.setPw n x).staged = s.staged := rfl
@[simp] theorem State.setPw_params (s : State) (n : Nat) (x : Pwm) : (s.setPw n x).params = s.params := rfl
@[simp] theorem State.setPw_axes (s : State) (n : Nat) (x : Pwm) : (s.setPw n x).axes = s.axes := rfl
@[simp] theorem State.setPw_groups (s : State) (n : Nat) (x : Pwm) : (s.setPw n x).groups = s.groups := rfl
@[simp] theorem State.setPw_exchange (s : State) (n : Nat) (x : Pwm) : (s.setPw n x).exchange = s.exchange := rfl
@[simp] theorem State.setPw_exchNext (s : State) (n : Nat) (x : Pwm) : (s.setPw n x).exchNext = s.exchNext := rfl
@[simp] theorem State.setPw_exchAt (s : State) (n : Nat) (x : Pwm) : (s.setPw n x).exchAt = s.exchAt := rfl
@[simp] theorem State.setPw_exchAtNext (s : State) (n : Nat) (x : Pwm) : (s.setPw n x).exchAtNext = s.exchAtNext := rfl
@[simp] theorem State.setPw_active (s : State) (n : Nat) (x : Pwm) : (s.setPw n x).active = s.active := rfl
@[simp] theorem State.setPw_shadow (s : State) (n : Nat) (x : Pwm) : (s.setPw n x).shadow = s.shadow := rfl
@[simp] theorem State.setPw_engines (s : State) (n : Nat) (x : Pwm) : (s.setPw n x).engines = s.engines := rfl
@[simp] theorem State.setPw_blocks (s : State) (n : Nat) (x : Pwm) : (s.setPw n x).blocks = s.blocks := rfl
@[simp] theorem State.setPw_camHdr (s : State) (n : Nat) (x : Pwm) : (s.setPw n x).camHdr = s.camHdr := rfl
@[simp] theorem State.setPw_camPoints (s : State) (n : Nat) (x : Pwm) : (s.setPw n x).camPoints = s.camPoints := rfl
@[simp] theorem State.setPw_shafts (s : State) (n : Nat) (x : Pwm) : (s.setPw n x).shafts = s.shafts := rfl
@[simp] theorem State.setPw_latches (s : State) (n : Nat) (x : Pwm) : (s.setPw n x).latches = s.latches := rfl
@[simp] theorem State.setPw_fbk (s : State) (n : Nat) (x : Pwm) : (s.setPw n x).fbk = s.fbk := rfl
@[simp] theorem State.setPw_mts (s : State) (n : Nat) (x : Pwm) : (s.setPw n x).mts = s.mts := rfl
@[simp] theorem State.setPw_adc (s : State) (n : Nat) (x : Pwm) : (s.setPw n x).adc = s.adc := rfl
@[simp] theorem State.setPw_emu (s : State) (n : Nat) (x : Pwm) : (s.setPw n x).emu = s.emu := rfl
@[simp] theorem State.setPw_steps (s : State) (n : Nat) (x : Pwm) : (s.setPw n x).steps = s.steps := rfl
@[simp] theorem State.setPw_ports (s : State) (n : Nat) (x : Pwm) : (s.setPw n x).ports = s.ports := rfl
@[simp] theorem State.setPw_heads (s : State) (n : Nat) (x : Pwm) : (s.setPw n x).heads = s.heads := rfl
@[simp] theorem State.setPw_pair (s : State) (n : Nat) (x : Pwm) : (s.setPw n x).pair = s.pair := rfl
@[simp] theorem State.setPw_island (s : State) (n : Nat) (x : Pwm) : (s.setPw n x).island = s.island := rfl
@[simp] theorem State.setPw_die (s : State) (n : Nat) (x : Pwm) : (s.setPw n x).die = s.die := rfl
@[simp] theorem State.setPw_tmu (s : State) (n : Nat) (x : Pwm) : (s.setPw n x).tmu = s.tmu := rfl
@[simp] theorem State.setPw_macs (s : State) (n : Nat) (x : Pwm) : (s.setPw n x).macs = s.macs := rfl
@[simp] theorem State.setPw_cans (s : State) (n : Nat) (x : Pwm) : (s.setPw n x).cans = s.cans := rfl
@[simp] theorem State.setPw_dma (s : State) (n : Nat) (x : Pwm) : (s.setPw n x).dma = s.dma := rfl
@[simp] theorem State.setPw_acq (s : State) (n : Nat) (x : Pwm) : (s.setPw n x).acq = s.acq := rfl
@[simp] theorem State.setPw_inn (s : State) (n : Nat) (x : Pwm) : (s.setPw n x).inn = s.inn := rfl
@[simp] theorem State.setPw_droppedStops (s : State) (n : Nat) (x : Pwm) : (s.setPw n x).droppedStops = s.droppedStops := rfl
@[simp] theorem State.setPw_draws (s : State) (n : Nat) (x : Pwm) : (s.setPw n x).draws = s.draws := rfl
@[simp] theorem State.setPw_ses (s : State) (n : Nat) (x : Pwm) (j : Nat) : (s.setPw n x).ses j = s.ses j := rfl
@[simp] theorem State.setPw_jrn (s : State) (n : Nat) (x : Pwm) (j : Nat) : (s.setPw n x).jrn j = s.jrn j := rfl
@[simp] theorem State.setPw_axis (s : State) (n : Nat) (x : Pwm) (j : Nat) : (s.setPw n x).axis j = s.axis j := rfl
@[simp] theorem State.setPw_group (s : State) (n : Nat) (x : Pwm) (j : Nat) : (s.setPw n x).group j = s.group j := rfl
@[simp] theorem State.setPw_act (s : State) (n : Nat) (x : Pwm) (j : Nat) : (s.setPw n x).act j = s.act j := rfl
@[simp] theorem State.setPw_shad (s : State) (n : Nat) (x : Pwm) (j : Nat) : (s.setPw n x).shad j = s.shad j := rfl
@[simp] theorem State.setPw_eng (s : State) (n : Nat) (x : Pwm) (j : Nat) : (s.setPw n x).eng j = s.eng j := rfl
@[simp] theorem State.setPw_blk (s : State) (n : Nat) (x : Pwm) (j : Nat) : (s.setPw n x).blk j = s.blk j := rfl
@[simp] theorem State.setPw_shaft (s : State) (n : Nat) (x : Pwm) (j : Nat) : (s.setPw n x).shaft j = s.shaft j := rfl
@[simp] theorem State.setPw_latch (s : State) (n : Nat) (x : Pwm) (j : Nat) : (s.setPw n x).latch j = s.latch j := rfl
@[simp] theorem State.setPw_fb (s : State) (n : Nat) (x : Pwm) (j : Nat) : (s.setPw n x).fb j = s.fb j := rfl
@[simp] theorem State.setPw_ain (s : State) (n : Nat) (x : Pwm) (j : Nat) : (s.setPw n x).ain j = s.ain j := rfl
@[simp] theorem State.setPw_em (s : State) (n : Nat) (x : Pwm) (j : Nat) : (s.setPw n x).em j = s.em j := rfl
@[simp] theorem State.setPw_stp (s : State) (n : Nat) (x : Pwm) (j : Nat) : (s.setPw n x).stp j = s.stp j := rfl
@[simp] theorem State.setPw_port (s : State) (n : Nat) (x : Pwm) (j : Nat) : (s.setPw n x).port j = s.port j := rfl
@[simp] theorem State.setPw_head (s : State) (n : Nat) (x : Pwm) (j : Nat) : (s.setPw n x).head j = s.head j := rfl
@[simp] theorem State.setPw_mac (s : State) (n : Nat) (x : Pwm) (j : Nat) : (s.setPw n x).mac j = s.mac j := rfl
@[simp] theorem State.setPw_can (s : State) (n : Nat) (x : Pwm) (j : Nat) : (s.setPw n x).can j = s.can j := rfl
@[simp] theorem State.setPw_dch (s : State) (n : Nat) (x : Pwm) (j : Nat) : (s.setPw n x).dch j = s.dch j := rfl
@[simp] theorem State.setPw_reg (s : State) (n : Nat) (x : Pwm) (j : Nat) : (s.setPw n x).reg j = s.reg j := rfl

/-! `State.setStp` writes the field `steps` alone. -/
@[simp] theorem State.setStp_pending (s : State) (n : Nat) (x : Step) : (s.setStp n x).pending = s.pending := rfl
@[simp] theorem State.setStp_part (s : State) (n : Nat) (x : Step) : (s.setStp n x).part = s.part := rfl
@[simp] theorem State.setStp_power (s : State) (n : Nat) (x : Step) : (s.setStp n x).power = s.power := rfl
@[simp] theorem State.setStp_bus (s : State) (n : Nat) (x : Step) : (s.setStp n x).bus = s.bus := rfl
@[simp] theorem State.setStp_regs (s : State) (n : Nat) (x : Step) : (s.setStp n x).regs = s.regs := rfl
@[simp] theorem State.setStp_out (s : State) (n : Nat) (x : Step) : (s.setStp n x).out = s.out := rfl
@[simp] theorem State.setStp_sram (s : State) (n : Nat) (x : Step) : (s.setStp n x).sram = s.sram := rfl
@[simp] theorem State.setStp_sramFlip (s : State) (n : Nat) (x : Step) : (s.setStp n x).sramFlip = s.sramFlip := rfl
@[simp] theorem State.setStp_leMem (s : State) (n : Nat) (x : Step) : (s.setStp n x).leMem = s.leMem := rfl
@[simp] theorem State.setStp_sessions (s : State) (n : Nat) (x : Step) : (s.setStp n x).sessions = s.sessions := rfl
@[simp] theorem State.setStp_journal (s : State) (n : Nat) (x : Step) : (s.setStp n x).journal = s.journal := rfl
@[simp] theorem State.setStp_porter (s : State) (n : Nat) (x : Step) : (s.setStp n x).porter = s.porter := rfl
@[simp] theorem State.setStp_staged (s : State) (n : Nat) (x : Step) : (s.setStp n x).staged = s.staged := rfl
@[simp] theorem State.setStp_params (s : State) (n : Nat) (x : Step) : (s.setStp n x).params = s.params := rfl
@[simp] theorem State.setStp_axes (s : State) (n : Nat) (x : Step) : (s.setStp n x).axes = s.axes := rfl
@[simp] theorem State.setStp_groups (s : State) (n : Nat) (x : Step) : (s.setStp n x).groups = s.groups := rfl
@[simp] theorem State.setStp_exchange (s : State) (n : Nat) (x : Step) : (s.setStp n x).exchange = s.exchange := rfl
@[simp] theorem State.setStp_exchNext (s : State) (n : Nat) (x : Step) : (s.setStp n x).exchNext = s.exchNext := rfl
@[simp] theorem State.setStp_exchAt (s : State) (n : Nat) (x : Step) : (s.setStp n x).exchAt = s.exchAt := rfl
@[simp] theorem State.setStp_exchAtNext (s : State) (n : Nat) (x : Step) : (s.setStp n x).exchAtNext = s.exchAtNext := rfl
@[simp] theorem State.setStp_active (s : State) (n : Nat) (x : Step) : (s.setStp n x).active = s.active := rfl
@[simp] theorem State.setStp_shadow (s : State) (n : Nat) (x : Step) : (s.setStp n x).shadow = s.shadow := rfl
@[simp] theorem State.setStp_engines (s : State) (n : Nat) (x : Step) : (s.setStp n x).engines = s.engines := rfl
@[simp] theorem State.setStp_blocks (s : State) (n : Nat) (x : Step) : (s.setStp n x).blocks = s.blocks := rfl
@[simp] theorem State.setStp_camHdr (s : State) (n : Nat) (x : Step) : (s.setStp n x).camHdr = s.camHdr := rfl
@[simp] theorem State.setStp_camPoints (s : State) (n : Nat) (x : Step) : (s.setStp n x).camPoints = s.camPoints := rfl
@[simp] theorem State.setStp_shafts (s : State) (n : Nat) (x : Step) : (s.setStp n x).shafts = s.shafts := rfl
@[simp] theorem State.setStp_latches (s : State) (n : Nat) (x : Step) : (s.setStp n x).latches = s.latches := rfl
@[simp] theorem State.setStp_fbk (s : State) (n : Nat) (x : Step) : (s.setStp n x).fbk = s.fbk := rfl
@[simp] theorem State.setStp_mts (s : State) (n : Nat) (x : Step) : (s.setStp n x).mts = s.mts := rfl
@[simp] theorem State.setStp_adc (s : State) (n : Nat) (x : Step) : (s.setStp n x).adc = s.adc := rfl
@[simp] theorem State.setStp_emu (s : State) (n : Nat) (x : Step) : (s.setStp n x).emu = s.emu := rfl
@[simp] theorem State.setStp_pwm (s : State) (n : Nat) (x : Step) : (s.setStp n x).pwm = s.pwm := rfl
@[simp] theorem State.setStp_ports (s : State) (n : Nat) (x : Step) : (s.setStp n x).ports = s.ports := rfl
@[simp] theorem State.setStp_heads (s : State) (n : Nat) (x : Step) : (s.setStp n x).heads = s.heads := rfl
@[simp] theorem State.setStp_pair (s : State) (n : Nat) (x : Step) : (s.setStp n x).pair = s.pair := rfl
@[simp] theorem State.setStp_island (s : State) (n : Nat) (x : Step) : (s.setStp n x).island = s.island := rfl
@[simp] theorem State.setStp_die (s : State) (n : Nat) (x : Step) : (s.setStp n x).die = s.die := rfl
@[simp] theorem State.setStp_tmu (s : State) (n : Nat) (x : Step) : (s.setStp n x).tmu = s.tmu := rfl
@[simp] theorem State.setStp_macs (s : State) (n : Nat) (x : Step) : (s.setStp n x).macs = s.macs := rfl
@[simp] theorem State.setStp_cans (s : State) (n : Nat) (x : Step) : (s.setStp n x).cans = s.cans := rfl
@[simp] theorem State.setStp_dma (s : State) (n : Nat) (x : Step) : (s.setStp n x).dma = s.dma := rfl
@[simp] theorem State.setStp_acq (s : State) (n : Nat) (x : Step) : (s.setStp n x).acq = s.acq := rfl
@[simp] theorem State.setStp_inn (s : State) (n : Nat) (x : Step) : (s.setStp n x).inn = s.inn := rfl
@[simp] theorem State.setStp_droppedStops (s : State) (n : Nat) (x : Step) : (s.setStp n x).droppedStops = s.droppedStops := rfl
@[simp] theorem State.setStp_draws (s : State) (n : Nat) (x : Step) : (s.setStp n x).draws = s.draws := rfl
@[simp] theorem State.setStp_ses (s : State) (n : Nat) (x : Step) (j : Nat) : (s.setStp n x).ses j = s.ses j := rfl
@[simp] theorem State.setStp_jrn (s : State) (n : Nat) (x : Step) (j : Nat) : (s.setStp n x).jrn j = s.jrn j := rfl
@[simp] theorem State.setStp_axis (s : State) (n : Nat) (x : Step) (j : Nat) : (s.setStp n x).axis j = s.axis j := rfl
@[simp] theorem State.setStp_group (s : State) (n : Nat) (x : Step) (j : Nat) : (s.setStp n x).group j = s.group j := rfl
@[simp] theorem State.setStp_act (s : State) (n : Nat) (x : Step) (j : Nat) : (s.setStp n x).act j = s.act j := rfl
@[simp] theorem State.setStp_shad (s : State) (n : Nat) (x : Step) (j : Nat) : (s.setStp n x).shad j = s.shad j := rfl
@[simp] theorem State.setStp_eng (s : State) (n : Nat) (x : Step) (j : Nat) : (s.setStp n x).eng j = s.eng j := rfl
@[simp] theorem State.setStp_blk (s : State) (n : Nat) (x : Step) (j : Nat) : (s.setStp n x).blk j = s.blk j := rfl
@[simp] theorem State.setStp_shaft (s : State) (n : Nat) (x : Step) (j : Nat) : (s.setStp n x).shaft j = s.shaft j := rfl
@[simp] theorem State.setStp_latch (s : State) (n : Nat) (x : Step) (j : Nat) : (s.setStp n x).latch j = s.latch j := rfl
@[simp] theorem State.setStp_fb (s : State) (n : Nat) (x : Step) (j : Nat) : (s.setStp n x).fb j = s.fb j := rfl
@[simp] theorem State.setStp_ain (s : State) (n : Nat) (x : Step) (j : Nat) : (s.setStp n x).ain j = s.ain j := rfl
@[simp] theorem State.setStp_em (s : State) (n : Nat) (x : Step) (j : Nat) : (s.setStp n x).em j = s.em j := rfl
@[simp] theorem State.setStp_pw (s : State) (n : Nat) (x : Step) (j : Nat) : (s.setStp n x).pw j = s.pw j := rfl
@[simp] theorem State.setStp_port (s : State) (n : Nat) (x : Step) (j : Nat) : (s.setStp n x).port j = s.port j := rfl
@[simp] theorem State.setStp_head (s : State) (n : Nat) (x : Step) (j : Nat) : (s.setStp n x).head j = s.head j := rfl
@[simp] theorem State.setStp_mac (s : State) (n : Nat) (x : Step) (j : Nat) : (s.setStp n x).mac j = s.mac j := rfl
@[simp] theorem State.setStp_can (s : State) (n : Nat) (x : Step) (j : Nat) : (s.setStp n x).can j = s.can j := rfl
@[simp] theorem State.setStp_dch (s : State) (n : Nat) (x : Step) (j : Nat) : (s.setStp n x).dch j = s.dch j := rfl
@[simp] theorem State.setStp_reg (s : State) (n : Nat) (x : Step) (j : Nat) : (s.setStp n x).reg j = s.reg j := rfl

/-! `State.setPort` writes the field `ports` alone. -/
@[simp] theorem State.setPort_pending (s : State) (n : Nat) (x : RingPort) : (s.setPort n x).pending = s.pending := rfl
@[simp] theorem State.setPort_part (s : State) (n : Nat) (x : RingPort) : (s.setPort n x).part = s.part := rfl
@[simp] theorem State.setPort_power (s : State) (n : Nat) (x : RingPort) : (s.setPort n x).power = s.power := rfl
@[simp] theorem State.setPort_bus (s : State) (n : Nat) (x : RingPort) : (s.setPort n x).bus = s.bus := rfl
@[simp] theorem State.setPort_regs (s : State) (n : Nat) (x : RingPort) : (s.setPort n x).regs = s.regs := rfl
@[simp] theorem State.setPort_out (s : State) (n : Nat) (x : RingPort) : (s.setPort n x).out = s.out := rfl
@[simp] theorem State.setPort_sram (s : State) (n : Nat) (x : RingPort) : (s.setPort n x).sram = s.sram := rfl
@[simp] theorem State.setPort_sramFlip (s : State) (n : Nat) (x : RingPort) : (s.setPort n x).sramFlip = s.sramFlip := rfl
@[simp] theorem State.setPort_leMem (s : State) (n : Nat) (x : RingPort) : (s.setPort n x).leMem = s.leMem := rfl
@[simp] theorem State.setPort_sessions (s : State) (n : Nat) (x : RingPort) : (s.setPort n x).sessions = s.sessions := rfl
@[simp] theorem State.setPort_journal (s : State) (n : Nat) (x : RingPort) : (s.setPort n x).journal = s.journal := rfl
@[simp] theorem State.setPort_porter (s : State) (n : Nat) (x : RingPort) : (s.setPort n x).porter = s.porter := rfl
@[simp] theorem State.setPort_staged (s : State) (n : Nat) (x : RingPort) : (s.setPort n x).staged = s.staged := rfl
@[simp] theorem State.setPort_params (s : State) (n : Nat) (x : RingPort) : (s.setPort n x).params = s.params := rfl
@[simp] theorem State.setPort_axes (s : State) (n : Nat) (x : RingPort) : (s.setPort n x).axes = s.axes := rfl
@[simp] theorem State.setPort_groups (s : State) (n : Nat) (x : RingPort) : (s.setPort n x).groups = s.groups := rfl
@[simp] theorem State.setPort_exchange (s : State) (n : Nat) (x : RingPort) : (s.setPort n x).exchange = s.exchange := rfl
@[simp] theorem State.setPort_exchNext (s : State) (n : Nat) (x : RingPort) : (s.setPort n x).exchNext = s.exchNext := rfl
@[simp] theorem State.setPort_exchAt (s : State) (n : Nat) (x : RingPort) : (s.setPort n x).exchAt = s.exchAt := rfl
@[simp] theorem State.setPort_exchAtNext (s : State) (n : Nat) (x : RingPort) : (s.setPort n x).exchAtNext = s.exchAtNext := rfl
@[simp] theorem State.setPort_active (s : State) (n : Nat) (x : RingPort) : (s.setPort n x).active = s.active := rfl
@[simp] theorem State.setPort_shadow (s : State) (n : Nat) (x : RingPort) : (s.setPort n x).shadow = s.shadow := rfl
@[simp] theorem State.setPort_engines (s : State) (n : Nat) (x : RingPort) : (s.setPort n x).engines = s.engines := rfl
@[simp] theorem State.setPort_blocks (s : State) (n : Nat) (x : RingPort) : (s.setPort n x).blocks = s.blocks := rfl
@[simp] theorem State.setPort_camHdr (s : State) (n : Nat) (x : RingPort) : (s.setPort n x).camHdr = s.camHdr := rfl
@[simp] theorem State.setPort_camPoints (s : State) (n : Nat) (x : RingPort) : (s.setPort n x).camPoints = s.camPoints := rfl
@[simp] theorem State.setPort_shafts (s : State) (n : Nat) (x : RingPort) : (s.setPort n x).shafts = s.shafts := rfl
@[simp] theorem State.setPort_latches (s : State) (n : Nat) (x : RingPort) : (s.setPort n x).latches = s.latches := rfl
@[simp] theorem State.setPort_fbk (s : State) (n : Nat) (x : RingPort) : (s.setPort n x).fbk = s.fbk := rfl
@[simp] theorem State.setPort_mts (s : State) (n : Nat) (x : RingPort) : (s.setPort n x).mts = s.mts := rfl
@[simp] theorem State.setPort_adc (s : State) (n : Nat) (x : RingPort) : (s.setPort n x).adc = s.adc := rfl
@[simp] theorem State.setPort_emu (s : State) (n : Nat) (x : RingPort) : (s.setPort n x).emu = s.emu := rfl
@[simp] theorem State.setPort_pwm (s : State) (n : Nat) (x : RingPort) : (s.setPort n x).pwm = s.pwm := rfl
@[simp] theorem State.setPort_steps (s : State) (n : Nat) (x : RingPort) : (s.setPort n x).steps = s.steps := rfl
@[simp] theorem State.setPort_heads (s : State) (n : Nat) (x : RingPort) : (s.setPort n x).heads = s.heads := rfl
@[simp] theorem State.setPort_pair (s : State) (n : Nat) (x : RingPort) : (s.setPort n x).pair = s.pair := rfl
@[simp] theorem State.setPort_island (s : State) (n : Nat) (x : RingPort) : (s.setPort n x).island = s.island := rfl
@[simp] theorem State.setPort_die (s : State) (n : Nat) (x : RingPort) : (s.setPort n x).die = s.die := rfl
@[simp] theorem State.setPort_tmu (s : State) (n : Nat) (x : RingPort) : (s.setPort n x).tmu = s.tmu := rfl
@[simp] theorem State.setPort_macs (s : State) (n : Nat) (x : RingPort) : (s.setPort n x).macs = s.macs := rfl
@[simp] theorem State.setPort_cans (s : State) (n : Nat) (x : RingPort) : (s.setPort n x).cans = s.cans := rfl
@[simp] theorem State.setPort_dma (s : State) (n : Nat) (x : RingPort) : (s.setPort n x).dma = s.dma := rfl
@[simp] theorem State.setPort_acq (s : State) (n : Nat) (x : RingPort) : (s.setPort n x).acq = s.acq := rfl
@[simp] theorem State.setPort_inn (s : State) (n : Nat) (x : RingPort) : (s.setPort n x).inn = s.inn := rfl
@[simp] theorem State.setPort_droppedStops (s : State) (n : Nat) (x : RingPort) : (s.setPort n x).droppedStops = s.droppedStops := rfl
@[simp] theorem State.setPort_draws (s : State) (n : Nat) (x : RingPort) : (s.setPort n x).draws = s.draws := rfl
@[simp] theorem State.setPort_ses (s : State) (n : Nat) (x : RingPort) (j : Nat) : (s.setPort n x).ses j = s.ses j := rfl
@[simp] theorem State.setPort_jrn (s : State) (n : Nat) (x : RingPort) (j : Nat) : (s.setPort n x).jrn j = s.jrn j := rfl
@[simp] theorem State.setPort_axis (s : State) (n : Nat) (x : RingPort) (j : Nat) : (s.setPort n x).axis j = s.axis j := rfl
@[simp] theorem State.setPort_group (s : State) (n : Nat) (x : RingPort) (j : Nat) : (s.setPort n x).group j = s.group j := rfl
@[simp] theorem State.setPort_act (s : State) (n : Nat) (x : RingPort) (j : Nat) : (s.setPort n x).act j = s.act j := rfl
@[simp] theorem State.setPort_shad (s : State) (n : Nat) (x : RingPort) (j : Nat) : (s.setPort n x).shad j = s.shad j := rfl
@[simp] theorem State.setPort_eng (s : State) (n : Nat) (x : RingPort) (j : Nat) : (s.setPort n x).eng j = s.eng j := rfl
@[simp] theorem State.setPort_blk (s : State) (n : Nat) (x : RingPort) (j : Nat) : (s.setPort n x).blk j = s.blk j := rfl
@[simp] theorem State.setPort_shaft (s : State) (n : Nat) (x : RingPort) (j : Nat) : (s.setPort n x).shaft j = s.shaft j := rfl
@[simp] theorem State.setPort_latch (s : State) (n : Nat) (x : RingPort) (j : Nat) : (s.setPort n x).latch j = s.latch j := rfl
@[simp] theorem State.setPort_fb (s : State) (n : Nat) (x : RingPort) (j : Nat) : (s.setPort n x).fb j = s.fb j := rfl
@[simp] theorem State.setPort_ain (s : State) (n : Nat) (x : RingPort) (j : Nat) : (s.setPort n x).ain j = s.ain j := rfl
@[simp] theorem State.setPort_em (s : State) (n : Nat) (x : RingPort) (j : Nat) : (s.setPort n x).em j = s.em j := rfl
@[simp] theorem State.setPort_pw (s : State) (n : Nat) (x : RingPort) (j : Nat) : (s.setPort n x).pw j = s.pw j := rfl
@[simp] theorem State.setPort_stp (s : State) (n : Nat) (x : RingPort) (j : Nat) : (s.setPort n x).stp j = s.stp j := rfl
@[simp] theorem State.setPort_head (s : State) (n : Nat) (x : RingPort) (j : Nat) : (s.setPort n x).head j = s.head j := rfl
@[simp] theorem State.setPort_mac (s : State) (n : Nat) (x : RingPort) (j : Nat) : (s.setPort n x).mac j = s.mac j := rfl
@[simp] theorem State.setPort_can (s : State) (n : Nat) (x : RingPort) (j : Nat) : (s.setPort n x).can j = s.can j := rfl
@[simp] theorem State.setPort_dch (s : State) (n : Nat) (x : RingPort) (j : Nat) : (s.setPort n x).dch j = s.dch j := rfl
@[simp] theorem State.setPort_reg (s : State) (n : Nat) (x : RingPort) (j : Nat) : (s.setPort n x).reg j = s.reg j := rfl

/-! `State.setHead` writes the field `heads` alone. -/
@[simp] theorem State.setHead_pending (s : State) (n : Nat) (x : Head) : (s.setHead n x).pending = s.pending := rfl
@[simp] theorem State.setHead_part (s : State) (n : Nat) (x : Head) : (s.setHead n x).part = s.part := rfl
@[simp] theorem State.setHead_power (s : State) (n : Nat) (x : Head) : (s.setHead n x).power = s.power := rfl
@[simp] theorem State.setHead_bus (s : State) (n : Nat) (x : Head) : (s.setHead n x).bus = s.bus := rfl
@[simp] theorem State.setHead_regs (s : State) (n : Nat) (x : Head) : (s.setHead n x).regs = s.regs := rfl
@[simp] theorem State.setHead_out (s : State) (n : Nat) (x : Head) : (s.setHead n x).out = s.out := rfl
@[simp] theorem State.setHead_sram (s : State) (n : Nat) (x : Head) : (s.setHead n x).sram = s.sram := rfl
@[simp] theorem State.setHead_sramFlip (s : State) (n : Nat) (x : Head) : (s.setHead n x).sramFlip = s.sramFlip := rfl
@[simp] theorem State.setHead_leMem (s : State) (n : Nat) (x : Head) : (s.setHead n x).leMem = s.leMem := rfl
@[simp] theorem State.setHead_sessions (s : State) (n : Nat) (x : Head) : (s.setHead n x).sessions = s.sessions := rfl
@[simp] theorem State.setHead_journal (s : State) (n : Nat) (x : Head) : (s.setHead n x).journal = s.journal := rfl
@[simp] theorem State.setHead_porter (s : State) (n : Nat) (x : Head) : (s.setHead n x).porter = s.porter := rfl
@[simp] theorem State.setHead_staged (s : State) (n : Nat) (x : Head) : (s.setHead n x).staged = s.staged := rfl
@[simp] theorem State.setHead_params (s : State) (n : Nat) (x : Head) : (s.setHead n x).params = s.params := rfl
@[simp] theorem State.setHead_axes (s : State) (n : Nat) (x : Head) : (s.setHead n x).axes = s.axes := rfl
@[simp] theorem State.setHead_groups (s : State) (n : Nat) (x : Head) : (s.setHead n x).groups = s.groups := rfl
@[simp] theorem State.setHead_exchange (s : State) (n : Nat) (x : Head) : (s.setHead n x).exchange = s.exchange := rfl
@[simp] theorem State.setHead_exchNext (s : State) (n : Nat) (x : Head) : (s.setHead n x).exchNext = s.exchNext := rfl
@[simp] theorem State.setHead_exchAt (s : State) (n : Nat) (x : Head) : (s.setHead n x).exchAt = s.exchAt := rfl
@[simp] theorem State.setHead_exchAtNext (s : State) (n : Nat) (x : Head) : (s.setHead n x).exchAtNext = s.exchAtNext := rfl
@[simp] theorem State.setHead_active (s : State) (n : Nat) (x : Head) : (s.setHead n x).active = s.active := rfl
@[simp] theorem State.setHead_shadow (s : State) (n : Nat) (x : Head) : (s.setHead n x).shadow = s.shadow := rfl
@[simp] theorem State.setHead_engines (s : State) (n : Nat) (x : Head) : (s.setHead n x).engines = s.engines := rfl
@[simp] theorem State.setHead_blocks (s : State) (n : Nat) (x : Head) : (s.setHead n x).blocks = s.blocks := rfl
@[simp] theorem State.setHead_camHdr (s : State) (n : Nat) (x : Head) : (s.setHead n x).camHdr = s.camHdr := rfl
@[simp] theorem State.setHead_camPoints (s : State) (n : Nat) (x : Head) : (s.setHead n x).camPoints = s.camPoints := rfl
@[simp] theorem State.setHead_shafts (s : State) (n : Nat) (x : Head) : (s.setHead n x).shafts = s.shafts := rfl
@[simp] theorem State.setHead_latches (s : State) (n : Nat) (x : Head) : (s.setHead n x).latches = s.latches := rfl
@[simp] theorem State.setHead_fbk (s : State) (n : Nat) (x : Head) : (s.setHead n x).fbk = s.fbk := rfl
@[simp] theorem State.setHead_mts (s : State) (n : Nat) (x : Head) : (s.setHead n x).mts = s.mts := rfl
@[simp] theorem State.setHead_adc (s : State) (n : Nat) (x : Head) : (s.setHead n x).adc = s.adc := rfl
@[simp] theorem State.setHead_emu (s : State) (n : Nat) (x : Head) : (s.setHead n x).emu = s.emu := rfl
@[simp] theorem State.setHead_pwm (s : State) (n : Nat) (x : Head) : (s.setHead n x).pwm = s.pwm := rfl
@[simp] theorem State.setHead_steps (s : State) (n : Nat) (x : Head) : (s.setHead n x).steps = s.steps := rfl
@[simp] theorem State.setHead_ports (s : State) (n : Nat) (x : Head) : (s.setHead n x).ports = s.ports := rfl
@[simp] theorem State.setHead_pair (s : State) (n : Nat) (x : Head) : (s.setHead n x).pair = s.pair := rfl
@[simp] theorem State.setHead_island (s : State) (n : Nat) (x : Head) : (s.setHead n x).island = s.island := rfl
@[simp] theorem State.setHead_die (s : State) (n : Nat) (x : Head) : (s.setHead n x).die = s.die := rfl
@[simp] theorem State.setHead_tmu (s : State) (n : Nat) (x : Head) : (s.setHead n x).tmu = s.tmu := rfl
@[simp] theorem State.setHead_macs (s : State) (n : Nat) (x : Head) : (s.setHead n x).macs = s.macs := rfl
@[simp] theorem State.setHead_cans (s : State) (n : Nat) (x : Head) : (s.setHead n x).cans = s.cans := rfl
@[simp] theorem State.setHead_dma (s : State) (n : Nat) (x : Head) : (s.setHead n x).dma = s.dma := rfl
@[simp] theorem State.setHead_acq (s : State) (n : Nat) (x : Head) : (s.setHead n x).acq = s.acq := rfl
@[simp] theorem State.setHead_inn (s : State) (n : Nat) (x : Head) : (s.setHead n x).inn = s.inn := rfl
@[simp] theorem State.setHead_droppedStops (s : State) (n : Nat) (x : Head) : (s.setHead n x).droppedStops = s.droppedStops := rfl
@[simp] theorem State.setHead_draws (s : State) (n : Nat) (x : Head) : (s.setHead n x).draws = s.draws := rfl
@[simp] theorem State.setHead_ses (s : State) (n : Nat) (x : Head) (j : Nat) : (s.setHead n x).ses j = s.ses j := rfl
@[simp] theorem State.setHead_jrn (s : State) (n : Nat) (x : Head) (j : Nat) : (s.setHead n x).jrn j = s.jrn j := rfl
@[simp] theorem State.setHead_axis (s : State) (n : Nat) (x : Head) (j : Nat) : (s.setHead n x).axis j = s.axis j := rfl
@[simp] theorem State.setHead_group (s : State) (n : Nat) (x : Head) (j : Nat) : (s.setHead n x).group j = s.group j := rfl
@[simp] theorem State.setHead_act (s : State) (n : Nat) (x : Head) (j : Nat) : (s.setHead n x).act j = s.act j := rfl
@[simp] theorem State.setHead_shad (s : State) (n : Nat) (x : Head) (j : Nat) : (s.setHead n x).shad j = s.shad j := rfl
@[simp] theorem State.setHead_eng (s : State) (n : Nat) (x : Head) (j : Nat) : (s.setHead n x).eng j = s.eng j := rfl
@[simp] theorem State.setHead_blk (s : State) (n : Nat) (x : Head) (j : Nat) : (s.setHead n x).blk j = s.blk j := rfl
@[simp] theorem State.setHead_shaft (s : State) (n : Nat) (x : Head) (j : Nat) : (s.setHead n x).shaft j = s.shaft j := rfl
@[simp] theorem State.setHead_latch (s : State) (n : Nat) (x : Head) (j : Nat) : (s.setHead n x).latch j = s.latch j := rfl
@[simp] theorem State.setHead_fb (s : State) (n : Nat) (x : Head) (j : Nat) : (s.setHead n x).fb j = s.fb j := rfl
@[simp] theorem State.setHead_ain (s : State) (n : Nat) (x : Head) (j : Nat) : (s.setHead n x).ain j = s.ain j := rfl
@[simp] theorem State.setHead_em (s : State) (n : Nat) (x : Head) (j : Nat) : (s.setHead n x).em j = s.em j := rfl
@[simp] theorem State.setHead_pw (s : State) (n : Nat) (x : Head) (j : Nat) : (s.setHead n x).pw j = s.pw j := rfl
@[simp] theorem State.setHead_stp (s : State) (n : Nat) (x : Head) (j : Nat) : (s.setHead n x).stp j = s.stp j := rfl
@[simp] theorem State.setHead_port (s : State) (n : Nat) (x : Head) (j : Nat) : (s.setHead n x).port j = s.port j := rfl
@[simp] theorem State.setHead_mac (s : State) (n : Nat) (x : Head) (j : Nat) : (s.setHead n x).mac j = s.mac j := rfl
@[simp] theorem State.setHead_can (s : State) (n : Nat) (x : Head) (j : Nat) : (s.setHead n x).can j = s.can j := rfl
@[simp] theorem State.setHead_dch (s : State) (n : Nat) (x : Head) (j : Nat) : (s.setHead n x).dch j = s.dch j := rfl
@[simp] theorem State.setHead_reg (s : State) (n : Nat) (x : Head) (j : Nat) : (s.setHead n x).reg j = s.reg j := rfl

/-! `State.setMac` writes the field `macs` alone. -/
@[simp] theorem State.setMac_pending (s : State) (n : Nat) (x : Mac) : (s.setMac n x).pending = s.pending := rfl
@[simp] theorem State.setMac_part (s : State) (n : Nat) (x : Mac) : (s.setMac n x).part = s.part := rfl
@[simp] theorem State.setMac_power (s : State) (n : Nat) (x : Mac) : (s.setMac n x).power = s.power := rfl
@[simp] theorem State.setMac_bus (s : State) (n : Nat) (x : Mac) : (s.setMac n x).bus = s.bus := rfl
@[simp] theorem State.setMac_regs (s : State) (n : Nat) (x : Mac) : (s.setMac n x).regs = s.regs := rfl
@[simp] theorem State.setMac_out (s : State) (n : Nat) (x : Mac) : (s.setMac n x).out = s.out := rfl
@[simp] theorem State.setMac_sram (s : State) (n : Nat) (x : Mac) : (s.setMac n x).sram = s.sram := rfl
@[simp] theorem State.setMac_sramFlip (s : State) (n : Nat) (x : Mac) : (s.setMac n x).sramFlip = s.sramFlip := rfl
@[simp] theorem State.setMac_leMem (s : State) (n : Nat) (x : Mac) : (s.setMac n x).leMem = s.leMem := rfl
@[simp] theorem State.setMac_sessions (s : State) (n : Nat) (x : Mac) : (s.setMac n x).sessions = s.sessions := rfl
@[simp] theorem State.setMac_journal (s : State) (n : Nat) (x : Mac) : (s.setMac n x).journal = s.journal := rfl
@[simp] theorem State.setMac_porter (s : State) (n : Nat) (x : Mac) : (s.setMac n x).porter = s.porter := rfl
@[simp] theorem State.setMac_staged (s : State) (n : Nat) (x : Mac) : (s.setMac n x).staged = s.staged := rfl
@[simp] theorem State.setMac_params (s : State) (n : Nat) (x : Mac) : (s.setMac n x).params = s.params := rfl
@[simp] theorem State.setMac_axes (s : State) (n : Nat) (x : Mac) : (s.setMac n x).axes = s.axes := rfl
@[simp] theorem State.setMac_groups (s : State) (n : Nat) (x : Mac) : (s.setMac n x).groups = s.groups := rfl
@[simp] theorem State.setMac_exchange (s : State) (n : Nat) (x : Mac) : (s.setMac n x).exchange = s.exchange := rfl
@[simp] theorem State.setMac_exchNext (s : State) (n : Nat) (x : Mac) : (s.setMac n x).exchNext = s.exchNext := rfl
@[simp] theorem State.setMac_exchAt (s : State) (n : Nat) (x : Mac) : (s.setMac n x).exchAt = s.exchAt := rfl
@[simp] theorem State.setMac_exchAtNext (s : State) (n : Nat) (x : Mac) : (s.setMac n x).exchAtNext = s.exchAtNext := rfl
@[simp] theorem State.setMac_active (s : State) (n : Nat) (x : Mac) : (s.setMac n x).active = s.active := rfl
@[simp] theorem State.setMac_shadow (s : State) (n : Nat) (x : Mac) : (s.setMac n x).shadow = s.shadow := rfl
@[simp] theorem State.setMac_engines (s : State) (n : Nat) (x : Mac) : (s.setMac n x).engines = s.engines := rfl
@[simp] theorem State.setMac_blocks (s : State) (n : Nat) (x : Mac) : (s.setMac n x).blocks = s.blocks := rfl
@[simp] theorem State.setMac_camHdr (s : State) (n : Nat) (x : Mac) : (s.setMac n x).camHdr = s.camHdr := rfl
@[simp] theorem State.setMac_camPoints (s : State) (n : Nat) (x : Mac) : (s.setMac n x).camPoints = s.camPoints := rfl
@[simp] theorem State.setMac_shafts (s : State) (n : Nat) (x : Mac) : (s.setMac n x).shafts = s.shafts := rfl
@[simp] theorem State.setMac_latches (s : State) (n : Nat) (x : Mac) : (s.setMac n x).latches = s.latches := rfl
@[simp] theorem State.setMac_fbk (s : State) (n : Nat) (x : Mac) : (s.setMac n x).fbk = s.fbk := rfl
@[simp] theorem State.setMac_mts (s : State) (n : Nat) (x : Mac) : (s.setMac n x).mts = s.mts := rfl
@[simp] theorem State.setMac_adc (s : State) (n : Nat) (x : Mac) : (s.setMac n x).adc = s.adc := rfl
@[simp] theorem State.setMac_emu (s : State) (n : Nat) (x : Mac) : (s.setMac n x).emu = s.emu := rfl
@[simp] theorem State.setMac_pwm (s : State) (n : Nat) (x : Mac) : (s.setMac n x).pwm = s.pwm := rfl
@[simp] theorem State.setMac_steps (s : State) (n : Nat) (x : Mac) : (s.setMac n x).steps = s.steps := rfl
@[simp] theorem State.setMac_ports (s : State) (n : Nat) (x : Mac) : (s.setMac n x).ports = s.ports := rfl
@[simp] theorem State.setMac_heads (s : State) (n : Nat) (x : Mac) : (s.setMac n x).heads = s.heads := rfl
@[simp] theorem State.setMac_pair (s : State) (n : Nat) (x : Mac) : (s.setMac n x).pair = s.pair := rfl
@[simp] theorem State.setMac_island (s : State) (n : Nat) (x : Mac) : (s.setMac n x).island = s.island := rfl
@[simp] theorem State.setMac_die (s : State) (n : Nat) (x : Mac) : (s.setMac n x).die = s.die := rfl
@[simp] theorem State.setMac_tmu (s : State) (n : Nat) (x : Mac) : (s.setMac n x).tmu = s.tmu := rfl
@[simp] theorem State.setMac_cans (s : State) (n : Nat) (x : Mac) : (s.setMac n x).cans = s.cans := rfl
@[simp] theorem State.setMac_dma (s : State) (n : Nat) (x : Mac) : (s.setMac n x).dma = s.dma := rfl
@[simp] theorem State.setMac_acq (s : State) (n : Nat) (x : Mac) : (s.setMac n x).acq = s.acq := rfl
@[simp] theorem State.setMac_inn (s : State) (n : Nat) (x : Mac) : (s.setMac n x).inn = s.inn := rfl
@[simp] theorem State.setMac_droppedStops (s : State) (n : Nat) (x : Mac) : (s.setMac n x).droppedStops = s.droppedStops := rfl
@[simp] theorem State.setMac_draws (s : State) (n : Nat) (x : Mac) : (s.setMac n x).draws = s.draws := rfl
@[simp] theorem State.setMac_ses (s : State) (n : Nat) (x : Mac) (j : Nat) : (s.setMac n x).ses j = s.ses j := rfl
@[simp] theorem State.setMac_jrn (s : State) (n : Nat) (x : Mac) (j : Nat) : (s.setMac n x).jrn j = s.jrn j := rfl
@[simp] theorem State.setMac_axis (s : State) (n : Nat) (x : Mac) (j : Nat) : (s.setMac n x).axis j = s.axis j := rfl
@[simp] theorem State.setMac_group (s : State) (n : Nat) (x : Mac) (j : Nat) : (s.setMac n x).group j = s.group j := rfl
@[simp] theorem State.setMac_act (s : State) (n : Nat) (x : Mac) (j : Nat) : (s.setMac n x).act j = s.act j := rfl
@[simp] theorem State.setMac_shad (s : State) (n : Nat) (x : Mac) (j : Nat) : (s.setMac n x).shad j = s.shad j := rfl
@[simp] theorem State.setMac_eng (s : State) (n : Nat) (x : Mac) (j : Nat) : (s.setMac n x).eng j = s.eng j := rfl
@[simp] theorem State.setMac_blk (s : State) (n : Nat) (x : Mac) (j : Nat) : (s.setMac n x).blk j = s.blk j := rfl
@[simp] theorem State.setMac_shaft (s : State) (n : Nat) (x : Mac) (j : Nat) : (s.setMac n x).shaft j = s.shaft j := rfl
@[simp] theorem State.setMac_latch (s : State) (n : Nat) (x : Mac) (j : Nat) : (s.setMac n x).latch j = s.latch j := rfl
@[simp] theorem State.setMac_fb (s : State) (n : Nat) (x : Mac) (j : Nat) : (s.setMac n x).fb j = s.fb j := rfl
@[simp] theorem State.setMac_ain (s : State) (n : Nat) (x : Mac) (j : Nat) : (s.setMac n x).ain j = s.ain j := rfl
@[simp] theorem State.setMac_em (s : State) (n : Nat) (x : Mac) (j : Nat) : (s.setMac n x).em j = s.em j := rfl
@[simp] theorem State.setMac_pw (s : State) (n : Nat) (x : Mac) (j : Nat) : (s.setMac n x).pw j = s.pw j := rfl
@[simp] theorem State.setMac_stp (s : State) (n : Nat) (x : Mac) (j : Nat) : (s.setMac n x).stp j = s.stp j := rfl
@[simp] theorem State.setMac_port (s : State) (n : Nat) (x : Mac) (j : Nat) : (s.setMac n x).port j = s.port j := rfl
@[simp] theorem State.setMac_head (s : State) (n : Nat) (x : Mac) (j : Nat) : (s.setMac n x).head j = s.head j := rfl
@[simp] theorem State.setMac_can (s : State) (n : Nat) (x : Mac) (j : Nat) : (s.setMac n x).can j = s.can j := rfl
@[simp] theorem State.setMac_dch (s : State) (n : Nat) (x : Mac) (j : Nat) : (s.setMac n x).dch j = s.dch j := rfl
@[simp] theorem State.setMac_reg (s : State) (n : Nat) (x : Mac) (j : Nat) : (s.setMac n x).reg j = s.reg j := rfl

/-! `State.setCan` writes the field `cans` alone. -/
@[simp] theorem State.setCan_pending (s : State) (n : Nat) (x : CanCtl) : (s.setCan n x).pending = s.pending := rfl
@[simp] theorem State.setCan_part (s : State) (n : Nat) (x : CanCtl) : (s.setCan n x).part = s.part := rfl
@[simp] theorem State.setCan_power (s : State) (n : Nat) (x : CanCtl) : (s.setCan n x).power = s.power := rfl
@[simp] theorem State.setCan_bus (s : State) (n : Nat) (x : CanCtl) : (s.setCan n x).bus = s.bus := rfl
@[simp] theorem State.setCan_regs (s : State) (n : Nat) (x : CanCtl) : (s.setCan n x).regs = s.regs := rfl
@[simp] theorem State.setCan_out (s : State) (n : Nat) (x : CanCtl) : (s.setCan n x).out = s.out := rfl
@[simp] theorem State.setCan_sram (s : State) (n : Nat) (x : CanCtl) : (s.setCan n x).sram = s.sram := rfl
@[simp] theorem State.setCan_sramFlip (s : State) (n : Nat) (x : CanCtl) : (s.setCan n x).sramFlip = s.sramFlip := rfl
@[simp] theorem State.setCan_leMem (s : State) (n : Nat) (x : CanCtl) : (s.setCan n x).leMem = s.leMem := rfl
@[simp] theorem State.setCan_sessions (s : State) (n : Nat) (x : CanCtl) : (s.setCan n x).sessions = s.sessions := rfl
@[simp] theorem State.setCan_journal (s : State) (n : Nat) (x : CanCtl) : (s.setCan n x).journal = s.journal := rfl
@[simp] theorem State.setCan_porter (s : State) (n : Nat) (x : CanCtl) : (s.setCan n x).porter = s.porter := rfl
@[simp] theorem State.setCan_staged (s : State) (n : Nat) (x : CanCtl) : (s.setCan n x).staged = s.staged := rfl
@[simp] theorem State.setCan_params (s : State) (n : Nat) (x : CanCtl) : (s.setCan n x).params = s.params := rfl
@[simp] theorem State.setCan_axes (s : State) (n : Nat) (x : CanCtl) : (s.setCan n x).axes = s.axes := rfl
@[simp] theorem State.setCan_groups (s : State) (n : Nat) (x : CanCtl) : (s.setCan n x).groups = s.groups := rfl
@[simp] theorem State.setCan_exchange (s : State) (n : Nat) (x : CanCtl) : (s.setCan n x).exchange = s.exchange := rfl
@[simp] theorem State.setCan_exchNext (s : State) (n : Nat) (x : CanCtl) : (s.setCan n x).exchNext = s.exchNext := rfl
@[simp] theorem State.setCan_exchAt (s : State) (n : Nat) (x : CanCtl) : (s.setCan n x).exchAt = s.exchAt := rfl
@[simp] theorem State.setCan_exchAtNext (s : State) (n : Nat) (x : CanCtl) : (s.setCan n x).exchAtNext = s.exchAtNext := rfl
@[simp] theorem State.setCan_active (s : State) (n : Nat) (x : CanCtl) : (s.setCan n x).active = s.active := rfl
@[simp] theorem State.setCan_shadow (s : State) (n : Nat) (x : CanCtl) : (s.setCan n x).shadow = s.shadow := rfl
@[simp] theorem State.setCan_engines (s : State) (n : Nat) (x : CanCtl) : (s.setCan n x).engines = s.engines := rfl
@[simp] theorem State.setCan_blocks (s : State) (n : Nat) (x : CanCtl) : (s.setCan n x).blocks = s.blocks := rfl
@[simp] theorem State.setCan_camHdr (s : State) (n : Nat) (x : CanCtl) : (s.setCan n x).camHdr = s.camHdr := rfl
@[simp] theorem State.setCan_camPoints (s : State) (n : Nat) (x : CanCtl) : (s.setCan n x).camPoints = s.camPoints := rfl
@[simp] theorem State.setCan_shafts (s : State) (n : Nat) (x : CanCtl) : (s.setCan n x).shafts = s.shafts := rfl
@[simp] theorem State.setCan_latches (s : State) (n : Nat) (x : CanCtl) : (s.setCan n x).latches = s.latches := rfl
@[simp] theorem State.setCan_fbk (s : State) (n : Nat) (x : CanCtl) : (s.setCan n x).fbk = s.fbk := rfl
@[simp] theorem State.setCan_mts (s : State) (n : Nat) (x : CanCtl) : (s.setCan n x).mts = s.mts := rfl
@[simp] theorem State.setCan_adc (s : State) (n : Nat) (x : CanCtl) : (s.setCan n x).adc = s.adc := rfl
@[simp] theorem State.setCan_emu (s : State) (n : Nat) (x : CanCtl) : (s.setCan n x).emu = s.emu := rfl
@[simp] theorem State.setCan_pwm (s : State) (n : Nat) (x : CanCtl) : (s.setCan n x).pwm = s.pwm := rfl
@[simp] theorem State.setCan_steps (s : State) (n : Nat) (x : CanCtl) : (s.setCan n x).steps = s.steps := rfl
@[simp] theorem State.setCan_ports (s : State) (n : Nat) (x : CanCtl) : (s.setCan n x).ports = s.ports := rfl
@[simp] theorem State.setCan_heads (s : State) (n : Nat) (x : CanCtl) : (s.setCan n x).heads = s.heads := rfl
@[simp] theorem State.setCan_pair (s : State) (n : Nat) (x : CanCtl) : (s.setCan n x).pair = s.pair := rfl
@[simp] theorem State.setCan_island (s : State) (n : Nat) (x : CanCtl) : (s.setCan n x).island = s.island := rfl
@[simp] theorem State.setCan_die (s : State) (n : Nat) (x : CanCtl) : (s.setCan n x).die = s.die := rfl
@[simp] theorem State.setCan_tmu (s : State) (n : Nat) (x : CanCtl) : (s.setCan n x).tmu = s.tmu := rfl
@[simp] theorem State.setCan_macs (s : State) (n : Nat) (x : CanCtl) : (s.setCan n x).macs = s.macs := rfl
@[simp] theorem State.setCan_dma (s : State) (n : Nat) (x : CanCtl) : (s.setCan n x).dma = s.dma := rfl
@[simp] theorem State.setCan_acq (s : State) (n : Nat) (x : CanCtl) : (s.setCan n x).acq = s.acq := rfl
@[simp] theorem State.setCan_inn (s : State) (n : Nat) (x : CanCtl) : (s.setCan n x).inn = s.inn := rfl
@[simp] theorem State.setCan_droppedStops (s : State) (n : Nat) (x : CanCtl) : (s.setCan n x).droppedStops = s.droppedStops := rfl
@[simp] theorem State.setCan_draws (s : State) (n : Nat) (x : CanCtl) : (s.setCan n x).draws = s.draws := rfl
@[simp] theorem State.setCan_ses (s : State) (n : Nat) (x : CanCtl) (j : Nat) : (s.setCan n x).ses j = s.ses j := rfl
@[simp] theorem State.setCan_jrn (s : State) (n : Nat) (x : CanCtl) (j : Nat) : (s.setCan n x).jrn j = s.jrn j := rfl
@[simp] theorem State.setCan_axis (s : State) (n : Nat) (x : CanCtl) (j : Nat) : (s.setCan n x).axis j = s.axis j := rfl
@[simp] theorem State.setCan_group (s : State) (n : Nat) (x : CanCtl) (j : Nat) : (s.setCan n x).group j = s.group j := rfl
@[simp] theorem State.setCan_act (s : State) (n : Nat) (x : CanCtl) (j : Nat) : (s.setCan n x).act j = s.act j := rfl
@[simp] theorem State.setCan_shad (s : State) (n : Nat) (x : CanCtl) (j : Nat) : (s.setCan n x).shad j = s.shad j := rfl
@[simp] theorem State.setCan_eng (s : State) (n : Nat) (x : CanCtl) (j : Nat) : (s.setCan n x).eng j = s.eng j := rfl
@[simp] theorem State.setCan_blk (s : State) (n : Nat) (x : CanCtl) (j : Nat) : (s.setCan n x).blk j = s.blk j := rfl
@[simp] theorem State.setCan_shaft (s : State) (n : Nat) (x : CanCtl) (j : Nat) : (s.setCan n x).shaft j = s.shaft j := rfl
@[simp] theorem State.setCan_latch (s : State) (n : Nat) (x : CanCtl) (j : Nat) : (s.setCan n x).latch j = s.latch j := rfl
@[simp] theorem State.setCan_fb (s : State) (n : Nat) (x : CanCtl) (j : Nat) : (s.setCan n x).fb j = s.fb j := rfl
@[simp] theorem State.setCan_ain (s : State) (n : Nat) (x : CanCtl) (j : Nat) : (s.setCan n x).ain j = s.ain j := rfl
@[simp] theorem State.setCan_em (s : State) (n : Nat) (x : CanCtl) (j : Nat) : (s.setCan n x).em j = s.em j := rfl
@[simp] theorem State.setCan_pw (s : State) (n : Nat) (x : CanCtl) (j : Nat) : (s.setCan n x).pw j = s.pw j := rfl
@[simp] theorem State.setCan_stp (s : State) (n : Nat) (x : CanCtl) (j : Nat) : (s.setCan n x).stp j = s.stp j := rfl
@[simp] theorem State.setCan_port (s : State) (n : Nat) (x : CanCtl) (j : Nat) : (s.setCan n x).port j = s.port j := rfl
@[simp] theorem State.setCan_head (s : State) (n : Nat) (x : CanCtl) (j : Nat) : (s.setCan n x).head j = s.head j := rfl
@[simp] theorem State.setCan_mac (s : State) (n : Nat) (x : CanCtl) (j : Nat) : (s.setCan n x).mac j = s.mac j := rfl
@[simp] theorem State.setCan_dch (s : State) (n : Nat) (x : CanCtl) (j : Nat) : (s.setCan n x).dch j = s.dch j := rfl
@[simp] theorem State.setCan_reg (s : State) (n : Nat) (x : CanCtl) (j : Nat) : (s.setCan n x).reg j = s.reg j := rfl

/-! `State.setDch` writes the field `dma` alone. -/
@[simp] theorem State.setDch_pending (s : State) (n : Nat) (x : DmaCh) : (s.setDch n x).pending = s.pending := rfl
@[simp] theorem State.setDch_part (s : State) (n : Nat) (x : DmaCh) : (s.setDch n x).part = s.part := rfl
@[simp] theorem State.setDch_power (s : State) (n : Nat) (x : DmaCh) : (s.setDch n x).power = s.power := rfl
@[simp] theorem State.setDch_bus (s : State) (n : Nat) (x : DmaCh) : (s.setDch n x).bus = s.bus := rfl
@[simp] theorem State.setDch_regs (s : State) (n : Nat) (x : DmaCh) : (s.setDch n x).regs = s.regs := rfl
@[simp] theorem State.setDch_out (s : State) (n : Nat) (x : DmaCh) : (s.setDch n x).out = s.out := rfl
@[simp] theorem State.setDch_sram (s : State) (n : Nat) (x : DmaCh) : (s.setDch n x).sram = s.sram := rfl
@[simp] theorem State.setDch_sramFlip (s : State) (n : Nat) (x : DmaCh) : (s.setDch n x).sramFlip = s.sramFlip := rfl
@[simp] theorem State.setDch_leMem (s : State) (n : Nat) (x : DmaCh) : (s.setDch n x).leMem = s.leMem := rfl
@[simp] theorem State.setDch_sessions (s : State) (n : Nat) (x : DmaCh) : (s.setDch n x).sessions = s.sessions := rfl
@[simp] theorem State.setDch_journal (s : State) (n : Nat) (x : DmaCh) : (s.setDch n x).journal = s.journal := rfl
@[simp] theorem State.setDch_porter (s : State) (n : Nat) (x : DmaCh) : (s.setDch n x).porter = s.porter := rfl
@[simp] theorem State.setDch_staged (s : State) (n : Nat) (x : DmaCh) : (s.setDch n x).staged = s.staged := rfl
@[simp] theorem State.setDch_params (s : State) (n : Nat) (x : DmaCh) : (s.setDch n x).params = s.params := rfl
@[simp] theorem State.setDch_axes (s : State) (n : Nat) (x : DmaCh) : (s.setDch n x).axes = s.axes := rfl
@[simp] theorem State.setDch_groups (s : State) (n : Nat) (x : DmaCh) : (s.setDch n x).groups = s.groups := rfl
@[simp] theorem State.setDch_exchange (s : State) (n : Nat) (x : DmaCh) : (s.setDch n x).exchange = s.exchange := rfl
@[simp] theorem State.setDch_exchNext (s : State) (n : Nat) (x : DmaCh) : (s.setDch n x).exchNext = s.exchNext := rfl
@[simp] theorem State.setDch_exchAt (s : State) (n : Nat) (x : DmaCh) : (s.setDch n x).exchAt = s.exchAt := rfl
@[simp] theorem State.setDch_exchAtNext (s : State) (n : Nat) (x : DmaCh) : (s.setDch n x).exchAtNext = s.exchAtNext := rfl
@[simp] theorem State.setDch_active (s : State) (n : Nat) (x : DmaCh) : (s.setDch n x).active = s.active := rfl
@[simp] theorem State.setDch_shadow (s : State) (n : Nat) (x : DmaCh) : (s.setDch n x).shadow = s.shadow := rfl
@[simp] theorem State.setDch_engines (s : State) (n : Nat) (x : DmaCh) : (s.setDch n x).engines = s.engines := rfl
@[simp] theorem State.setDch_blocks (s : State) (n : Nat) (x : DmaCh) : (s.setDch n x).blocks = s.blocks := rfl
@[simp] theorem State.setDch_camHdr (s : State) (n : Nat) (x : DmaCh) : (s.setDch n x).camHdr = s.camHdr := rfl
@[simp] theorem State.setDch_camPoints (s : State) (n : Nat) (x : DmaCh) : (s.setDch n x).camPoints = s.camPoints := rfl
@[simp] theorem State.setDch_shafts (s : State) (n : Nat) (x : DmaCh) : (s.setDch n x).shafts = s.shafts := rfl
@[simp] theorem State.setDch_latches (s : State) (n : Nat) (x : DmaCh) : (s.setDch n x).latches = s.latches := rfl
@[simp] theorem State.setDch_fbk (s : State) (n : Nat) (x : DmaCh) : (s.setDch n x).fbk = s.fbk := rfl
@[simp] theorem State.setDch_mts (s : State) (n : Nat) (x : DmaCh) : (s.setDch n x).mts = s.mts := rfl
@[simp] theorem State.setDch_adc (s : State) (n : Nat) (x : DmaCh) : (s.setDch n x).adc = s.adc := rfl
@[simp] theorem State.setDch_emu (s : State) (n : Nat) (x : DmaCh) : (s.setDch n x).emu = s.emu := rfl
@[simp] theorem State.setDch_pwm (s : State) (n : Nat) (x : DmaCh) : (s.setDch n x).pwm = s.pwm := rfl
@[simp] theorem State.setDch_steps (s : State) (n : Nat) (x : DmaCh) : (s.setDch n x).steps = s.steps := rfl
@[simp] theorem State.setDch_ports (s : State) (n : Nat) (x : DmaCh) : (s.setDch n x).ports = s.ports := rfl
@[simp] theorem State.setDch_heads (s : State) (n : Nat) (x : DmaCh) : (s.setDch n x).heads = s.heads := rfl
@[simp] theorem State.setDch_pair (s : State) (n : Nat) (x : DmaCh) : (s.setDch n x).pair = s.pair := rfl
@[simp] theorem State.setDch_island (s : State) (n : Nat) (x : DmaCh) : (s.setDch n x).island = s.island := rfl
@[simp] theorem State.setDch_die (s : State) (n : Nat) (x : DmaCh) : (s.setDch n x).die = s.die := rfl
@[simp] theorem State.setDch_tmu (s : State) (n : Nat) (x : DmaCh) : (s.setDch n x).tmu = s.tmu := rfl
@[simp] theorem State.setDch_macs (s : State) (n : Nat) (x : DmaCh) : (s.setDch n x).macs = s.macs := rfl
@[simp] theorem State.setDch_cans (s : State) (n : Nat) (x : DmaCh) : (s.setDch n x).cans = s.cans := rfl
@[simp] theorem State.setDch_acq (s : State) (n : Nat) (x : DmaCh) : (s.setDch n x).acq = s.acq := rfl
@[simp] theorem State.setDch_inn (s : State) (n : Nat) (x : DmaCh) : (s.setDch n x).inn = s.inn := rfl
@[simp] theorem State.setDch_droppedStops (s : State) (n : Nat) (x : DmaCh) : (s.setDch n x).droppedStops = s.droppedStops := rfl
@[simp] theorem State.setDch_draws (s : State) (n : Nat) (x : DmaCh) : (s.setDch n x).draws = s.draws := rfl
@[simp] theorem State.setDch_ses (s : State) (n : Nat) (x : DmaCh) (j : Nat) : (s.setDch n x).ses j = s.ses j := rfl
@[simp] theorem State.setDch_jrn (s : State) (n : Nat) (x : DmaCh) (j : Nat) : (s.setDch n x).jrn j = s.jrn j := rfl
@[simp] theorem State.setDch_axis (s : State) (n : Nat) (x : DmaCh) (j : Nat) : (s.setDch n x).axis j = s.axis j := rfl
@[simp] theorem State.setDch_group (s : State) (n : Nat) (x : DmaCh) (j : Nat) : (s.setDch n x).group j = s.group j := rfl
@[simp] theorem State.setDch_act (s : State) (n : Nat) (x : DmaCh) (j : Nat) : (s.setDch n x).act j = s.act j := rfl
@[simp] theorem State.setDch_shad (s : State) (n : Nat) (x : DmaCh) (j : Nat) : (s.setDch n x).shad j = s.shad j := rfl
@[simp] theorem State.setDch_eng (s : State) (n : Nat) (x : DmaCh) (j : Nat) : (s.setDch n x).eng j = s.eng j := rfl
@[simp] theorem State.setDch_blk (s : State) (n : Nat) (x : DmaCh) (j : Nat) : (s.setDch n x).blk j = s.blk j := rfl
@[simp] theorem State.setDch_shaft (s : State) (n : Nat) (x : DmaCh) (j : Nat) : (s.setDch n x).shaft j = s.shaft j := rfl
@[simp] theorem State.setDch_latch (s : State) (n : Nat) (x : DmaCh) (j : Nat) : (s.setDch n x).latch j = s.latch j := rfl
@[simp] theorem State.setDch_fb (s : State) (n : Nat) (x : DmaCh) (j : Nat) : (s.setDch n x).fb j = s.fb j := rfl
@[simp] theorem State.setDch_ain (s : State) (n : Nat) (x : DmaCh) (j : Nat) : (s.setDch n x).ain j = s.ain j := rfl
@[simp] theorem State.setDch_em (s : State) (n : Nat) (x : DmaCh) (j : Nat) : (s.setDch n x).em j = s.em j := rfl
@[simp] theorem State.setDch_pw (s : State) (n : Nat) (x : DmaCh) (j : Nat) : (s.setDch n x).pw j = s.pw j := rfl
@[simp] theorem State.setDch_stp (s : State) (n : Nat) (x : DmaCh) (j : Nat) : (s.setDch n x).stp j = s.stp j := rfl
@[simp] theorem State.setDch_port (s : State) (n : Nat) (x : DmaCh) (j : Nat) : (s.setDch n x).port j = s.port j := rfl
@[simp] theorem State.setDch_head (s : State) (n : Nat) (x : DmaCh) (j : Nat) : (s.setDch n x).head j = s.head j := rfl
@[simp] theorem State.setDch_mac (s : State) (n : Nat) (x : DmaCh) (j : Nat) : (s.setDch n x).mac j = s.mac j := rfl
@[simp] theorem State.setDch_can (s : State) (n : Nat) (x : DmaCh) (j : Nat) : (s.setDch n x).can j = s.can j := rfl
@[simp] theorem State.setDch_reg (s : State) (n : Nat) (x : DmaCh) (j : Nat) : (s.setDch n x).reg j = s.reg j := rfl

/-! `State.onInn` writes the field `inn` alone. -/
@[simp] theorem State.onInn_pending (s : State) (g : Innkeeper → Innkeeper) : (s.onInn g).pending = s.pending := rfl
@[simp] theorem State.onInn_part (s : State) (g : Innkeeper → Innkeeper) : (s.onInn g).part = s.part := rfl
@[simp] theorem State.onInn_power (s : State) (g : Innkeeper → Innkeeper) : (s.onInn g).power = s.power := rfl
@[simp] theorem State.onInn_bus (s : State) (g : Innkeeper → Innkeeper) : (s.onInn g).bus = s.bus := rfl
@[simp] theorem State.onInn_regs (s : State) (g : Innkeeper → Innkeeper) : (s.onInn g).regs = s.regs := rfl
@[simp] theorem State.onInn_out (s : State) (g : Innkeeper → Innkeeper) : (s.onInn g).out = s.out := rfl
@[simp] theorem State.onInn_sram (s : State) (g : Innkeeper → Innkeeper) : (s.onInn g).sram = s.sram := rfl
@[simp] theorem State.onInn_sramFlip (s : State) (g : Innkeeper → Innkeeper) : (s.onInn g).sramFlip = s.sramFlip := rfl
@[simp] theorem State.onInn_leMem (s : State) (g : Innkeeper → Innkeeper) : (s.onInn g).leMem = s.leMem := rfl
@[simp] theorem State.onInn_sessions (s : State) (g : Innkeeper → Innkeeper) : (s.onInn g).sessions = s.sessions := rfl
@[simp] theorem State.onInn_journal (s : State) (g : Innkeeper → Innkeeper) : (s.onInn g).journal = s.journal := rfl
@[simp] theorem State.onInn_porter (s : State) (g : Innkeeper → Innkeeper) : (s.onInn g).porter = s.porter := rfl
@[simp] theorem State.onInn_staged (s : State) (g : Innkeeper → Innkeeper) : (s.onInn g).staged = s.staged := rfl
@[simp] theorem State.onInn_params (s : State) (g : Innkeeper → Innkeeper) : (s.onInn g).params = s.params := rfl
@[simp] theorem State.onInn_axes (s : State) (g : Innkeeper → Innkeeper) : (s.onInn g).axes = s.axes := rfl
@[simp] theorem State.onInn_groups (s : State) (g : Innkeeper → Innkeeper) : (s.onInn g).groups = s.groups := rfl
@[simp] theorem State.onInn_exchange (s : State) (g : Innkeeper → Innkeeper) : (s.onInn g).exchange = s.exchange := rfl
@[simp] theorem State.onInn_exchNext (s : State) (g : Innkeeper → Innkeeper) : (s.onInn g).exchNext = s.exchNext := rfl
@[simp] theorem State.onInn_exchAt (s : State) (g : Innkeeper → Innkeeper) : (s.onInn g).exchAt = s.exchAt := rfl
@[simp] theorem State.onInn_exchAtNext (s : State) (g : Innkeeper → Innkeeper) : (s.onInn g).exchAtNext = s.exchAtNext := rfl
@[simp] theorem State.onInn_active (s : State) (g : Innkeeper → Innkeeper) : (s.onInn g).active = s.active := rfl
@[simp] theorem State.onInn_shadow (s : State) (g : Innkeeper → Innkeeper) : (s.onInn g).shadow = s.shadow := rfl
@[simp] theorem State.onInn_engines (s : State) (g : Innkeeper → Innkeeper) : (s.onInn g).engines = s.engines := rfl
@[simp] theorem State.onInn_blocks (s : State) (g : Innkeeper → Innkeeper) : (s.onInn g).blocks = s.blocks := rfl
@[simp] theorem State.onInn_camHdr (s : State) (g : Innkeeper → Innkeeper) : (s.onInn g).camHdr = s.camHdr := rfl
@[simp] theorem State.onInn_camPoints (s : State) (g : Innkeeper → Innkeeper) : (s.onInn g).camPoints = s.camPoints := rfl
@[simp] theorem State.onInn_shafts (s : State) (g : Innkeeper → Innkeeper) : (s.onInn g).shafts = s.shafts := rfl
@[simp] theorem State.onInn_latches (s : State) (g : Innkeeper → Innkeeper) : (s.onInn g).latches = s.latches := rfl
@[simp] theorem State.onInn_fbk (s : State) (g : Innkeeper → Innkeeper) : (s.onInn g).fbk = s.fbk := rfl
@[simp] theorem State.onInn_mts (s : State) (g : Innkeeper → Innkeeper) : (s.onInn g).mts = s.mts := rfl
@[simp] theorem State.onInn_adc (s : State) (g : Innkeeper → Innkeeper) : (s.onInn g).adc = s.adc := rfl
@[simp] theorem State.onInn_emu (s : State) (g : Innkeeper → Innkeeper) : (s.onInn g).emu = s.emu := rfl
@[simp] theorem State.onInn_pwm (s : State) (g : Innkeeper → Innkeeper) : (s.onInn g).pwm = s.pwm := rfl
@[simp] theorem State.onInn_steps (s : State) (g : Innkeeper → Innkeeper) : (s.onInn g).steps = s.steps := rfl
@[simp] theorem State.onInn_ports (s : State) (g : Innkeeper → Innkeeper) : (s.onInn g).ports = s.ports := rfl
@[simp] theorem State.onInn_heads (s : State) (g : Innkeeper → Innkeeper) : (s.onInn g).heads = s.heads := rfl
@[simp] theorem State.onInn_pair (s : State) (g : Innkeeper → Innkeeper) : (s.onInn g).pair = s.pair := rfl
@[simp] theorem State.onInn_island (s : State) (g : Innkeeper → Innkeeper) : (s.onInn g).island = s.island := rfl
@[simp] theorem State.onInn_die (s : State) (g : Innkeeper → Innkeeper) : (s.onInn g).die = s.die := rfl
@[simp] theorem State.onInn_tmu (s : State) (g : Innkeeper → Innkeeper) : (s.onInn g).tmu = s.tmu := rfl
@[simp] theorem State.onInn_macs (s : State) (g : Innkeeper → Innkeeper) : (s.onInn g).macs = s.macs := rfl
@[simp] theorem State.onInn_cans (s : State) (g : Innkeeper → Innkeeper) : (s.onInn g).cans = s.cans := rfl
@[simp] theorem State.onInn_dma (s : State) (g : Innkeeper → Innkeeper) : (s.onInn g).dma = s.dma := rfl
@[simp] theorem State.onInn_acq (s : State) (g : Innkeeper → Innkeeper) : (s.onInn g).acq = s.acq := rfl
@[simp] theorem State.onInn_droppedStops (s : State) (g : Innkeeper → Innkeeper) : (s.onInn g).droppedStops = s.droppedStops := rfl
@[simp] theorem State.onInn_draws (s : State) (g : Innkeeper → Innkeeper) : (s.onInn g).draws = s.draws := rfl
@[simp] theorem State.onInn_ses (s : State) (g : Innkeeper → Innkeeper) (j : Nat) : (s.onInn g).ses j = s.ses j := rfl
@[simp] theorem State.onInn_jrn (s : State) (g : Innkeeper → Innkeeper) (j : Nat) : (s.onInn g).jrn j = s.jrn j := rfl
@[simp] theorem State.onInn_axis (s : State) (g : Innkeeper → Innkeeper) (j : Nat) : (s.onInn g).axis j = s.axis j := rfl
@[simp] theorem State.onInn_group (s : State) (g : Innkeeper → Innkeeper) (j : Nat) : (s.onInn g).group j = s.group j := rfl
@[simp] theorem State.onInn_act (s : State) (g : Innkeeper → Innkeeper) (j : Nat) : (s.onInn g).act j = s.act j := rfl
@[simp] theorem State.onInn_shad (s : State) (g : Innkeeper → Innkeeper) (j : Nat) : (s.onInn g).shad j = s.shad j := rfl
@[simp] theorem State.onInn_eng (s : State) (g : Innkeeper → Innkeeper) (j : Nat) : (s.onInn g).eng j = s.eng j := rfl
@[simp] theorem State.onInn_blk (s : State) (g : Innkeeper → Innkeeper) (j : Nat) : (s.onInn g).blk j = s.blk j := rfl
@[simp] theorem State.onInn_shaft (s : State) (g : Innkeeper → Innkeeper) (j : Nat) : (s.onInn g).shaft j = s.shaft j := rfl
@[simp] theorem State.onInn_latch (s : State) (g : Innkeeper → Innkeeper) (j : Nat) : (s.onInn g).latch j = s.latch j := rfl
@[simp] theorem State.onInn_fb (s : State) (g : Innkeeper → Innkeeper) (j : Nat) : (s.onInn g).fb j = s.fb j := rfl
@[simp] theorem State.onInn_ain (s : State) (g : Innkeeper → Innkeeper) (j : Nat) : (s.onInn g).ain j = s.ain j := rfl
@[simp] theorem State.onInn_em (s : State) (g : Innkeeper → Innkeeper) (j : Nat) : (s.onInn g).em j = s.em j := rfl
@[simp] theorem State.onInn_pw (s : State) (g : Innkeeper → Innkeeper) (j : Nat) : (s.onInn g).pw j = s.pw j := rfl
@[simp] theorem State.onInn_stp (s : State) (g : Innkeeper → Innkeeper) (j : Nat) : (s.onInn g).stp j = s.stp j := rfl
@[simp] theorem State.onInn_port (s : State) (g : Innkeeper → Innkeeper) (j : Nat) : (s.onInn g).port j = s.port j := rfl
@[simp] theorem State.onInn_head (s : State) (g : Innkeeper → Innkeeper) (j : Nat) : (s.onInn g).head j = s.head j := rfl
@[simp] theorem State.onInn_mac (s : State) (g : Innkeeper → Innkeeper) (j : Nat) : (s.onInn g).mac j = s.mac j := rfl
@[simp] theorem State.onInn_can (s : State) (g : Innkeeper → Innkeeper) (j : Nat) : (s.onInn g).can j = s.can j := rfl
@[simp] theorem State.onInn_dch (s : State) (g : Innkeeper → Innkeeper) (j : Nat) : (s.onInn g).dch j = s.dch j := rfl
@[simp] theorem State.onInn_reg (s : State) (g : Innkeeper → Innkeeper) (j : Nat) : (s.onInn g).reg j = s.reg j := rfl
@[simp] theorem State.onInn_self (s : State) (g : Innkeeper → Innkeeper) : (s.onInn g).inn = g s.inn := rfl

/-! `State.onIsland` writes the field `island` alone. -/
@[simp] theorem State.onIsland_pending (s : State) (g : Island → Island) : (s.onIsland g).pending = s.pending := rfl
@[simp] theorem State.onIsland_part (s : State) (g : Island → Island) : (s.onIsland g).part = s.part := rfl
@[simp] theorem State.onIsland_power (s : State) (g : Island → Island) : (s.onIsland g).power = s.power := rfl
@[simp] theorem State.onIsland_bus (s : State) (g : Island → Island) : (s.onIsland g).bus = s.bus := rfl
@[simp] theorem State.onIsland_regs (s : State) (g : Island → Island) : (s.onIsland g).regs = s.regs := rfl
@[simp] theorem State.onIsland_out (s : State) (g : Island → Island) : (s.onIsland g).out = s.out := rfl
@[simp] theorem State.onIsland_sram (s : State) (g : Island → Island) : (s.onIsland g).sram = s.sram := rfl
@[simp] theorem State.onIsland_sramFlip (s : State) (g : Island → Island) : (s.onIsland g).sramFlip = s.sramFlip := rfl
@[simp] theorem State.onIsland_leMem (s : State) (g : Island → Island) : (s.onIsland g).leMem = s.leMem := rfl
@[simp] theorem State.onIsland_sessions (s : State) (g : Island → Island) : (s.onIsland g).sessions = s.sessions := rfl
@[simp] theorem State.onIsland_journal (s : State) (g : Island → Island) : (s.onIsland g).journal = s.journal := rfl
@[simp] theorem State.onIsland_porter (s : State) (g : Island → Island) : (s.onIsland g).porter = s.porter := rfl
@[simp] theorem State.onIsland_staged (s : State) (g : Island → Island) : (s.onIsland g).staged = s.staged := rfl
@[simp] theorem State.onIsland_params (s : State) (g : Island → Island) : (s.onIsland g).params = s.params := rfl
@[simp] theorem State.onIsland_axes (s : State) (g : Island → Island) : (s.onIsland g).axes = s.axes := rfl
@[simp] theorem State.onIsland_groups (s : State) (g : Island → Island) : (s.onIsland g).groups = s.groups := rfl
@[simp] theorem State.onIsland_exchange (s : State) (g : Island → Island) : (s.onIsland g).exchange = s.exchange := rfl
@[simp] theorem State.onIsland_exchNext (s : State) (g : Island → Island) : (s.onIsland g).exchNext = s.exchNext := rfl
@[simp] theorem State.onIsland_exchAt (s : State) (g : Island → Island) : (s.onIsland g).exchAt = s.exchAt := rfl
@[simp] theorem State.onIsland_exchAtNext (s : State) (g : Island → Island) : (s.onIsland g).exchAtNext = s.exchAtNext := rfl
@[simp] theorem State.onIsland_active (s : State) (g : Island → Island) : (s.onIsland g).active = s.active := rfl
@[simp] theorem State.onIsland_shadow (s : State) (g : Island → Island) : (s.onIsland g).shadow = s.shadow := rfl
@[simp] theorem State.onIsland_engines (s : State) (g : Island → Island) : (s.onIsland g).engines = s.engines := rfl
@[simp] theorem State.onIsland_blocks (s : State) (g : Island → Island) : (s.onIsland g).blocks = s.blocks := rfl
@[simp] theorem State.onIsland_camHdr (s : State) (g : Island → Island) : (s.onIsland g).camHdr = s.camHdr := rfl
@[simp] theorem State.onIsland_camPoints (s : State) (g : Island → Island) : (s.onIsland g).camPoints = s.camPoints := rfl
@[simp] theorem State.onIsland_shafts (s : State) (g : Island → Island) : (s.onIsland g).shafts = s.shafts := rfl
@[simp] theorem State.onIsland_latches (s : State) (g : Island → Island) : (s.onIsland g).latches = s.latches := rfl
@[simp] theorem State.onIsland_fbk (s : State) (g : Island → Island) : (s.onIsland g).fbk = s.fbk := rfl
@[simp] theorem State.onIsland_mts (s : State) (g : Island → Island) : (s.onIsland g).mts = s.mts := rfl
@[simp] theorem State.onIsland_adc (s : State) (g : Island → Island) : (s.onIsland g).adc = s.adc := rfl
@[simp] theorem State.onIsland_emu (s : State) (g : Island → Island) : (s.onIsland g).emu = s.emu := rfl
@[simp] theorem State.onIsland_pwm (s : State) (g : Island → Island) : (s.onIsland g).pwm = s.pwm := rfl
@[simp] theorem State.onIsland_steps (s : State) (g : Island → Island) : (s.onIsland g).steps = s.steps := rfl
@[simp] theorem State.onIsland_ports (s : State) (g : Island → Island) : (s.onIsland g).ports = s.ports := rfl
@[simp] theorem State.onIsland_heads (s : State) (g : Island → Island) : (s.onIsland g).heads = s.heads := rfl
@[simp] theorem State.onIsland_pair (s : State) (g : Island → Island) : (s.onIsland g).pair = s.pair := rfl
@[simp] theorem State.onIsland_die (s : State) (g : Island → Island) : (s.onIsland g).die = s.die := rfl
@[simp] theorem State.onIsland_tmu (s : State) (g : Island → Island) : (s.onIsland g).tmu = s.tmu := rfl
@[simp] theorem State.onIsland_macs (s : State) (g : Island → Island) : (s.onIsland g).macs = s.macs := rfl
@[simp] theorem State.onIsland_cans (s : State) (g : Island → Island) : (s.onIsland g).cans = s.cans := rfl
@[simp] theorem State.onIsland_dma (s : State) (g : Island → Island) : (s.onIsland g).dma = s.dma := rfl
@[simp] theorem State.onIsland_acq (s : State) (g : Island → Island) : (s.onIsland g).acq = s.acq := rfl
@[simp] theorem State.onIsland_inn (s : State) (g : Island → Island) : (s.onIsland g).inn = s.inn := rfl
@[simp] theorem State.onIsland_droppedStops (s : State) (g : Island → Island) : (s.onIsland g).droppedStops = s.droppedStops := rfl
@[simp] theorem State.onIsland_draws (s : State) (g : Island → Island) : (s.onIsland g).draws = s.draws := rfl
@[simp] theorem State.onIsland_ses (s : State) (g : Island → Island) (j : Nat) : (s.onIsland g).ses j = s.ses j := rfl
@[simp] theorem State.onIsland_jrn (s : State) (g : Island → Island) (j : Nat) : (s.onIsland g).jrn j = s.jrn j := rfl
@[simp] theorem State.onIsland_axis (s : State) (g : Island → Island) (j : Nat) : (s.onIsland g).axis j = s.axis j := rfl
@[simp] theorem State.onIsland_group (s : State) (g : Island → Island) (j : Nat) : (s.onIsland g).group j = s.group j := rfl
@[simp] theorem State.onIsland_act (s : State) (g : Island → Island) (j : Nat) : (s.onIsland g).act j = s.act j := rfl
@[simp] theorem State.onIsland_shad (s : State) (g : Island → Island) (j : Nat) : (s.onIsland g).shad j = s.shad j := rfl
@[simp] theorem State.onIsland_eng (s : State) (g : Island → Island) (j : Nat) : (s.onIsland g).eng j = s.eng j := rfl
@[simp] theorem State.onIsland_blk (s : State) (g : Island → Island) (j : Nat) : (s.onIsland g).blk j = s.blk j := rfl
@[simp] theorem State.onIsland_shaft (s : State) (g : Island → Island) (j : Nat) : (s.onIsland g).shaft j = s.shaft j := rfl
@[simp] theorem State.onIsland_latch (s : State) (g : Island → Island) (j : Nat) : (s.onIsland g).latch j = s.latch j := rfl
@[simp] theorem State.onIsland_fb (s : State) (g : Island → Island) (j : Nat) : (s.onIsland g).fb j = s.fb j := rfl
@[simp] theorem State.onIsland_ain (s : State) (g : Island → Island) (j : Nat) : (s.onIsland g).ain j = s.ain j := rfl
@[simp] theorem State.onIsland_em (s : State) (g : Island → Island) (j : Nat) : (s.onIsland g).em j = s.em j := rfl
@[simp] theorem State.onIsland_pw (s : State) (g : Island → Island) (j : Nat) : (s.onIsland g).pw j = s.pw j := rfl
@[simp] theorem State.onIsland_stp (s : State) (g : Island → Island) (j : Nat) : (s.onIsland g).stp j = s.stp j := rfl
@[simp] theorem State.onIsland_port (s : State) (g : Island → Island) (j : Nat) : (s.onIsland g).port j = s.port j := rfl
@[simp] theorem State.onIsland_head (s : State) (g : Island → Island) (j : Nat) : (s.onIsland g).head j = s.head j := rfl
@[simp] theorem State.onIsland_mac (s : State) (g : Island → Island) (j : Nat) : (s.onIsland g).mac j = s.mac j := rfl
@[simp] theorem State.onIsland_can (s : State) (g : Island → Island) (j : Nat) : (s.onIsland g).can j = s.can j := rfl
@[simp] theorem State.onIsland_dch (s : State) (g : Island → Island) (j : Nat) : (s.onIsland g).dch j = s.dch j := rfl
@[simp] theorem State.onIsland_reg (s : State) (g : Island → Island) (j : Nat) : (s.onIsland g).reg j = s.reg j := rfl
@[simp] theorem State.onIsland_self (s : State) (g : Island → Island) : (s.onIsland g).island = g s.island := rfl

/-! `State.onDie` writes the field `die` alone. -/
@[simp] theorem State.onDie_pending (s : State) (g : FieldDie → FieldDie) : (s.onDie g).pending = s.pending := rfl
@[simp] theorem State.onDie_part (s : State) (g : FieldDie → FieldDie) : (s.onDie g).part = s.part := rfl
@[simp] theorem State.onDie_power (s : State) (g : FieldDie → FieldDie) : (s.onDie g).power = s.power := rfl
@[simp] theorem State.onDie_bus (s : State) (g : FieldDie → FieldDie) : (s.onDie g).bus = s.bus := rfl
@[simp] theorem State.onDie_regs (s : State) (g : FieldDie → FieldDie) : (s.onDie g).regs = s.regs := rfl
@[simp] theorem State.onDie_out (s : State) (g : FieldDie → FieldDie) : (s.onDie g).out = s.out := rfl
@[simp] theorem State.onDie_sram (s : State) (g : FieldDie → FieldDie) : (s.onDie g).sram = s.sram := rfl
@[simp] theorem State.onDie_sramFlip (s : State) (g : FieldDie → FieldDie) : (s.onDie g).sramFlip = s.sramFlip := rfl
@[simp] theorem State.onDie_leMem (s : State) (g : FieldDie → FieldDie) : (s.onDie g).leMem = s.leMem := rfl
@[simp] theorem State.onDie_sessions (s : State) (g : FieldDie → FieldDie) : (s.onDie g).sessions = s.sessions := rfl
@[simp] theorem State.onDie_journal (s : State) (g : FieldDie → FieldDie) : (s.onDie g).journal = s.journal := rfl
@[simp] theorem State.onDie_porter (s : State) (g : FieldDie → FieldDie) : (s.onDie g).porter = s.porter := rfl
@[simp] theorem State.onDie_staged (s : State) (g : FieldDie → FieldDie) : (s.onDie g).staged = s.staged := rfl
@[simp] theorem State.onDie_params (s : State) (g : FieldDie → FieldDie) : (s.onDie g).params = s.params := rfl
@[simp] theorem State.onDie_axes (s : State) (g : FieldDie → FieldDie) : (s.onDie g).axes = s.axes := rfl
@[simp] theorem State.onDie_groups (s : State) (g : FieldDie → FieldDie) : (s.onDie g).groups = s.groups := rfl
@[simp] theorem State.onDie_exchange (s : State) (g : FieldDie → FieldDie) : (s.onDie g).exchange = s.exchange := rfl
@[simp] theorem State.onDie_exchNext (s : State) (g : FieldDie → FieldDie) : (s.onDie g).exchNext = s.exchNext := rfl
@[simp] theorem State.onDie_exchAt (s : State) (g : FieldDie → FieldDie) : (s.onDie g).exchAt = s.exchAt := rfl
@[simp] theorem State.onDie_exchAtNext (s : State) (g : FieldDie → FieldDie) : (s.onDie g).exchAtNext = s.exchAtNext := rfl
@[simp] theorem State.onDie_active (s : State) (g : FieldDie → FieldDie) : (s.onDie g).active = s.active := rfl
@[simp] theorem State.onDie_shadow (s : State) (g : FieldDie → FieldDie) : (s.onDie g).shadow = s.shadow := rfl
@[simp] theorem State.onDie_engines (s : State) (g : FieldDie → FieldDie) : (s.onDie g).engines = s.engines := rfl
@[simp] theorem State.onDie_blocks (s : State) (g : FieldDie → FieldDie) : (s.onDie g).blocks = s.blocks := rfl
@[simp] theorem State.onDie_camHdr (s : State) (g : FieldDie → FieldDie) : (s.onDie g).camHdr = s.camHdr := rfl
@[simp] theorem State.onDie_camPoints (s : State) (g : FieldDie → FieldDie) : (s.onDie g).camPoints = s.camPoints := rfl
@[simp] theorem State.onDie_shafts (s : State) (g : FieldDie → FieldDie) : (s.onDie g).shafts = s.shafts := rfl
@[simp] theorem State.onDie_latches (s : State) (g : FieldDie → FieldDie) : (s.onDie g).latches = s.latches := rfl
@[simp] theorem State.onDie_fbk (s : State) (g : FieldDie → FieldDie) : (s.onDie g).fbk = s.fbk := rfl
@[simp] theorem State.onDie_mts (s : State) (g : FieldDie → FieldDie) : (s.onDie g).mts = s.mts := rfl
@[simp] theorem State.onDie_adc (s : State) (g : FieldDie → FieldDie) : (s.onDie g).adc = s.adc := rfl
@[simp] theorem State.onDie_emu (s : State) (g : FieldDie → FieldDie) : (s.onDie g).emu = s.emu := rfl
@[simp] theorem State.onDie_pwm (s : State) (g : FieldDie → FieldDie) : (s.onDie g).pwm = s.pwm := rfl
@[simp] theorem State.onDie_steps (s : State) (g : FieldDie → FieldDie) : (s.onDie g).steps = s.steps := rfl
@[simp] theorem State.onDie_ports (s : State) (g : FieldDie → FieldDie) : (s.onDie g).ports = s.ports := rfl
@[simp] theorem State.onDie_heads (s : State) (g : FieldDie → FieldDie) : (s.onDie g).heads = s.heads := rfl
@[simp] theorem State.onDie_pair (s : State) (g : FieldDie → FieldDie) : (s.onDie g).pair = s.pair := rfl
@[simp] theorem State.onDie_island (s : State) (g : FieldDie → FieldDie) : (s.onDie g).island = s.island := rfl
@[simp] theorem State.onDie_tmu (s : State) (g : FieldDie → FieldDie) : (s.onDie g).tmu = s.tmu := rfl
@[simp] theorem State.onDie_macs (s : State) (g : FieldDie → FieldDie) : (s.onDie g).macs = s.macs := rfl
@[simp] theorem State.onDie_cans (s : State) (g : FieldDie → FieldDie) : (s.onDie g).cans = s.cans := rfl
@[simp] theorem State.onDie_dma (s : State) (g : FieldDie → FieldDie) : (s.onDie g).dma = s.dma := rfl
@[simp] theorem State.onDie_acq (s : State) (g : FieldDie → FieldDie) : (s.onDie g).acq = s.acq := rfl
@[simp] theorem State.onDie_inn (s : State) (g : FieldDie → FieldDie) : (s.onDie g).inn = s.inn := rfl
@[simp] theorem State.onDie_droppedStops (s : State) (g : FieldDie → FieldDie) : (s.onDie g).droppedStops = s.droppedStops := rfl
@[simp] theorem State.onDie_draws (s : State) (g : FieldDie → FieldDie) : (s.onDie g).draws = s.draws := rfl
@[simp] theorem State.onDie_ses (s : State) (g : FieldDie → FieldDie) (j : Nat) : (s.onDie g).ses j = s.ses j := rfl
@[simp] theorem State.onDie_jrn (s : State) (g : FieldDie → FieldDie) (j : Nat) : (s.onDie g).jrn j = s.jrn j := rfl
@[simp] theorem State.onDie_axis (s : State) (g : FieldDie → FieldDie) (j : Nat) : (s.onDie g).axis j = s.axis j := rfl
@[simp] theorem State.onDie_group (s : State) (g : FieldDie → FieldDie) (j : Nat) : (s.onDie g).group j = s.group j := rfl
@[simp] theorem State.onDie_act (s : State) (g : FieldDie → FieldDie) (j : Nat) : (s.onDie g).act j = s.act j := rfl
@[simp] theorem State.onDie_shad (s : State) (g : FieldDie → FieldDie) (j : Nat) : (s.onDie g).shad j = s.shad j := rfl
@[simp] theorem State.onDie_eng (s : State) (g : FieldDie → FieldDie) (j : Nat) : (s.onDie g).eng j = s.eng j := rfl
@[simp] theorem State.onDie_blk (s : State) (g : FieldDie → FieldDie) (j : Nat) : (s.onDie g).blk j = s.blk j := rfl
@[simp] theorem State.onDie_shaft (s : State) (g : FieldDie → FieldDie) (j : Nat) : (s.onDie g).shaft j = s.shaft j := rfl
@[simp] theorem State.onDie_latch (s : State) (g : FieldDie → FieldDie) (j : Nat) : (s.onDie g).latch j = s.latch j := rfl
@[simp] theorem State.onDie_fb (s : State) (g : FieldDie → FieldDie) (j : Nat) : (s.onDie g).fb j = s.fb j := rfl
@[simp] theorem State.onDie_ain (s : State) (g : FieldDie → FieldDie) (j : Nat) : (s.onDie g).ain j = s.ain j := rfl
@[simp] theorem State.onDie_em (s : State) (g : FieldDie → FieldDie) (j : Nat) : (s.onDie g).em j = s.em j := rfl
@[simp] theorem State.onDie_pw (s : State) (g : FieldDie → FieldDie) (j : Nat) : (s.onDie g).pw j = s.pw j := rfl
@[simp] theorem State.onDie_stp (s : State) (g : FieldDie → FieldDie) (j : Nat) : (s.onDie g).stp j = s.stp j := rfl
@[simp] theorem State.onDie_port (s : State) (g : FieldDie → FieldDie) (j : Nat) : (s.onDie g).port j = s.port j := rfl
@[simp] theorem State.onDie_head (s : State) (g : FieldDie → FieldDie) (j : Nat) : (s.onDie g).head j = s.head j := rfl
@[simp] theorem State.onDie_mac (s : State) (g : FieldDie → FieldDie) (j : Nat) : (s.onDie g).mac j = s.mac j := rfl
@[simp] theorem State.onDie_can (s : State) (g : FieldDie → FieldDie) (j : Nat) : (s.onDie g).can j = s.can j := rfl
@[simp] theorem State.onDie_dch (s : State) (g : FieldDie → FieldDie) (j : Nat) : (s.onDie g).dch j = s.dch j := rfl
@[simp] theorem State.onDie_reg (s : State) (g : FieldDie → FieldDie) (j : Nat) : (s.onDie g).reg j = s.reg j := rfl
@[simp] theorem State.onDie_self (s : State) (g : FieldDie → FieldDie) : (s.onDie g).die = g s.die := rfl

/-! `State.onPair` writes the field `pair` alone. -/
@[simp] theorem State.onPair_pending (s : State) (g : Pair → Pair) : (s.onPair g).pending = s.pending := rfl
@[simp] theorem State.onPair_part (s : State) (g : Pair → Pair) : (s.onPair g).part = s.part := rfl
@[simp] theorem State.onPair_power (s : State) (g : Pair → Pair) : (s.onPair g).power = s.power := rfl
@[simp] theorem State.onPair_bus (s : State) (g : Pair → Pair) : (s.onPair g).bus = s.bus := rfl
@[simp] theorem State.onPair_regs (s : State) (g : Pair → Pair) : (s.onPair g).regs = s.regs := rfl
@[simp] theorem State.onPair_out (s : State) (g : Pair → Pair) : (s.onPair g).out = s.out := rfl
@[simp] theorem State.onPair_sram (s : State) (g : Pair → Pair) : (s.onPair g).sram = s.sram := rfl
@[simp] theorem State.onPair_sramFlip (s : State) (g : Pair → Pair) : (s.onPair g).sramFlip = s.sramFlip := rfl
@[simp] theorem State.onPair_leMem (s : State) (g : Pair → Pair) : (s.onPair g).leMem = s.leMem := rfl
@[simp] theorem State.onPair_sessions (s : State) (g : Pair → Pair) : (s.onPair g).sessions = s.sessions := rfl
@[simp] theorem State.onPair_journal (s : State) (g : Pair → Pair) : (s.onPair g).journal = s.journal := rfl
@[simp] theorem State.onPair_porter (s : State) (g : Pair → Pair) : (s.onPair g).porter = s.porter := rfl
@[simp] theorem State.onPair_staged (s : State) (g : Pair → Pair) : (s.onPair g).staged = s.staged := rfl
@[simp] theorem State.onPair_params (s : State) (g : Pair → Pair) : (s.onPair g).params = s.params := rfl
@[simp] theorem State.onPair_axes (s : State) (g : Pair → Pair) : (s.onPair g).axes = s.axes := rfl
@[simp] theorem State.onPair_groups (s : State) (g : Pair → Pair) : (s.onPair g).groups = s.groups := rfl
@[simp] theorem State.onPair_exchange (s : State) (g : Pair → Pair) : (s.onPair g).exchange = s.exchange := rfl
@[simp] theorem State.onPair_exchNext (s : State) (g : Pair → Pair) : (s.onPair g).exchNext = s.exchNext := rfl
@[simp] theorem State.onPair_exchAt (s : State) (g : Pair → Pair) : (s.onPair g).exchAt = s.exchAt := rfl
@[simp] theorem State.onPair_exchAtNext (s : State) (g : Pair → Pair) : (s.onPair g).exchAtNext = s.exchAtNext := rfl
@[simp] theorem State.onPair_active (s : State) (g : Pair → Pair) : (s.onPair g).active = s.active := rfl
@[simp] theorem State.onPair_shadow (s : State) (g : Pair → Pair) : (s.onPair g).shadow = s.shadow := rfl
@[simp] theorem State.onPair_engines (s : State) (g : Pair → Pair) : (s.onPair g).engines = s.engines := rfl
@[simp] theorem State.onPair_blocks (s : State) (g : Pair → Pair) : (s.onPair g).blocks = s.blocks := rfl
@[simp] theorem State.onPair_camHdr (s : State) (g : Pair → Pair) : (s.onPair g).camHdr = s.camHdr := rfl
@[simp] theorem State.onPair_camPoints (s : State) (g : Pair → Pair) : (s.onPair g).camPoints = s.camPoints := rfl
@[simp] theorem State.onPair_shafts (s : State) (g : Pair → Pair) : (s.onPair g).shafts = s.shafts := rfl
@[simp] theorem State.onPair_latches (s : State) (g : Pair → Pair) : (s.onPair g).latches = s.latches := rfl
@[simp] theorem State.onPair_fbk (s : State) (g : Pair → Pair) : (s.onPair g).fbk = s.fbk := rfl
@[simp] theorem State.onPair_mts (s : State) (g : Pair → Pair) : (s.onPair g).mts = s.mts := rfl
@[simp] theorem State.onPair_adc (s : State) (g : Pair → Pair) : (s.onPair g).adc = s.adc := rfl
@[simp] theorem State.onPair_emu (s : State) (g : Pair → Pair) : (s.onPair g).emu = s.emu := rfl
@[simp] theorem State.onPair_pwm (s : State) (g : Pair → Pair) : (s.onPair g).pwm = s.pwm := rfl
@[simp] theorem State.onPair_steps (s : State) (g : Pair → Pair) : (s.onPair g).steps = s.steps := rfl
@[simp] theorem State.onPair_ports (s : State) (g : Pair → Pair) : (s.onPair g).ports = s.ports := rfl
@[simp] theorem State.onPair_heads (s : State) (g : Pair → Pair) : (s.onPair g).heads = s.heads := rfl
@[simp] theorem State.onPair_island (s : State) (g : Pair → Pair) : (s.onPair g).island = s.island := rfl
@[simp] theorem State.onPair_die (s : State) (g : Pair → Pair) : (s.onPair g).die = s.die := rfl
@[simp] theorem State.onPair_tmu (s : State) (g : Pair → Pair) : (s.onPair g).tmu = s.tmu := rfl
@[simp] theorem State.onPair_macs (s : State) (g : Pair → Pair) : (s.onPair g).macs = s.macs := rfl
@[simp] theorem State.onPair_cans (s : State) (g : Pair → Pair) : (s.onPair g).cans = s.cans := rfl
@[simp] theorem State.onPair_dma (s : State) (g : Pair → Pair) : (s.onPair g).dma = s.dma := rfl
@[simp] theorem State.onPair_acq (s : State) (g : Pair → Pair) : (s.onPair g).acq = s.acq := rfl
@[simp] theorem State.onPair_inn (s : State) (g : Pair → Pair) : (s.onPair g).inn = s.inn := rfl
@[simp] theorem State.onPair_droppedStops (s : State) (g : Pair → Pair) : (s.onPair g).droppedStops = s.droppedStops := rfl
@[simp] theorem State.onPair_draws (s : State) (g : Pair → Pair) : (s.onPair g).draws = s.draws := rfl
@[simp] theorem State.onPair_ses (s : State) (g : Pair → Pair) (j : Nat) : (s.onPair g).ses j = s.ses j := rfl
@[simp] theorem State.onPair_jrn (s : State) (g : Pair → Pair) (j : Nat) : (s.onPair g).jrn j = s.jrn j := rfl
@[simp] theorem State.onPair_axis (s : State) (g : Pair → Pair) (j : Nat) : (s.onPair g).axis j = s.axis j := rfl
@[simp] theorem State.onPair_group (s : State) (g : Pair → Pair) (j : Nat) : (s.onPair g).group j = s.group j := rfl
@[simp] theorem State.onPair_act (s : State) (g : Pair → Pair) (j : Nat) : (s.onPair g).act j = s.act j := rfl
@[simp] theorem State.onPair_shad (s : State) (g : Pair → Pair) (j : Nat) : (s.onPair g).shad j = s.shad j := rfl
@[simp] theorem State.onPair_eng (s : State) (g : Pair → Pair) (j : Nat) : (s.onPair g).eng j = s.eng j := rfl
@[simp] theorem State.onPair_blk (s : State) (g : Pair → Pair) (j : Nat) : (s.onPair g).blk j = s.blk j := rfl
@[simp] theorem State.onPair_shaft (s : State) (g : Pair → Pair) (j : Nat) : (s.onPair g).shaft j = s.shaft j := rfl
@[simp] theorem State.onPair_latch (s : State) (g : Pair → Pair) (j : Nat) : (s.onPair g).latch j = s.latch j := rfl
@[simp] theorem State.onPair_fb (s : State) (g : Pair → Pair) (j : Nat) : (s.onPair g).fb j = s.fb j := rfl
@[simp] theorem State.onPair_ain (s : State) (g : Pair → Pair) (j : Nat) : (s.onPair g).ain j = s.ain j := rfl
@[simp] theorem State.onPair_em (s : State) (g : Pair → Pair) (j : Nat) : (s.onPair g).em j = s.em j := rfl
@[simp] theorem State.onPair_pw (s : State) (g : Pair → Pair) (j : Nat) : (s.onPair g).pw j = s.pw j := rfl
@[simp] theorem State.onPair_stp (s : State) (g : Pair → Pair) (j : Nat) : (s.onPair g).stp j = s.stp j := rfl
@[simp] theorem State.onPair_port (s : State) (g : Pair → Pair) (j : Nat) : (s.onPair g).port j = s.port j := rfl
@[simp] theorem State.onPair_head (s : State) (g : Pair → Pair) (j : Nat) : (s.onPair g).head j = s.head j := rfl
@[simp] theorem State.onPair_mac (s : State) (g : Pair → Pair) (j : Nat) : (s.onPair g).mac j = s.mac j := rfl
@[simp] theorem State.onPair_can (s : State) (g : Pair → Pair) (j : Nat) : (s.onPair g).can j = s.can j := rfl
@[simp] theorem State.onPair_dch (s : State) (g : Pair → Pair) (j : Nat) : (s.onPair g).dch j = s.dch j := rfl
@[simp] theorem State.onPair_reg (s : State) (g : Pair → Pair) (j : Nat) : (s.onPair g).reg j = s.reg j := rfl
@[simp] theorem State.onPair_self (s : State) (g : Pair → Pair) : (s.onPair g).pair = g s.pair := rfl

/-! `State.onTmu` writes the field `tmu` alone. -/
@[simp] theorem State.onTmu_pending (s : State) (g : Tmu → Tmu) : (s.onTmu g).pending = s.pending := rfl
@[simp] theorem State.onTmu_part (s : State) (g : Tmu → Tmu) : (s.onTmu g).part = s.part := rfl
@[simp] theorem State.onTmu_power (s : State) (g : Tmu → Tmu) : (s.onTmu g).power = s.power := rfl
@[simp] theorem State.onTmu_bus (s : State) (g : Tmu → Tmu) : (s.onTmu g).bus = s.bus := rfl
@[simp] theorem State.onTmu_regs (s : State) (g : Tmu → Tmu) : (s.onTmu g).regs = s.regs := rfl
@[simp] theorem State.onTmu_out (s : State) (g : Tmu → Tmu) : (s.onTmu g).out = s.out := rfl
@[simp] theorem State.onTmu_sram (s : State) (g : Tmu → Tmu) : (s.onTmu g).sram = s.sram := rfl
@[simp] theorem State.onTmu_sramFlip (s : State) (g : Tmu → Tmu) : (s.onTmu g).sramFlip = s.sramFlip := rfl
@[simp] theorem State.onTmu_leMem (s : State) (g : Tmu → Tmu) : (s.onTmu g).leMem = s.leMem := rfl
@[simp] theorem State.onTmu_sessions (s : State) (g : Tmu → Tmu) : (s.onTmu g).sessions = s.sessions := rfl
@[simp] theorem State.onTmu_journal (s : State) (g : Tmu → Tmu) : (s.onTmu g).journal = s.journal := rfl
@[simp] theorem State.onTmu_porter (s : State) (g : Tmu → Tmu) : (s.onTmu g).porter = s.porter := rfl
@[simp] theorem State.onTmu_staged (s : State) (g : Tmu → Tmu) : (s.onTmu g).staged = s.staged := rfl
@[simp] theorem State.onTmu_params (s : State) (g : Tmu → Tmu) : (s.onTmu g).params = s.params := rfl
@[simp] theorem State.onTmu_axes (s : State) (g : Tmu → Tmu) : (s.onTmu g).axes = s.axes := rfl
@[simp] theorem State.onTmu_groups (s : State) (g : Tmu → Tmu) : (s.onTmu g).groups = s.groups := rfl
@[simp] theorem State.onTmu_exchange (s : State) (g : Tmu → Tmu) : (s.onTmu g).exchange = s.exchange := rfl
@[simp] theorem State.onTmu_exchNext (s : State) (g : Tmu → Tmu) : (s.onTmu g).exchNext = s.exchNext := rfl
@[simp] theorem State.onTmu_exchAt (s : State) (g : Tmu → Tmu) : (s.onTmu g).exchAt = s.exchAt := rfl
@[simp] theorem State.onTmu_exchAtNext (s : State) (g : Tmu → Tmu) : (s.onTmu g).exchAtNext = s.exchAtNext := rfl
@[simp] theorem State.onTmu_active (s : State) (g : Tmu → Tmu) : (s.onTmu g).active = s.active := rfl
@[simp] theorem State.onTmu_shadow (s : State) (g : Tmu → Tmu) : (s.onTmu g).shadow = s.shadow := rfl
@[simp] theorem State.onTmu_engines (s : State) (g : Tmu → Tmu) : (s.onTmu g).engines = s.engines := rfl
@[simp] theorem State.onTmu_blocks (s : State) (g : Tmu → Tmu) : (s.onTmu g).blocks = s.blocks := rfl
@[simp] theorem State.onTmu_camHdr (s : State) (g : Tmu → Tmu) : (s.onTmu g).camHdr = s.camHdr := rfl
@[simp] theorem State.onTmu_camPoints (s : State) (g : Tmu → Tmu) : (s.onTmu g).camPoints = s.camPoints := rfl
@[simp] theorem State.onTmu_shafts (s : State) (g : Tmu → Tmu) : (s.onTmu g).shafts = s.shafts := rfl
@[simp] theorem State.onTmu_latches (s : State) (g : Tmu → Tmu) : (s.onTmu g).latches = s.latches := rfl
@[simp] theorem State.onTmu_fbk (s : State) (g : Tmu → Tmu) : (s.onTmu g).fbk = s.fbk := rfl
@[simp] theorem State.onTmu_mts (s : State) (g : Tmu → Tmu) : (s.onTmu g).mts = s.mts := rfl
@[simp] theorem State.onTmu_adc (s : State) (g : Tmu → Tmu) : (s.onTmu g).adc = s.adc := rfl
@[simp] theorem State.onTmu_emu (s : State) (g : Tmu → Tmu) : (s.onTmu g).emu = s.emu := rfl
@[simp] theorem State.onTmu_pwm (s : State) (g : Tmu → Tmu) : (s.onTmu g).pwm = s.pwm := rfl
@[simp] theorem State.onTmu_steps (s : State) (g : Tmu → Tmu) : (s.onTmu g).steps = s.steps := rfl
@[simp] theorem State.onTmu_ports (s : State) (g : Tmu → Tmu) : (s.onTmu g).ports = s.ports := rfl
@[simp] theorem State.onTmu_heads (s : State) (g : Tmu → Tmu) : (s.onTmu g).heads = s.heads := rfl
@[simp] theorem State.onTmu_pair (s : State) (g : Tmu → Tmu) : (s.onTmu g).pair = s.pair := rfl
@[simp] theorem State.onTmu_island (s : State) (g : Tmu → Tmu) : (s.onTmu g).island = s.island := rfl
@[simp] theorem State.onTmu_die (s : State) (g : Tmu → Tmu) : (s.onTmu g).die = s.die := rfl
@[simp] theorem State.onTmu_macs (s : State) (g : Tmu → Tmu) : (s.onTmu g).macs = s.macs := rfl
@[simp] theorem State.onTmu_cans (s : State) (g : Tmu → Tmu) : (s.onTmu g).cans = s.cans := rfl
@[simp] theorem State.onTmu_dma (s : State) (g : Tmu → Tmu) : (s.onTmu g).dma = s.dma := rfl
@[simp] theorem State.onTmu_acq (s : State) (g : Tmu → Tmu) : (s.onTmu g).acq = s.acq := rfl
@[simp] theorem State.onTmu_inn (s : State) (g : Tmu → Tmu) : (s.onTmu g).inn = s.inn := rfl
@[simp] theorem State.onTmu_droppedStops (s : State) (g : Tmu → Tmu) : (s.onTmu g).droppedStops = s.droppedStops := rfl
@[simp] theorem State.onTmu_draws (s : State) (g : Tmu → Tmu) : (s.onTmu g).draws = s.draws := rfl
@[simp] theorem State.onTmu_ses (s : State) (g : Tmu → Tmu) (j : Nat) : (s.onTmu g).ses j = s.ses j := rfl
@[simp] theorem State.onTmu_jrn (s : State) (g : Tmu → Tmu) (j : Nat) : (s.onTmu g).jrn j = s.jrn j := rfl
@[simp] theorem State.onTmu_axis (s : State) (g : Tmu → Tmu) (j : Nat) : (s.onTmu g).axis j = s.axis j := rfl
@[simp] theorem State.onTmu_group (s : State) (g : Tmu → Tmu) (j : Nat) : (s.onTmu g).group j = s.group j := rfl
@[simp] theorem State.onTmu_act (s : State) (g : Tmu → Tmu) (j : Nat) : (s.onTmu g).act j = s.act j := rfl
@[simp] theorem State.onTmu_shad (s : State) (g : Tmu → Tmu) (j : Nat) : (s.onTmu g).shad j = s.shad j := rfl
@[simp] theorem State.onTmu_eng (s : State) (g : Tmu → Tmu) (j : Nat) : (s.onTmu g).eng j = s.eng j := rfl
@[simp] theorem State.onTmu_blk (s : State) (g : Tmu → Tmu) (j : Nat) : (s.onTmu g).blk j = s.blk j := rfl
@[simp] theorem State.onTmu_shaft (s : State) (g : Tmu → Tmu) (j : Nat) : (s.onTmu g).shaft j = s.shaft j := rfl
@[simp] theorem State.onTmu_latch (s : State) (g : Tmu → Tmu) (j : Nat) : (s.onTmu g).latch j = s.latch j := rfl
@[simp] theorem State.onTmu_fb (s : State) (g : Tmu → Tmu) (j : Nat) : (s.onTmu g).fb j = s.fb j := rfl
@[simp] theorem State.onTmu_ain (s : State) (g : Tmu → Tmu) (j : Nat) : (s.onTmu g).ain j = s.ain j := rfl
@[simp] theorem State.onTmu_em (s : State) (g : Tmu → Tmu) (j : Nat) : (s.onTmu g).em j = s.em j := rfl
@[simp] theorem State.onTmu_pw (s : State) (g : Tmu → Tmu) (j : Nat) : (s.onTmu g).pw j = s.pw j := rfl
@[simp] theorem State.onTmu_stp (s : State) (g : Tmu → Tmu) (j : Nat) : (s.onTmu g).stp j = s.stp j := rfl
@[simp] theorem State.onTmu_port (s : State) (g : Tmu → Tmu) (j : Nat) : (s.onTmu g).port j = s.port j := rfl
@[simp] theorem State.onTmu_head (s : State) (g : Tmu → Tmu) (j : Nat) : (s.onTmu g).head j = s.head j := rfl
@[simp] theorem State.onTmu_mac (s : State) (g : Tmu → Tmu) (j : Nat) : (s.onTmu g).mac j = s.mac j := rfl
@[simp] theorem State.onTmu_can (s : State) (g : Tmu → Tmu) (j : Nat) : (s.onTmu g).can j = s.can j := rfl
@[simp] theorem State.onTmu_dch (s : State) (g : Tmu → Tmu) (j : Nat) : (s.onTmu g).dch j = s.dch j := rfl
@[simp] theorem State.onTmu_reg (s : State) (g : Tmu → Tmu) (j : Nat) : (s.onTmu g).reg j = s.reg j := rfl
@[simp] theorem State.onTmu_self (s : State) (g : Tmu → Tmu) : (s.onTmu g).tmu = g s.tmu := rfl

/-! `State.onPower` writes the field `power` alone. -/
@[simp] theorem State.onPower_pending (s : State) (g : Power → Power) : (s.onPower g).pending = s.pending := rfl
@[simp] theorem State.onPower_part (s : State) (g : Power → Power) : (s.onPower g).part = s.part := rfl
@[simp] theorem State.onPower_bus (s : State) (g : Power → Power) : (s.onPower g).bus = s.bus := rfl
@[simp] theorem State.onPower_regs (s : State) (g : Power → Power) : (s.onPower g).regs = s.regs := rfl
@[simp] theorem State.onPower_out (s : State) (g : Power → Power) : (s.onPower g).out = s.out := rfl
@[simp] theorem State.onPower_sram (s : State) (g : Power → Power) : (s.onPower g).sram = s.sram := rfl
@[simp] theorem State.onPower_sramFlip (s : State) (g : Power → Power) : (s.onPower g).sramFlip = s.sramFlip := rfl
@[simp] theorem State.onPower_leMem (s : State) (g : Power → Power) : (s.onPower g).leMem = s.leMem := rfl
@[simp] theorem State.onPower_sessions (s : State) (g : Power → Power) : (s.onPower g).sessions = s.sessions := rfl
@[simp] theorem State.onPower_journal (s : State) (g : Power → Power) : (s.onPower g).journal = s.journal := rfl
@[simp] theorem State.onPower_porter (s : State) (g : Power → Power) : (s.onPower g).porter = s.porter := rfl
@[simp] theorem State.onPower_staged (s : State) (g : Power → Power) : (s.onPower g).staged = s.staged := rfl
@[simp] theorem State.onPower_params (s : State) (g : Power → Power) : (s.onPower g).params = s.params := rfl
@[simp] theorem State.onPower_axes (s : State) (g : Power → Power) : (s.onPower g).axes = s.axes := rfl
@[simp] theorem State.onPower_groups (s : State) (g : Power → Power) : (s.onPower g).groups = s.groups := rfl
@[simp] theorem State.onPower_exchange (s : State) (g : Power → Power) : (s.onPower g).exchange = s.exchange := rfl
@[simp] theorem State.onPower_exchNext (s : State) (g : Power → Power) : (s.onPower g).exchNext = s.exchNext := rfl
@[simp] theorem State.onPower_exchAt (s : State) (g : Power → Power) : (s.onPower g).exchAt = s.exchAt := rfl
@[simp] theorem State.onPower_exchAtNext (s : State) (g : Power → Power) : (s.onPower g).exchAtNext = s.exchAtNext := rfl
@[simp] theorem State.onPower_active (s : State) (g : Power → Power) : (s.onPower g).active = s.active := rfl
@[simp] theorem State.onPower_shadow (s : State) (g : Power → Power) : (s.onPower g).shadow = s.shadow := rfl
@[simp] theorem State.onPower_engines (s : State) (g : Power → Power) : (s.onPower g).engines = s.engines := rfl
@[simp] theorem State.onPower_blocks (s : State) (g : Power → Power) : (s.onPower g).blocks = s.blocks := rfl
@[simp] theorem State.onPower_camHdr (s : State) (g : Power → Power) : (s.onPower g).camHdr = s.camHdr := rfl
@[simp] theorem State.onPower_camPoints (s : State) (g : Power → Power) : (s.onPower g).camPoints = s.camPoints := rfl
@[simp] theorem State.onPower_shafts (s : State) (g : Power → Power) : (s.onPower g).shafts = s.shafts := rfl
@[simp] theorem State.onPower_latches (s : State) (g : Power → Power) : (s.onPower g).latches = s.latches := rfl
@[simp] theorem State.onPower_fbk (s : State) (g : Power → Power) : (s.onPower g).fbk = s.fbk := rfl
@[simp] theorem State.onPower_mts (s : State) (g : Power → Power) : (s.onPower g).mts = s.mts := rfl
@[simp] theorem State.onPower_adc (s : State) (g : Power → Power) : (s.onPower g).adc = s.adc := rfl
@[simp] theorem State.onPower_emu (s : State) (g : Power → Power) : (s.onPower g).emu = s.emu := rfl
@[simp] theorem State.onPower_pwm (s : State) (g : Power → Power) : (s.onPower g).pwm = s.pwm := rfl
@[simp] theorem State.onPower_steps (s : State) (g : Power → Power) : (s.onPower g).steps = s.steps := rfl
@[simp] theorem State.onPower_ports (s : State) (g : Power → Power) : (s.onPower g).ports = s.ports := rfl
@[simp] theorem State.onPower_heads (s : State) (g : Power → Power) : (s.onPower g).heads = s.heads := rfl
@[simp] theorem State.onPower_pair (s : State) (g : Power → Power) : (s.onPower g).pair = s.pair := rfl
@[simp] theorem State.onPower_island (s : State) (g : Power → Power) : (s.onPower g).island = s.island := rfl
@[simp] theorem State.onPower_die (s : State) (g : Power → Power) : (s.onPower g).die = s.die := rfl
@[simp] theorem State.onPower_tmu (s : State) (g : Power → Power) : (s.onPower g).tmu = s.tmu := rfl
@[simp] theorem State.onPower_macs (s : State) (g : Power → Power) : (s.onPower g).macs = s.macs := rfl
@[simp] theorem State.onPower_cans (s : State) (g : Power → Power) : (s.onPower g).cans = s.cans := rfl
@[simp] theorem State.onPower_dma (s : State) (g : Power → Power) : (s.onPower g).dma = s.dma := rfl
@[simp] theorem State.onPower_acq (s : State) (g : Power → Power) : (s.onPower g).acq = s.acq := rfl
@[simp] theorem State.onPower_inn (s : State) (g : Power → Power) : (s.onPower g).inn = s.inn := rfl
@[simp] theorem State.onPower_droppedStops (s : State) (g : Power → Power) : (s.onPower g).droppedStops = s.droppedStops := rfl
@[simp] theorem State.onPower_draws (s : State) (g : Power → Power) : (s.onPower g).draws = s.draws := rfl
@[simp] theorem State.onPower_ses (s : State) (g : Power → Power) (j : Nat) : (s.onPower g).ses j = s.ses j := rfl
@[simp] theorem State.onPower_jrn (s : State) (g : Power → Power) (j : Nat) : (s.onPower g).jrn j = s.jrn j := rfl
@[simp] theorem State.onPower_axis (s : State) (g : Power → Power) (j : Nat) : (s.onPower g).axis j = s.axis j := rfl
@[simp] theorem State.onPower_group (s : State) (g : Power → Power) (j : Nat) : (s.onPower g).group j = s.group j := rfl
@[simp] theorem State.onPower_act (s : State) (g : Power → Power) (j : Nat) : (s.onPower g).act j = s.act j := rfl
@[simp] theorem State.onPower_shad (s : State) (g : Power → Power) (j : Nat) : (s.onPower g).shad j = s.shad j := rfl
@[simp] theorem State.onPower_eng (s : State) (g : Power → Power) (j : Nat) : (s.onPower g).eng j = s.eng j := rfl
@[simp] theorem State.onPower_blk (s : State) (g : Power → Power) (j : Nat) : (s.onPower g).blk j = s.blk j := rfl
@[simp] theorem State.onPower_shaft (s : State) (g : Power → Power) (j : Nat) : (s.onPower g).shaft j = s.shaft j := rfl
@[simp] theorem State.onPower_latch (s : State) (g : Power → Power) (j : Nat) : (s.onPower g).latch j = s.latch j := rfl
@[simp] theorem State.onPower_fb (s : State) (g : Power → Power) (j : Nat) : (s.onPower g).fb j = s.fb j := rfl
@[simp] theorem State.onPower_ain (s : State) (g : Power → Power) (j : Nat) : (s.onPower g).ain j = s.ain j := rfl
@[simp] theorem State.onPower_em (s : State) (g : Power → Power) (j : Nat) : (s.onPower g).em j = s.em j := rfl
@[simp] theorem State.onPower_pw (s : State) (g : Power → Power) (j : Nat) : (s.onPower g).pw j = s.pw j := rfl
@[simp] theorem State.onPower_stp (s : State) (g : Power → Power) (j : Nat) : (s.onPower g).stp j = s.stp j := rfl
@[simp] theorem State.onPower_port (s : State) (g : Power → Power) (j : Nat) : (s.onPower g).port j = s.port j := rfl
@[simp] theorem State.onPower_head (s : State) (g : Power → Power) (j : Nat) : (s.onPower g).head j = s.head j := rfl
@[simp] theorem State.onPower_mac (s : State) (g : Power → Power) (j : Nat) : (s.onPower g).mac j = s.mac j := rfl
@[simp] theorem State.onPower_can (s : State) (g : Power → Power) (j : Nat) : (s.onPower g).can j = s.can j := rfl
@[simp] theorem State.onPower_dch (s : State) (g : Power → Power) (j : Nat) : (s.onPower g).dch j = s.dch j := rfl
@[simp] theorem State.onPower_reg (s : State) (g : Power → Power) (j : Nat) : (s.onPower g).reg j = s.reg j := rfl
@[simp] theorem State.onPower_self (s : State) (g : Power → Power) : (s.onPower g).power = g s.power := rfl

/-! `State.onBus` writes the field `bus` alone. -/
@[simp] theorem State.onBus_pending (s : State) (g : HostBus → HostBus) : (s.onBus g).pending = s.pending := rfl
@[simp] theorem State.onBus_part (s : State) (g : HostBus → HostBus) : (s.onBus g).part = s.part := rfl
@[simp] theorem State.onBus_power (s : State) (g : HostBus → HostBus) : (s.onBus g).power = s.power := rfl
@[simp] theorem State.onBus_regs (s : State) (g : HostBus → HostBus) : (s.onBus g).regs = s.regs := rfl
@[simp] theorem State.onBus_out (s : State) (g : HostBus → HostBus) : (s.onBus g).out = s.out := rfl
@[simp] theorem State.onBus_sram (s : State) (g : HostBus → HostBus) : (s.onBus g).sram = s.sram := rfl
@[simp] theorem State.onBus_sramFlip (s : State) (g : HostBus → HostBus) : (s.onBus g).sramFlip = s.sramFlip := rfl
@[simp] theorem State.onBus_leMem (s : State) (g : HostBus → HostBus) : (s.onBus g).leMem = s.leMem := rfl
@[simp] theorem State.onBus_sessions (s : State) (g : HostBus → HostBus) : (s.onBus g).sessions = s.sessions := rfl
@[simp] theorem State.onBus_journal (s : State) (g : HostBus → HostBus) : (s.onBus g).journal = s.journal := rfl
@[simp] theorem State.onBus_porter (s : State) (g : HostBus → HostBus) : (s.onBus g).porter = s.porter := rfl
@[simp] theorem State.onBus_staged (s : State) (g : HostBus → HostBus) : (s.onBus g).staged = s.staged := rfl
@[simp] theorem State.onBus_params (s : State) (g : HostBus → HostBus) : (s.onBus g).params = s.params := rfl
@[simp] theorem State.onBus_axes (s : State) (g : HostBus → HostBus) : (s.onBus g).axes = s.axes := rfl
@[simp] theorem State.onBus_groups (s : State) (g : HostBus → HostBus) : (s.onBus g).groups = s.groups := rfl
@[simp] theorem State.onBus_exchange (s : State) (g : HostBus → HostBus) : (s.onBus g).exchange = s.exchange := rfl
@[simp] theorem State.onBus_exchNext (s : State) (g : HostBus → HostBus) : (s.onBus g).exchNext = s.exchNext := rfl
@[simp] theorem State.onBus_exchAt (s : State) (g : HostBus → HostBus) : (s.onBus g).exchAt = s.exchAt := rfl
@[simp] theorem State.onBus_exchAtNext (s : State) (g : HostBus → HostBus) : (s.onBus g).exchAtNext = s.exchAtNext := rfl
@[simp] theorem State.onBus_active (s : State) (g : HostBus → HostBus) : (s.onBus g).active = s.active := rfl
@[simp] theorem State.onBus_shadow (s : State) (g : HostBus → HostBus) : (s.onBus g).shadow = s.shadow := rfl
@[simp] theorem State.onBus_engines (s : State) (g : HostBus → HostBus) : (s.onBus g).engines = s.engines := rfl
@[simp] theorem State.onBus_blocks (s : State) (g : HostBus → HostBus) : (s.onBus g).blocks = s.blocks := rfl
@[simp] theorem State.onBus_camHdr (s : State) (g : HostBus → HostBus) : (s.onBus g).camHdr = s.camHdr := rfl
@[simp] theorem State.onBus_camPoints (s : State) (g : HostBus → HostBus) : (s.onBus g).camPoints = s.camPoints := rfl
@[simp] theorem State.onBus_shafts (s : State) (g : HostBus → HostBus) : (s.onBus g).shafts = s.shafts := rfl
@[simp] theorem State.onBus_latches (s : State) (g : HostBus → HostBus) : (s.onBus g).latches = s.latches := rfl
@[simp] theorem State.onBus_fbk (s : State) (g : HostBus → HostBus) : (s.onBus g).fbk = s.fbk := rfl
@[simp] theorem State.onBus_mts (s : State) (g : HostBus → HostBus) : (s.onBus g).mts = s.mts := rfl
@[simp] theorem State.onBus_adc (s : State) (g : HostBus → HostBus) : (s.onBus g).adc = s.adc := rfl
@[simp] theorem State.onBus_emu (s : State) (g : HostBus → HostBus) : (s.onBus g).emu = s.emu := rfl
@[simp] theorem State.onBus_pwm (s : State) (g : HostBus → HostBus) : (s.onBus g).pwm = s.pwm := rfl
@[simp] theorem State.onBus_steps (s : State) (g : HostBus → HostBus) : (s.onBus g).steps = s.steps := rfl
@[simp] theorem State.onBus_ports (s : State) (g : HostBus → HostBus) : (s.onBus g).ports = s.ports := rfl
@[simp] theorem State.onBus_heads (s : State) (g : HostBus → HostBus) : (s.onBus g).heads = s.heads := rfl
@[simp] theorem State.onBus_pair (s : State) (g : HostBus → HostBus) : (s.onBus g).pair = s.pair := rfl
@[simp] theorem State.onBus_island (s : State) (g : HostBus → HostBus) : (s.onBus g).island = s.island := rfl
@[simp] theorem State.onBus_die (s : State) (g : HostBus → HostBus) : (s.onBus g).die = s.die := rfl
@[simp] theorem State.onBus_tmu (s : State) (g : HostBus → HostBus) : (s.onBus g).tmu = s.tmu := rfl
@[simp] theorem State.onBus_macs (s : State) (g : HostBus → HostBus) : (s.onBus g).macs = s.macs := rfl
@[simp] theorem State.onBus_cans (s : State) (g : HostBus → HostBus) : (s.onBus g).cans = s.cans := rfl
@[simp] theorem State.onBus_dma (s : State) (g : HostBus → HostBus) : (s.onBus g).dma = s.dma := rfl
@[simp] theorem State.onBus_acq (s : State) (g : HostBus → HostBus) : (s.onBus g).acq = s.acq := rfl
@[simp] theorem State.onBus_inn (s : State) (g : HostBus → HostBus) : (s.onBus g).inn = s.inn := rfl
@[simp] theorem State.onBus_droppedStops (s : State) (g : HostBus → HostBus) : (s.onBus g).droppedStops = s.droppedStops := rfl
@[simp] theorem State.onBus_draws (s : State) (g : HostBus → HostBus) : (s.onBus g).draws = s.draws := rfl
@[simp] theorem State.onBus_ses (s : State) (g : HostBus → HostBus) (j : Nat) : (s.onBus g).ses j = s.ses j := rfl
@[simp] theorem State.onBus_jrn (s : State) (g : HostBus → HostBus) (j : Nat) : (s.onBus g).jrn j = s.jrn j := rfl
@[simp] theorem State.onBus_axis (s : State) (g : HostBus → HostBus) (j : Nat) : (s.onBus g).axis j = s.axis j := rfl
@[simp] theorem State.onBus_group (s : State) (g : HostBus → HostBus) (j : Nat) : (s.onBus g).group j = s.group j := rfl
@[simp] theorem State.onBus_act (s : State) (g : HostBus → HostBus) (j : Nat) : (s.onBus g).act j = s.act j := rfl
@[simp] theorem State.onBus_shad (s : State) (g : HostBus → HostBus) (j : Nat) : (s.onBus g).shad j = s.shad j := rfl
@[simp] theorem State.onBus_eng (s : State) (g : HostBus → HostBus) (j : Nat) : (s.onBus g).eng j = s.eng j := rfl
@[simp] theorem State.onBus_blk (s : State) (g : HostBus → HostBus) (j : Nat) : (s.onBus g).blk j = s.blk j := rfl
@[simp] theorem State.onBus_shaft (s : State) (g : HostBus → HostBus) (j : Nat) : (s.onBus g).shaft j = s.shaft j := rfl
@[simp] theorem State.onBus_latch (s : State) (g : HostBus → HostBus) (j : Nat) : (s.onBus g).latch j = s.latch j := rfl
@[simp] theorem State.onBus_fb (s : State) (g : HostBus → HostBus) (j : Nat) : (s.onBus g).fb j = s.fb j := rfl
@[simp] theorem State.onBus_ain (s : State) (g : HostBus → HostBus) (j : Nat) : (s.onBus g).ain j = s.ain j := rfl
@[simp] theorem State.onBus_em (s : State) (g : HostBus → HostBus) (j : Nat) : (s.onBus g).em j = s.em j := rfl
@[simp] theorem State.onBus_pw (s : State) (g : HostBus → HostBus) (j : Nat) : (s.onBus g).pw j = s.pw j := rfl
@[simp] theorem State.onBus_stp (s : State) (g : HostBus → HostBus) (j : Nat) : (s.onBus g).stp j = s.stp j := rfl
@[simp] theorem State.onBus_port (s : State) (g : HostBus → HostBus) (j : Nat) : (s.onBus g).port j = s.port j := rfl
@[simp] theorem State.onBus_head (s : State) (g : HostBus → HostBus) (j : Nat) : (s.onBus g).head j = s.head j := rfl
@[simp] theorem State.onBus_mac (s : State) (g : HostBus → HostBus) (j : Nat) : (s.onBus g).mac j = s.mac j := rfl
@[simp] theorem State.onBus_can (s : State) (g : HostBus → HostBus) (j : Nat) : (s.onBus g).can j = s.can j := rfl
@[simp] theorem State.onBus_dch (s : State) (g : HostBus → HostBus) (j : Nat) : (s.onBus g).dch j = s.dch j := rfl
@[simp] theorem State.onBus_reg (s : State) (g : HostBus → HostBus) (j : Nat) : (s.onBus g).reg j = s.reg j := rfl
@[simp] theorem State.onBus_self (s : State) (g : HostBus → HostBus) : (s.onBus g).bus = g s.bus := rfl

/-! `State.onAcq` writes the field `acq` alone. -/
@[simp] theorem State.onAcq_pending (s : State) (g : Acq → Acq) : (s.onAcq g).pending = s.pending := rfl
@[simp] theorem State.onAcq_part (s : State) (g : Acq → Acq) : (s.onAcq g).part = s.part := rfl
@[simp] theorem State.onAcq_power (s : State) (g : Acq → Acq) : (s.onAcq g).power = s.power := rfl
@[simp] theorem State.onAcq_bus (s : State) (g : Acq → Acq) : (s.onAcq g).bus = s.bus := rfl
@[simp] theorem State.onAcq_regs (s : State) (g : Acq → Acq) : (s.onAcq g).regs = s.regs := rfl
@[simp] theorem State.onAcq_out (s : State) (g : Acq → Acq) : (s.onAcq g).out = s.out := rfl
@[simp] theorem State.onAcq_sram (s : State) (g : Acq → Acq) : (s.onAcq g).sram = s.sram := rfl
@[simp] theorem State.onAcq_sramFlip (s : State) (g : Acq → Acq) : (s.onAcq g).sramFlip = s.sramFlip := rfl
@[simp] theorem State.onAcq_leMem (s : State) (g : Acq → Acq) : (s.onAcq g).leMem = s.leMem := rfl
@[simp] theorem State.onAcq_sessions (s : State) (g : Acq → Acq) : (s.onAcq g).sessions = s.sessions := rfl
@[simp] theorem State.onAcq_journal (s : State) (g : Acq → Acq) : (s.onAcq g).journal = s.journal := rfl
@[simp] theorem State.onAcq_porter (s : State) (g : Acq → Acq) : (s.onAcq g).porter = s.porter := rfl
@[simp] theorem State.onAcq_staged (s : State) (g : Acq → Acq) : (s.onAcq g).staged = s.staged := rfl
@[simp] theorem State.onAcq_params (s : State) (g : Acq → Acq) : (s.onAcq g).params = s.params := rfl
@[simp] theorem State.onAcq_axes (s : State) (g : Acq → Acq) : (s.onAcq g).axes = s.axes := rfl
@[simp] theorem State.onAcq_groups (s : State) (g : Acq → Acq) : (s.onAcq g).groups = s.groups := rfl
@[simp] theorem State.onAcq_exchange (s : State) (g : Acq → Acq) : (s.onAcq g).exchange = s.exchange := rfl
@[simp] theorem State.onAcq_exchNext (s : State) (g : Acq → Acq) : (s.onAcq g).exchNext = s.exchNext := rfl
@[simp] theorem State.onAcq_exchAt (s : State) (g : Acq → Acq) : (s.onAcq g).exchAt = s.exchAt := rfl
@[simp] theorem State.onAcq_exchAtNext (s : State) (g : Acq → Acq) : (s.onAcq g).exchAtNext = s.exchAtNext := rfl
@[simp] theorem State.onAcq_active (s : State) (g : Acq → Acq) : (s.onAcq g).active = s.active := rfl
@[simp] theorem State.onAcq_shadow (s : State) (g : Acq → Acq) : (s.onAcq g).shadow = s.shadow := rfl
@[simp] theorem State.onAcq_engines (s : State) (g : Acq → Acq) : (s.onAcq g).engines = s.engines := rfl
@[simp] theorem State.onAcq_blocks (s : State) (g : Acq → Acq) : (s.onAcq g).blocks = s.blocks := rfl
@[simp] theorem State.onAcq_camHdr (s : State) (g : Acq → Acq) : (s.onAcq g).camHdr = s.camHdr := rfl
@[simp] theorem State.onAcq_camPoints (s : State) (g : Acq → Acq) : (s.onAcq g).camPoints = s.camPoints := rfl
@[simp] theorem State.onAcq_shafts (s : State) (g : Acq → Acq) : (s.onAcq g).shafts = s.shafts := rfl
@[simp] theorem State.onAcq_latches (s : State) (g : Acq → Acq) : (s.onAcq g).latches = s.latches := rfl
@[simp] theorem State.onAcq_fbk (s : State) (g : Acq → Acq) : (s.onAcq g).fbk = s.fbk := rfl
@[simp] theorem State.onAcq_mts (s : State) (g : Acq → Acq) : (s.onAcq g).mts = s.mts := rfl
@[simp] theorem State.onAcq_adc (s : State) (g : Acq → Acq) : (s.onAcq g).adc = s.adc := rfl
@[simp] theorem State.onAcq_emu (s : State) (g : Acq → Acq) : (s.onAcq g).emu = s.emu := rfl
@[simp] theorem State.onAcq_pwm (s : State) (g : Acq → Acq) : (s.onAcq g).pwm = s.pwm := rfl
@[simp] theorem State.onAcq_steps (s : State) (g : Acq → Acq) : (s.onAcq g).steps = s.steps := rfl
@[simp] theorem State.onAcq_ports (s : State) (g : Acq → Acq) : (s.onAcq g).ports = s.ports := rfl
@[simp] theorem State.onAcq_heads (s : State) (g : Acq → Acq) : (s.onAcq g).heads = s.heads := rfl
@[simp] theorem State.onAcq_pair (s : State) (g : Acq → Acq) : (s.onAcq g).pair = s.pair := rfl
@[simp] theorem State.onAcq_island (s : State) (g : Acq → Acq) : (s.onAcq g).island = s.island := rfl
@[simp] theorem State.onAcq_die (s : State) (g : Acq → Acq) : (s.onAcq g).die = s.die := rfl
@[simp] theorem State.onAcq_tmu (s : State) (g : Acq → Acq) : (s.onAcq g).tmu = s.tmu := rfl
@[simp] theorem State.onAcq_macs (s : State) (g : Acq → Acq) : (s.onAcq g).macs = s.macs := rfl
@[simp] theorem State.onAcq_cans (s : State) (g : Acq → Acq) : (s.onAcq g).cans = s.cans := rfl
@[simp] theorem State.onAcq_dma (s : State) (g : Acq → Acq) : (s.onAcq g).dma = s.dma := rfl
@[simp] theorem State.onAcq_inn (s : State) (g : Acq → Acq) : (s.onAcq g).inn = s.inn := rfl
@[simp] theorem State.onAcq_droppedStops (s : State) (g : Acq → Acq) : (s.onAcq g).droppedStops = s.droppedStops := rfl
@[simp] theorem State.onAcq_draws (s : State) (g : Acq → Acq) : (s.onAcq g).draws = s.draws := rfl
@[simp] theorem State.onAcq_ses (s : State) (g : Acq → Acq) (j : Nat) : (s.onAcq g).ses j = s.ses j := rfl
@[simp] theorem State.onAcq_jrn (s : State) (g : Acq → Acq) (j : Nat) : (s.onAcq g).jrn j = s.jrn j := rfl
@[simp] theorem State.onAcq_axis (s : State) (g : Acq → Acq) (j : Nat) : (s.onAcq g).axis j = s.axis j := rfl
@[simp] theorem State.onAcq_group (s : State) (g : Acq → Acq) (j : Nat) : (s.onAcq g).group j = s.group j := rfl
@[simp] theorem State.onAcq_act (s : State) (g : Acq → Acq) (j : Nat) : (s.onAcq g).act j = s.act j := rfl
@[simp] theorem State.onAcq_shad (s : State) (g : Acq → Acq) (j : Nat) : (s.onAcq g).shad j = s.shad j := rfl
@[simp] theorem State.onAcq_eng (s : State) (g : Acq → Acq) (j : Nat) : (s.onAcq g).eng j = s.eng j := rfl
@[simp] theorem State.onAcq_blk (s : State) (g : Acq → Acq) (j : Nat) : (s.onAcq g).blk j = s.blk j := rfl
@[simp] theorem State.onAcq_shaft (s : State) (g : Acq → Acq) (j : Nat) : (s.onAcq g).shaft j = s.shaft j := rfl
@[simp] theorem State.onAcq_latch (s : State) (g : Acq → Acq) (j : Nat) : (s.onAcq g).latch j = s.latch j := rfl
@[simp] theorem State.onAcq_fb (s : State) (g : Acq → Acq) (j : Nat) : (s.onAcq g).fb j = s.fb j := rfl
@[simp] theorem State.onAcq_ain (s : State) (g : Acq → Acq) (j : Nat) : (s.onAcq g).ain j = s.ain j := rfl
@[simp] theorem State.onAcq_em (s : State) (g : Acq → Acq) (j : Nat) : (s.onAcq g).em j = s.em j := rfl
@[simp] theorem State.onAcq_pw (s : State) (g : Acq → Acq) (j : Nat) : (s.onAcq g).pw j = s.pw j := rfl
@[simp] theorem State.onAcq_stp (s : State) (g : Acq → Acq) (j : Nat) : (s.onAcq g).stp j = s.stp j := rfl
@[simp] theorem State.onAcq_port (s : State) (g : Acq → Acq) (j : Nat) : (s.onAcq g).port j = s.port j := rfl
@[simp] theorem State.onAcq_head (s : State) (g : Acq → Acq) (j : Nat) : (s.onAcq g).head j = s.head j := rfl
@[simp] theorem State.onAcq_mac (s : State) (g : Acq → Acq) (j : Nat) : (s.onAcq g).mac j = s.mac j := rfl
@[simp] theorem State.onAcq_can (s : State) (g : Acq → Acq) (j : Nat) : (s.onAcq g).can j = s.can j := rfl
@[simp] theorem State.onAcq_dch (s : State) (g : Acq → Acq) (j : Nat) : (s.onAcq g).dch j = s.dch j := rfl
@[simp] theorem State.onAcq_reg (s : State) (g : Acq → Acq) (j : Nat) : (s.onAcq g).reg j = s.reg j := rfl
@[simp] theorem State.onAcq_self (s : State) (g : Acq → Acq) : (s.onAcq g).acq = g s.acq := rfl

/-! `State.onPorter` writes the field `porter` alone. -/
@[simp] theorem State.onPorter_pending (s : State) (g : Porter → Porter) : (s.onPorter g).pending = s.pending := rfl
@[simp] theorem State.onPorter_part (s : State) (g : Porter → Porter) : (s.onPorter g).part = s.part := rfl
@[simp] theorem State.onPorter_power (s : State) (g : Porter → Porter) : (s.onPorter g).power = s.power := rfl
@[simp] theorem State.onPorter_bus (s : State) (g : Porter → Porter) : (s.onPorter g).bus = s.bus := rfl
@[simp] theorem State.onPorter_regs (s : State) (g : Porter → Porter) : (s.onPorter g).regs = s.regs := rfl
@[simp] theorem State.onPorter_out (s : State) (g : Porter → Porter) : (s.onPorter g).out = s.out := rfl
@[simp] theorem State.onPorter_sram (s : State) (g : Porter → Porter) : (s.onPorter g).sram = s.sram := rfl
@[simp] theorem State.onPorter_sramFlip (s : State) (g : Porter → Porter) : (s.onPorter g).sramFlip = s.sramFlip := rfl
@[simp] theorem State.onPorter_leMem (s : State) (g : Porter → Porter) : (s.onPorter g).leMem = s.leMem := rfl
@[simp] theorem State.onPorter_sessions (s : State) (g : Porter → Porter) : (s.onPorter g).sessions = s.sessions := rfl
@[simp] theorem State.onPorter_journal (s : State) (g : Porter → Porter) : (s.onPorter g).journal = s.journal := rfl
@[simp] theorem State.onPorter_staged (s : State) (g : Porter → Porter) : (s.onPorter g).staged = s.staged := rfl
@[simp] theorem State.onPorter_params (s : State) (g : Porter → Porter) : (s.onPorter g).params = s.params := rfl
@[simp] theorem State.onPorter_axes (s : State) (g : Porter → Porter) : (s.onPorter g).axes = s.axes := rfl
@[simp] theorem State.onPorter_groups (s : State) (g : Porter → Porter) : (s.onPorter g).groups = s.groups := rfl
@[simp] theorem State.onPorter_exchange (s : State) (g : Porter → Porter) : (s.onPorter g).exchange = s.exchange := rfl
@[simp] theorem State.onPorter_exchNext (s : State) (g : Porter → Porter) : (s.onPorter g).exchNext = s.exchNext := rfl
@[simp] theorem State.onPorter_exchAt (s : State) (g : Porter → Porter) : (s.onPorter g).exchAt = s.exchAt := rfl
@[simp] theorem State.onPorter_exchAtNext (s : State) (g : Porter → Porter) : (s.onPorter g).exchAtNext = s.exchAtNext := rfl
@[simp] theorem State.onPorter_active (s : State) (g : Porter → Porter) : (s.onPorter g).active = s.active := rfl
@[simp] theorem State.onPorter_shadow (s : State) (g : Porter → Porter) : (s.onPorter g).shadow = s.shadow := rfl
@[simp] theorem State.onPorter_engines (s : State) (g : Porter → Porter) : (s.onPorter g).engines = s.engines := rfl
@[simp] theorem State.onPorter_blocks (s : State) (g : Porter → Porter) : (s.onPorter g).blocks = s.blocks := rfl
@[simp] theorem State.onPorter_camHdr (s : State) (g : Porter → Porter) : (s.onPorter g).camHdr = s.camHdr := rfl
@[simp] theorem State.onPorter_camPoints (s : State) (g : Porter → Porter) : (s.onPorter g).camPoints = s.camPoints := rfl
@[simp] theorem State.onPorter_shafts (s : State) (g : Porter → Porter) : (s.onPorter g).shafts = s.shafts := rfl
@[simp] theorem State.onPorter_latches (s : State) (g : Porter → Porter) : (s.onPorter g).latches = s.latches := rfl
@[simp] theorem State.onPorter_fbk (s : State) (g : Porter → Porter) : (s.onPorter g).fbk = s.fbk := rfl
@[simp] theorem State.onPorter_mts (s : State) (g : Porter → Porter) : (s.onPorter g).mts = s.mts := rfl
@[simp] theorem State.onPorter_adc (s : State) (g : Porter → Porter) : (s.onPorter g).adc = s.adc := rfl
@[simp] theorem State.onPorter_emu (s : State) (g : Porter → Porter) : (s.onPorter g).emu = s.emu := rfl
@[simp] theorem State.onPorter_pwm (s : State) (g : Porter → Porter) : (s.onPorter g).pwm = s.pwm := rfl
@[simp] theorem State.onPorter_steps (s : State) (g : Porter → Porter) : (s.onPorter g).steps = s.steps := rfl
@[simp] theorem State.onPorter_ports (s : State) (g : Porter → Porter) : (s.onPorter g).ports = s.ports := rfl
@[simp] theorem State.onPorter_heads (s : State) (g : Porter → Porter) : (s.onPorter g).heads = s.heads := rfl
@[simp] theorem State.onPorter_pair (s : State) (g : Porter → Porter) : (s.onPorter g).pair = s.pair := rfl
@[simp] theorem State.onPorter_island (s : State) (g : Porter → Porter) : (s.onPorter g).island = s.island := rfl
@[simp] theorem State.onPorter_die (s : State) (g : Porter → Porter) : (s.onPorter g).die = s.die := rfl
@[simp] theorem State.onPorter_tmu (s : State) (g : Porter → Porter) : (s.onPorter g).tmu = s.tmu := rfl
@[simp] theorem State.onPorter_macs (s : State) (g : Porter → Porter) : (s.onPorter g).macs = s.macs := rfl
@[simp] theorem State.onPorter_cans (s : State) (g : Porter → Porter) : (s.onPorter g).cans = s.cans := rfl
@[simp] theorem State.onPorter_dma (s : State) (g : Porter → Porter) : (s.onPorter g).dma = s.dma := rfl
@[simp] theorem State.onPorter_acq (s : State) (g : Porter → Porter) : (s.onPorter g).acq = s.acq := rfl
@[simp] theorem State.onPorter_inn (s : State) (g : Porter → Porter) : (s.onPorter g).inn = s.inn := rfl
@[simp] theorem State.onPorter_droppedStops (s : State) (g : Porter → Porter) : (s.onPorter g).droppedStops = s.droppedStops := rfl
@[simp] theorem State.onPorter_draws (s : State) (g : Porter → Porter) : (s.onPorter g).draws = s.draws := rfl
@[simp] theorem State.onPorter_ses (s : State) (g : Porter → Porter) (j : Nat) : (s.onPorter g).ses j = s.ses j := rfl
@[simp] theorem State.onPorter_jrn (s : State) (g : Porter → Porter) (j : Nat) : (s.onPorter g).jrn j = s.jrn j := rfl
@[simp] theorem State.onPorter_axis (s : State) (g : Porter → Porter) (j : Nat) : (s.onPorter g).axis j = s.axis j := rfl
@[simp] theorem State.onPorter_group (s : State) (g : Porter → Porter) (j : Nat) : (s.onPorter g).group j = s.group j := rfl
@[simp] theorem State.onPorter_act (s : State) (g : Porter → Porter) (j : Nat) : (s.onPorter g).act j = s.act j := rfl
@[simp] theorem State.onPorter_shad (s : State) (g : Porter → Porter) (j : Nat) : (s.onPorter g).shad j = s.shad j := rfl
@[simp] theorem State.onPorter_eng (s : State) (g : Porter → Porter) (j : Nat) : (s.onPorter g).eng j = s.eng j := rfl
@[simp] theorem State.onPorter_blk (s : State) (g : Porter → Porter) (j : Nat) : (s.onPorter g).blk j = s.blk j := rfl
@[simp] theorem State.onPorter_shaft (s : State) (g : Porter → Porter) (j : Nat) : (s.onPorter g).shaft j = s.shaft j := rfl
@[simp] theorem State.onPorter_latch (s : State) (g : Porter → Porter) (j : Nat) : (s.onPorter g).latch j = s.latch j := rfl
@[simp] theorem State.onPorter_fb (s : State) (g : Porter → Porter) (j : Nat) : (s.onPorter g).fb j = s.fb j := rfl
@[simp] theorem State.onPorter_ain (s : State) (g : Porter → Porter) (j : Nat) : (s.onPorter g).ain j = s.ain j := rfl
@[simp] theorem State.onPorter_em (s : State) (g : Porter → Porter) (j : Nat) : (s.onPorter g).em j = s.em j := rfl
@[simp] theorem State.onPorter_pw (s : State) (g : Porter → Porter) (j : Nat) : (s.onPorter g).pw j = s.pw j := rfl
@[simp] theorem State.onPorter_stp (s : State) (g : Porter → Porter) (j : Nat) : (s.onPorter g).stp j = s.stp j := rfl
@[simp] theorem State.onPorter_port (s : State) (g : Porter → Porter) (j : Nat) : (s.onPorter g).port j = s.port j := rfl
@[simp] theorem State.onPorter_head (s : State) (g : Porter → Porter) (j : Nat) : (s.onPorter g).head j = s.head j := rfl
@[simp] theorem State.onPorter_mac (s : State) (g : Porter → Porter) (j : Nat) : (s.onPorter g).mac j = s.mac j := rfl
@[simp] theorem State.onPorter_can (s : State) (g : Porter → Porter) (j : Nat) : (s.onPorter g).can j = s.can j := rfl
@[simp] theorem State.onPorter_dch (s : State) (g : Porter → Porter) (j : Nat) : (s.onPorter g).dch j = s.dch j := rfl
@[simp] theorem State.onPorter_reg (s : State) (g : Porter → Porter) (j : Nat) : (s.onPorter g).reg j = s.reg j := rfl
@[simp] theorem State.onPorter_self (s : State) (g : Porter → Porter) : (s.onPorter g).porter = g s.porter := rfl

/-! Entries of `sessions`. -/
@[simp] theorem State.ses_setSes (s : State) (n : Nat) (x : Session) (j : Nat) : (s.setSes n x).ses j = if j = n then x else s.ses j :=
  Map.get_set _ _ _ _ _
@[simp] theorem State.onSes_eq (s : State) (n : Nat) (g : Session → Session) : s.onSes n g = s.setSes n (g (s.ses n)) := rfl

/-! Entries of `journal`. -/
@[simp] theorem State.jrn_setJrn (s : State) (n : Nat) (x : Journal) (j : Nat) : (s.setJrn n x).jrn j = if j = n then x else s.jrn j :=
  Map.get_set _ _ _ _ _
@[simp] theorem State.onJrn_eq (s : State) (n : Nat) (g : Journal → Journal) : s.onJrn n g = s.setJrn n (g (s.jrn n)) := rfl

/-! Entries of `axes`. -/
@[simp] theorem State.axis_setAxis (s : State) (n : Nat) (x : Axis) (j : Nat) : (s.setAxis n x).axis j = if j = n then x else s.axis j :=
  Map.get_set _ _ _ _ _
@[simp] theorem State.onAxis_eq (s : State) (n : Nat) (g : Axis → Axis) : s.onAxis n g = s.setAxis n (g (s.axis n)) := rfl

/-! Entries of `groups`. -/
@[simp] theorem State.group_setGroup (s : State) (n : Nat) (x : Group) (j : Nat) : (s.setGroup n x).group j = if j = n then x else s.group j :=
  Map.get_set _ _ _ _ _
@[simp] theorem State.onGroup_eq (s : State) (n : Nat) (g : Group → Group) : s.onGroup n g = s.setGroup n (g (s.group n)) := rfl

/-! Entries of `active`. -/
@[simp] theorem State.act_setAct (s : State) (n : Nat) (x : StopRec) (j : Nat) : (s.setAct n x).act j = if j = n then x else s.act j :=
  Map.get_set _ _ _ _ _
@[simp] theorem State.onAct_eq (s : State) (n : Nat) (g : StopRec → StopRec) : s.onAct n g = s.setAct n (g (s.act n)) := rfl

/-! Entries of `shadow`. -/
@[simp] theorem State.shad_setShad (s : State) (n : Nat) (x : StopRec) (j : Nat) : (s.setShad n x).shad j = if j = n then x else s.shad j :=
  Map.get_set _ _ _ _ _
@[simp] theorem State.onShad_eq (s : State) (n : Nat) (g : StopRec → StopRec) : s.onShad n g = s.setShad n (g (s.shad n)) := rfl

/-! Entries of `engines`. -/
@[simp] theorem State.eng_setEng (s : State) (n : Nat) (x : Engine) (j : Nat) : (s.setEng n x).eng j = if j = n then x else s.eng j :=
  Map.get_set _ _ _ _ _
@[simp] theorem State.onEng_eq (s : State) (n : Nat) (g : Engine → Engine) : s.onEng n g = s.setEng n (g (s.eng n)) := rfl

/-! Entries of `blocks`. -/
@[simp] theorem State.blk_setBlk (s : State) (n : Nat) (x : Block) (j : Nat) : (s.setBlk n x).blk j = if j = n then x else s.blk j :=
  Map.get_set _ _ _ _ _
@[simp] theorem State.onBlk_eq (s : State) (n : Nat) (g : Block → Block) : s.onBlk n g = s.setBlk n (g (s.blk n)) := rfl

/-! Entries of `shafts`. -/
@[simp] theorem State.shaft_setShaft (s : State) (n : Nat) (x : Shaft) (j : Nat) : (s.setShaft n x).shaft j = if j = n then x else s.shaft j :=
  Map.get_set _ _ _ _ _
@[simp] theorem State.onShaft_eq (s : State) (n : Nat) (g : Shaft → Shaft) : s.onShaft n g = s.setShaft n (g (s.shaft n)) := rfl

/-! Entries of `latches`. -/
@[simp] theorem State.latch_setLatch (s : State) (n : Nat) (x : Latch) (j : Nat) : (s.setLatch n x).latch j = if j = n then x else s.latch j :=
  Map.get_set _ _ _ _ _
@[simp] theorem State.onLatch_eq (s : State) (n : Nat) (g : Latch → Latch) : s.onLatch n g = s.setLatch n (g (s.latch n)) := rfl

/-! Entries of `fbk`. -/
@[simp] theorem State.fb_setFb (s : State) (n : Nat) (x : FbkCh) (j : Nat) : (s.setFb n x).fb j = if j = n then x else s.fb j :=
  Map.get_set _ _ _ _ _
@[simp] theorem State.onFb_eq (s : State) (n : Nat) (g : FbkCh → FbkCh) : s.onFb n g = s.setFb n (g (s.fb n)) := rfl

/-! Entries of `adc`. -/
@[simp] theorem State.ain_setAin (s : State) (n : Nat) (x : AdcIn) (j : Nat) : (s.setAin n x).ain j = if j = n then x else s.ain j :=
  Map.get_set _ _ _ _ _
@[simp] theorem State.onAin_eq (s : State) (n : Nat) (g : AdcIn → AdcIn) : s.onAin n g = s.setAin n (g (s.ain n)) := rfl

/-! Entries of `emu`. -/
@[simp] theorem State.em_setEm (s : State) (n : Nat) (x : Emu) (j : Nat) : (s.setEm n x).em j = if j = n then x else s.em j :=
  Map.get_set _ _ _ _ _
@[simp] theorem State.onEm_eq (s : State) (n : Nat) (g : Emu → Emu) : s.onEm n g = s.setEm n (g (s.em n)) := rfl

/-! Entries of `pwm`. -/
@[simp] theorem State.pw_setPw (s : State) (n : Nat) (x : Pwm) (j : Nat) : (s.setPw n x).pw j = if j = n then x else s.pw j :=
  Map.get_set _ _ _ _ _
@[simp] theorem State.onPw_eq (s : State) (n : Nat) (g : Pwm → Pwm) : s.onPw n g = s.setPw n (g (s.pw n)) := rfl

/-! Entries of `steps`. -/
@[simp] theorem State.stp_setStp (s : State) (n : Nat) (x : Step) (j : Nat) : (s.setStp n x).stp j = if j = n then x else s.stp j :=
  Map.get_set _ _ _ _ _
@[simp] theorem State.onStp_eq (s : State) (n : Nat) (g : Step → Step) : s.onStp n g = s.setStp n (g (s.stp n)) := rfl

/-! Entries of `ports`. -/
@[simp] theorem State.port_setPort (s : State) (n : Nat) (x : RingPort) (j : Nat) : (s.setPort n x).port j = if j = n then x else s.port j :=
  Map.get_set _ _ _ _ _
@[simp] theorem State.onPort_eq (s : State) (n : Nat) (g : RingPort → RingPort) : s.onPort n g = s.setPort n (g (s.port n)) := rfl

/-! Entries of `heads`. -/
@[simp] theorem State.head_setHead (s : State) (n : Nat) (x : Head) (j : Nat) : (s.setHead n x).head j = if j = n then x else s.head j :=
  Map.get_set _ _ _ _ _
@[simp] theorem State.onHead_eq (s : State) (n : Nat) (g : Head → Head) : s.onHead n g = s.setHead n (g (s.head n)) := rfl

/-! Entries of `macs`. -/
@[simp] theorem State.mac_setMac (s : State) (n : Nat) (x : Mac) (j : Nat) : (s.setMac n x).mac j = if j = n then x else s.mac j :=
  Map.get_set _ _ _ _ _
@[simp] theorem State.onMac_eq (s : State) (n : Nat) (g : Mac → Mac) : s.onMac n g = s.setMac n (g (s.mac n)) := rfl

/-! Entries of `cans`. -/
@[simp] theorem State.can_setCan (s : State) (n : Nat) (x : CanCtl) (j : Nat) : (s.setCan n x).can j = if j = n then x else s.can j :=
  Map.get_set _ _ _ _ _
@[simp] theorem State.onCan_eq (s : State) (n : Nat) (g : CanCtl → CanCtl) : s.onCan n g = s.setCan n (g (s.can n)) := rfl

/-! Entries of `dma`. -/
@[simp] theorem State.dch_setDch (s : State) (n : Nat) (x : DmaCh) (j : Nat) : (s.setDch n x).dch j = if j = n then x else s.dch j :=
  Map.get_set _ _ _ _ _
@[simp] theorem State.onDch_eq (s : State) (n : Nat) (g : DmaCh → DmaCh) : s.onDch n g = s.setDch n (g (s.dch n)) := rfl

/-! Registers. -/
@[simp] theorem State.reg_setReg (s : State) (a : Nat) (v : Word) (j : Nat) : (s.setReg a v).reg j = if j = a then v else s.reg j :=
  Map.get_set _ _ _ _ _
theorem State.reg_setReg_ne (s : State) {a j : Nat} (v : Word) (h : j ≠ a) : (s.setReg a v).reg j = s.reg j := by
  rw [State.reg_setReg, if_neg h]
theorem State.reg_resetReg (s : State) (a j : Nat) : (s.resetReg a).reg j = if j = a then regReset a else s.reg j := by
  unfold State.resetReg State.reg Map.get
  split
  · rename_i h; subst h; simp only [Map.find?_erase_self]; rfl
  · simp only [Map.find?_erase_ne _ ‹_›]

end Sys2Proof.Machine
end

