-- ==== Sys2Proof/Laws/Settle.lean ====
section
/-!
SUPPORT. What settling does: it sends messages, and changes nothing but the arms and the pending vectors. Every
meaning answers a settled state.
-/
namespace Sys2Proof

open Machine

theorem Quiet.refl (s : State) : Quiet s s := ⟨rfl, [], rfl, fun _ h => absurd h (List.not_mem_nil)⟩

theorem Quiet.trans {s t u : State} (h : Quiet s t) (k : Quiet t u) : Quiet s u := by
  obtain ⟨h1, m, h2, h3⟩ := h
  obtain ⟨k1, l, k2, k3⟩ := k
  refine ⟨?_, l ++ m, ?_, ?_⟩
  · rw [k1, h1]
  · rw [k2, h2, List.append_assoc]
  · intro o ho
    rcases List.mem_append.mp ho with h | h
    · exact k3 o h
    · exact h3 o h

theorem quiet_arm (s : State) (n : Nat) (on : Bool) : Quiet s (s.arm n on) :=
  ⟨rfl, [], rfl, fun _ h => absurd h (List.not_mem_nil)⟩

theorem quiet_message (s : State) (v : Nat) : Quiet s (s.emit (s.message v)) :=
  ⟨rfl, [s.message v], rfl, fun o h => by
    rw [List.mem_singleton] at h; subst h; exact ⟨_, _, _, rfl⟩⟩

theorem quiet_pba (s : State) (p : BitVec 64) : Quiet s { s with bus := { s.bus with msixPba := p } } :=
  ⟨rfl, [], rfl, fun _ h => absurd h (List.not_mem_nil)⟩

theorem quiet_signal (s : State) (v : Nat) : Quiet s (s.signal v) := by
  unfold State.signal
  split
  · exact quiet_pba s _
  · exact quiet_message s v

theorem quiet_fireSource (s : State) (n : Nat) : Quiet s (fireSource s n) := by
  unfold fireSource
  split
  · exact (quiet_arm s n false).trans (quiet_signal _ _)
  · exact Quiet.refl s

theorem quiet_firePending (s : State) (v : Nat) : Quiet s (firePending s v) := by
  unfold firePending
  split
  · exact (quiet_pba s _).trans
      ⟨rfl, [s.message v], rfl, fun o h => by rw [List.mem_singleton] at h; subst h; exact ⟨_, _, _, rfl⟩⟩
  · exact Quiet.refl s

theorem quiet_foldl {α : Type} (f : State → α → State) (hf : ∀ s x, Quiet s (f s x)) (l : List α) :
    ∀ s, Quiet s (l.foldl f s) := by
  induction l with
  | nil => exact Quiet.refl
  | cons x r ih => intro s; exact (hf s x).trans (ih _)

/-- Settling sends messages and does nothing else. -/
theorem settle_quiet (s : State) : Quiet s (settle s) := by
  unfold settle
  refine Quiet.trans ?_ (quiet_foldl _ quiet_fireSource _ _)
  split
  · exact Quiet.refl s
  · exact quiet_foldl _ quiet_firePending _ s

/-- A meaning that answers the settled `u` has the effect `u`. -/
theorem gives_of_done {i : Instr} {s u : State} (h : exec i s = done u) : Gives i s u :=
  ⟨settle u, h, settle_quiet u⟩

theorem gives_of_settle {i : Instr} {s u : State} (h : exec i s = .next (settle u)) : Gives i s u :=
  ⟨settle u, h, settle_quiet u⟩

/-! ### What an effect leaves in a field -/

theorem Quiet.regs {u t : State} (h : Quiet u t) : t.regs = u.regs := by rw [h.1]
theorem Quiet.reg {u t : State} (h : Quiet u t) (a : Nat) : t.reg a = u.reg a := by rw [h.1]; rfl
theorem Quiet.out_mem {u t : State} (h : Quiet u t) {o : Output} (ho : o ∈ u.out) : o ∈ t.out := by
  obtain ⟨m, h2, _⟩ := h.2; rw [h2]; exact List.mem_append_right _ ho

/-- Every meaning answers a settled state: no command faults, and none is refused. -/
theorem exec_settles (i : Instr) (s : State) : ∃ u, exec i s = .next (settle u) := by
  cases i <;> exact ⟨_, rfl⟩

end Sys2Proof
end

