-- ==== Sys2Proof/Laws/Path.lean ====
section
/-!
SUPPORT. The path of a host command: what it touches, and where a command ends before which nothing stands.
-/
namespace Sys2Proof

open Machine

theorem Path.refl (s : State) : Path s s := ⟨rfl, fun _ _ => rfl⟩

theorem Path.trans {s t u : State} (h : Path s t) (k : Path t u) : Path s u :=
  ⟨by rw [k.rest, h.rest], fun a ha => (k.reg a ha).trans (h.reg a ha)⟩

theorem path_setReg (s : State) (a : Nat) (v : Word) (h : pathReg a = true) : Path s (s.setReg a v) :=
  ⟨rfl, fun j hj => State.reg_setReg_ne s v (by intro e; subst e; rw [h] at hj; exact absurd hj (by decide))⟩

theorem path_setSes (s : State) (n : Nat) (x : Session) : Path s (s.setSes n x) := ⟨rfl, fun _ _ => rfl⟩
theorem path_setJrn (s : State) (n : Nat) (x : Journal) : Path s (s.setJrn n x) := ⟨rfl, fun _ _ => rfl⟩
theorem path_onPorter (s : State) (g : Porter → Porter) : Path s (s.onPorter g) := ⟨rfl, fun _ _ => rfl⟩

theorem path_foldl {α : Type} (f : State → α → State) (hf : ∀ s x, Path s (f s x)) (l : List α) :
    ∀ s, Path s (l.foldl f s) := by
  induction l with
  | nil => exact Path.refl
  | cons x r ih => intro s; exact (hf s x).trans (ih _)

theorem path_onFlight (n : Nat) (q : Word) (g : Flight → Flight) (s : State) : Path s (onFlight n q g s) :=
  path_setSes s n _

theorem path_notePeak (s : State) : Path s (notePeak s) := path_setReg s _ _ (by decide)

theorem path_noteFull (s : State) : Path s (noteFull s) := by
  unfold noteFull
  split
  · exact path_setReg s _ _ (by decide)
  · exact Path.refl s

theorem path_makeReady (n : Nat) (q : Word) (s : State) : Path s (makeReady n q s) :=
  ((path_onPorter s _).trans (path_onFlight n q _ _)).trans (path_notePeak _)

theorem path_examine (s : State) (n : Nat) (f : Flight) : Path s (examine s n f) := by
  unfold examine
  split
  · split
    · exact (path_onPorter s _).trans (path_onFlight n _ _ _)
    · split
      · exact (path_onPorter s _).trans (path_makeReady n _ _)
      · exact Path.refl s
    · exact Path.refl s
  · exact Path.refl s

theorem path_examineAll (s : State) : Path s (examineAll s) :=
  path_foldl _ (fun s n => path_foldl _ (fun s f => path_examine s n f) _ s) _ s

theorem path_createTask (n : Nat) (q : Word) (s : State) : Path s (createTask n q s) := by
  unfold createTask
  dsimp only
  split
  · exact ((((path_onFlight n q _ s).trans (path_onPorter _ _)).trans (path_notePeak _)).trans (path_noteFull _)).trans
      (path_examine _ n _)
  · exact (((path_onFlight n q _ s).trans (path_onPorter _ _)).trans (path_notePeak _)).trans (path_noteFull _)

theorem pathReg_cmd {n a : Nat} (hn : n < 4) (h : 0x20000 + 0x1000 * n ≤ a) (k : a < 0x21000 + 0x1000 * n) :
    pathReg a = true := by
  simp only [pathReg, decide_eq_true_eq]; omega

theorem path_writeJournal (n : Nat) (o : Bool) (s : State) : Path s (writeJournal n o s) := path_setJrn s n _

theorem path_dispatch (c : Nat) (s : State) : Path s (dispatch c s) := by
  unfold dispatch
  split
  · split
    · exact Path.refl s
    · split
      · exact Path.refl s
      · refine Path.trans ?_ (path_onFlight _ _ _ _)
        refine Path.trans ?_ (path_setReg _ _ _ (by decide))
        refine Path.trans ?_ (path_setReg _ _ _ (by decide))
        exact (path_onPorter _ _).trans ((path_onPorter _ _).trans (path_onPorter _ _))
  · exact Path.refl s

theorem path_finishTask {c : Nat} {s : State} {k : Machine.Task} (hc : s.coreTask c = some k) (hk : k.ses < 4) :
    Path s (finishTask c s) := by
  unfold finishTask
  rw [hc]
  dsimp only
  rw [if_neg (by omega)]
  split
  · split
    · exact (path_onPorter s _).trans (path_onFlight _ _ _ _)
    · exact path_onPorter s _
  · exact path_onPorter s _

theorem onFlight_ses (n : Nat) (q : Word) (g : Flight → Flight) (s : State) :
    (onFlight n q g s).ses n = { s.ses n with flights := (s.ses n).flights.map fun f => if f.seq = q then g f else f } := by
  simp [onFlight]

theorem notePeak_reg (s : State) {a : Nat} (h : a ≠ Reg.ptrPeak) : (notePeak s).reg a = s.reg a :=
  State.reg_setReg_ne s _ h

theorem noteFull_reg (s : State) {a : Nat} (h : a ≠ Reg.ptrStat) : (noteFull s).reg a = s.reg a := by
  unfold noteFull; split
  · exact State.reg_setReg_ne s _ h
  · rfl
theorem noteFull_ses (s : State) (n : Nat) : (noteFull s).ses n = s.ses n := by unfold noteFull; split <;> rfl
theorem noteFull_porter (s : State) : (noteFull s).porter = s.porter := by unfold noteFull; split <;> rfl
theorem noteFull_inn (s : State) : (noteFull s).inn = s.inn := by unfold noteFull; split <;> rfl

theorem onFlight_reg (n : Nat) (q : Word) (g : Flight → Flight) (s : State) (a : Nat) : (onFlight n q g s).reg a = s.reg a := rfl
theorem setReady_reg (s : State) (p : Nat) (l : List Machine.Task) (a : Nat) : (s.setReady p l).reg a = s.reg a := rfl

/-- A new command with nothing before it and no dependency is ready at once (R108, R113). -/
theorem createTask_ready {s : State} {n : Nat} {f : Flight} (hf : (s.ses n).flights = [f]) (hd : s.dependency f.pkt.hdr = none) :
    (createTask n f.seq s).ses n = { s.ses n with flights := [{ f with phase := .ready, dep := none, tick := s.reg Reg.ptrTick }] }
    ∧ (∃ k : Machine.Task, k.ses = n ∧ k.seq = f.seq ∧ ∀ q, (createTask n f.seq s).readyList q =
        if q = (s.ses n).opened.prio then s.readyList q ++ [k] else s.readyList q)
    ∧ (createTask n f.seq s).porter.cores = s.porter.cores
    ∧ ∀ a, a ≠ Reg.ptrPeak → a ≠ Reg.ptrStat → (createTask n f.seq s).reg a = s.reg a := by
  let f1 : Flight := { f with phase := .parked, dep := none, tick := s.reg Reg.ptrTick }
  let g1 : Flight → Flight := fun f => { f with phase := .parked, dep := s.dependency f.pkt.hdr, tick := s.reg Reg.ptrTick }
  have hg : g1 f = f1 := by simp only [g1, f1, hd]
  have h1 : ∀ g : Flight → Flight, ((onFlight n f.seq g s).ses n).flights = [g f] := by
    intro g; rw [onFlight_ses]; simp [hf]
  have hq : f1.seq = f.seq := rfl
  let s1 : State := (onFlight n f.seq g1 s).onPorter fun q =>
    { q with wait := q.wait ++ [{ ses := n, seq := f.seq, since := s.inn.uptime }] }
  let s2 : State := (noteFull (notePeak s1)).onPorter fun q =>
    { q with wait := q.wait.filter fun t => !decide (t.ses = n ∧ t.seq = f.seq) }
  have e1 : (noteFull (notePeak s1)).ses n = s1.ses n := noteFull_ses _ n
  have hfl : ((noteFull (notePeak s1)).ses n).flights = [f1] := by rw [e1, ← hg]; exact h1 g1
  have key : createTask n f.seq s = makeReady n f.seq s2 := by
    have hdep : ∀ t : State, t.depState f1 = 0 := by
      intro t; unfold State.depState; simp only [f1]
    unfold createTask
    dsimp only
    show (match ((noteFull (notePeak s1)).ses n).flights.find? (fun f_1 => decide (f_1.seq = f.seq)) with
      | some f => examine (noteFull (notePeak s1)) n f
      | none => noteFull (notePeak s1)) = _
    rw [hfl]
    simp only [List.find?_cons, hq, decide_true]
    unfold examine
    rw [if_pos (show f1.phase = .parked from rfl), hdep]
    simp only [State.targetFree, hfl]
    simp [hq, s2]
  have p2 : s2.porter.cores = s.porter.cores ∧ s2.porter.ready = s.porter.ready := by
    simp only [s2, State.onPorter_self, noteFull_porter, notePeak, State.setReg_porter, s1]
    exact ⟨rfl, rfl⟩
  have x2 : s2.ses n = { s.ses n with flights := [f1] } := by
    show (noteFull (notePeak s1)).ses n = _
    rw [e1]
    show (onFlight n f.seq g1 s).ses n = _
    rw [onFlight_ses, hf]; simp [hg]
  rw [key]
  refine ⟨?_, ⟨{ ses := n, seq := f.seq, since := s2.inn.uptime }, rfl, rfl, ?_⟩, ?_, ?_⟩
  · unfold makeReady
    simp only [notePeak, State.setReg_ses, onFlight_ses, State.setReady, State.onPorter_ses]
    rw [x2]; simp [hq, f1]
  · intro q
    simp only [makeReady, notePeak, State.readyList, State.setReady, onFlight, State.setReg_porter, State.onSes_eq, State.setSes_porter,
      State.onPorter_self, State.onPorter_ses, x2, p2.2]
    rw [Map.get_set]
    by_cases e : q = (s.ses n).opened.prio
    · subst e; simp
    · simp [e]
  · exact p2.1
  · intro a ha hb
    unfold makeReady
    dsimp only
    rw [notePeak_reg _ ha, onFlight_reg, setReady_reg]
    simp only [s2]
    rw [State.onPorter_reg, noteFull_reg _ hb, notePeak_reg _ ha]
    simp only [s1]
    rw [State.onPorter_reg, onFlight_reg]


theorem setCore_reg (s : State) (c : Nat) (t : Option Machine.Task) (a : Nat) : (s.setCore c t).reg a = s.reg a := rfl

/-- The one ready task goes to an idle core (R112). -/
theorem dispatch_one {s : State} {c n p : Nat} {k : Machine.Task} {f : Flight} (hc : s.coreIdle c = true) (hp : p < 4)
    (hr : ∀ q, s.readyList q = if q = p then [k] else []) (hk : k.ses = n) (hs : k.seq = f.seq)
    (hf : (s.ses n).flights = [f]) :
    s.nextReady = some p
    ∧ (dispatch c s).ses n = { s.ses n with flights := [{ f with phase := .running }] }
    ∧ (dispatch c s).coreTask c = some k
    ∧ ∀ a, a ≠ Reg.ptrDispatchCnt → a ≠ Reg.ptrMaxlat → (dispatch c s).reg a = s.reg a := by
  have hn : s.nextReady = some p := by
    unfold State.nextReady
    dsimp only
    simp only [hr]
    by_cases h3 : p = 3
    · subst h3; simp [List.range, List.range.loop, List.find?]
    · have : p = 0 ∨ p = 1 ∨ p = 2 := by omega
      rcases this with h | h | h <;> subst h <;> simp [List.range, List.range.loop, List.find?]
  have hl : s.readyList p = [k] := by rw [hr]; simp
  have key : dispatch c s = onFlight k.ses k.seq (fun f => { f with phase := .running })
      (((((s.setReady p []).setCore c (some k)).onPorter fun q => { q with sinceP3 := if p = 3 then 0 else q.sinceP3 + 1 }).countUp
        Reg.ptrDispatchCnt 31 0 1).setField Reg.ptrMaxlat 15 0 (max ((((((s.setReady p []).setCore c (some k)).onPorter fun q =>
          { q with sinceP3 := if p = 3 then 0 else q.sinceP3 + 1 }).countUp Reg.ptrDispatchCnt 31 0 1)).field Reg.ptrMaxlat 15 0)
            (min 0xFFFF ((s.inn.uptime - k.since) / 40)))) := by
    unfold dispatch
    rw [if_pos hc, hn]
    simp only [hl]
  refine ⟨hn, ?_, ?_, ?_⟩
  · rw [key, hk, hs, onFlight_ses]
    simp only [State.setField, State.countUp, State.setReg_ses, State.setCore, State.setReady, State.onPorter_ses]
    rw [hf]; simp
  · rw [key]
    simp [State.coreTask, onFlight, State.setField, State.countUp, State.setCore]
  · intro a h1 h2
    rw [key, onFlight_reg]
    unfold State.setField State.countUp State.setField
    rw [State.reg_setReg_ne _ _ h2, State.reg_setReg_ne _ _ h1, State.onPorter_reg, setCore_reg, setReady_reg]

/-- A core ends the task of a running flight (R115). -/
theorem finishTask_one {s : State} {c n : Nat} {k : Machine.Task} {f : Flight} (hc : s.coreTask c = some k) (hn : n < 4) (hk : k.ses = n)
    (hs : k.seq = f.seq) (hf : (s.ses n).flights = [f]) (hp : f.phase = .running) :
    (finishTask c s).ses n = { s.ses n with flights :=
        [{ f with phase := .finished, reply := some (interpret (s.setCore c none) f) }] }
    ∧ ∀ a, (finishTask c s).reg a = s.reg a := by
  have key : finishTask c s = finishFlight n f.seq (interpret (s.setCore c none) f) (s.setCore c none) := by
    unfold finishTask
    rw [hc]
    dsimp only
    rw [if_neg (by omega), hk, hs]
    have : ((s.setCore c none).ses n).flights = [f] := hf
    rw [this]
    simp [hp]
  rw [key]
  refine ⟨?_, fun a => ?_⟩
  · unfold finishFlight
    rw [onFlight_ses]
    have : ((s.setCore c none).ses n) = s.ses n := rfl
    rw [this, hf]; simp
  · unfold finishFlight; rw [onFlight_reg, setCore_reg]


/-- The registers of `CMD` and `PTR` that a command writes on its way to the retire stage. -/
def early (n a : Nat) : Prop :=
  a = Reg.cmdSqTail n ∨ a = Reg.cmdSqHead n ∨ a = Reg.cmdAcceptedSeq n ∨ a = Reg.cmdNextSeq n
    ∨ a = Reg.ptrPeak ∨ a = Reg.ptrDispatchCnt ∨ a = Reg.ptrMaxlat ∨ a = Reg.ptrStat

theorem Clear.num {h : Hdr} {p : Bytes} {s : State} (hc : Clear h p s) : h.ses < 4 := by
  have := hc.fetch
  simp only [State.mayFetch, State.mayTake, State.cmdUp, Bool.and_eq_true, decide_eq_true_eq] at this
  exact this.1.1.1.1.1.1.1.1.1.2

theorem coreIdle_congr {s t : State} (h1 : t.power = s.power) (h2 : t.reg Reg.sysCapLiveX = s.reg Reg.sysCapLiveX)
    (h3 : t.porter.cores = s.porter.cores) : t.coreIdle = s.coreIdle := by
  funext c
  unfold State.coreIdle State.up State.capX State.coreTask
  rw [h1, h2, h3]

theorem find_idle {g : Nat → Bool} (h : ∃ c, c < 4 ∧ g c = true) : ∃ c, (List.range 4).find? g = some c ∧ g c = true := by
  have : ((List.range 4).find? g).isSome := by
    rw [List.find?_isSome]
    obtain ⟨c, h1, h2⟩ := h
    exact ⟨c, List.mem_range.mpr h1, h2⟩
  obtain ⟨c, hc⟩ := Option.isSome_iff_exists.mp this
  exact ⟨c, hc, List.find?_some hc⟩

/-- A command before which nothing stands reaches the retire stage with the reply of its interpretation
(R106 to R115). -/
theorem hostCommand_clear {op : Nat} {h : Hdr} {p : Bytes} {s : State} (hc : Clear h p s) :
    ∃ (s1 s2 : State) (f : Flight), s1 = judged op h p s ∧ s2 = finished op h p s ∧ Path s s1 ∧ Path s s2
      ∧ f.pkt = { op := op, hdr := h, payload := p } ∧ f.eff = none ∧ f.phase = .running
      ∧ s2.ses h.ses = { s.ses h.ses with flights := [{ f with phase := .finished, reply := some (interpret s1 f) }] }
      ∧ (∀ a, ¬ early h.ses a → s2.reg a = s.reg a)
      ∧ s2.reg (Reg.cmdAcceptedSeq h.ses) = h.seq ∧ s2.reg (Reg.cmdNextSeq h.ses) = h.seq + 1
      ∧ s2.reg (Reg.cmdSqHead h.ses) = s.reg (Reg.cmdSqHead h.ses) + 1
      ∧ hostCommand op h p s =
        (match ((retire h.ses s2).ses h.ses).ready with
          | some r => if r.seq = h.seq then activationReset (writeReply h.ses (retire h.ses s2)) else retire h.ses s2
          | none => retire h.ses s2) := by
  have hn := hc.num
  generalize en : h.ses = n at *
  -- the doorbell
  let s0 : State := if s.reg (Reg.cmdSqHead n) = s.reg (Reg.cmdSqTail n) then
    s.setReg (Reg.cmdSqTail n) (s.reg (Reg.cmdSqHead n) + 1) else s
  have p0 : Path s s0 := by
    simp only [s0]; split
    · exact path_setReg s _ _ (by simp only [pathReg, Reg.cmdSqTail, decide_eq_true_eq]; omega)
    · exact Path.refl s
  have r0 : ∀ a, a ≠ Reg.cmdSqTail n → s0.reg a = s.reg a := by
    intro a ha; simp only [s0]; split
    · exact State.reg_setReg_ne _ _ ha
    · rfl
  have e0 : s0.ses n = s.ses n := by simp only [s0]; split <;> rfl
  have q0 : s0.porter = s.porter := by simp only [s0]; split <;> rfl
  -- the packet is taken
  let k : Packet := { op := op, hdr := h, payload := p }
  let f0 : Flight := { pkt := k, dep := none, eff := none, phase := .mirror, tick := s0.reg Reg.ptrTick }
  let a1 : State := s0.setReg (Reg.cmdSqHead n) (s0.reg (Reg.cmdSqHead n) + 1)
  let a2 : State := writeJournal n true (a1.onSes n fun x => { x with flights := x.flights ++ [f0] })
  let a3 : State := (a2.setReg (Reg.cmdAcceptedSeq n) h.seq).setReg (Reg.cmdNextSeq n) (h.seq + 1)
  have hfl : (s.ses n).flights = [] := by rw [← en]; exact hc.flights
  have inst : s0.inStep = false := by
    have := hc.alone
    unfold State.inStep State.paired State.pairPhase State.field at this ⊢
    rw [r0 Reg.pairCfg (by simp only [Reg.pairCfg, Reg.cmdSqTail]; omega), r0 Reg.pairState (by simp only [Reg.pairState, Reg.cmdSqTail]; omega)]
    exact this
  have take : takePacket n k p.length s0 = createTask n h.seq a3 := by
    unfold takePacket
    have h1 : ¬ (k.hdr.seq ≠ s0.reg (Reg.cmdNextSeq n)) := by
      rw [r0 (Reg.cmdNextSeq n) (by simp only [Reg.cmdNextSeq, Reg.cmdSqTail]; omega), ← en]; exact not_not_intro hc.seq
    have h2 : ¬ (496 < p.length) := by have := hc.len; omega
    rw [if_neg h1, if_neg h2]
    dsimp only
    rw [inst]
    simp only [Bool.false_and, Bool.false_eq_true, if_false]
    unfold acceptPacket
    rfl
  have p3 : Path s a3 := by
    refine Path.trans p0 (Path.trans ?_ (Path.trans (path_setReg _ _ _ ?_) (path_setReg _ _ _ ?_)))
    · exact Path.trans (path_setReg _ _ _ (by simp only [pathReg, Reg.cmdSqHead, decide_eq_true_eq]; omega))
        (Path.trans (path_setSes _ _ _) (path_writeJournal n true _))
    · simp only [pathReg, Reg.cmdAcceptedSeq, decide_eq_true_eq]; omega
    · simp only [pathReg, Reg.cmdNextSeq, decide_eq_true_eq]; omega
  have ra2 : ∀ a, a2.reg a = a1.reg a := fun a => by
    show (writeJournal n true (a1.onSes n _)).reg a = a1.reg a
    unfold writeJournal
    rw [State.setJrn_reg, State.onSes_eq, State.setSes_reg]
  have e3 : a3.ses n = { s.ses n with flights := [f0] } := by
    have : a3.ses n = { s0.ses n with flights := (s0.ses n).flights ++ [f0] } := by
      simp [a3, a2, a1, writeJournal]
    rw [this, e0, hfl]; rfl
  have q3 : a3.porter = s.porter := by
    simp only [a3, a2, a1, writeJournal, State.setReg_porter, State.setJrn_porter, State.onSes_eq, State.setSes_porter]
    exact q0
  have r3 : ∀ a, a ≠ Reg.cmdSqTail n → a ≠ Reg.cmdSqHead n → a ≠ Reg.cmdAcceptedSeq n → a ≠ Reg.cmdNextSeq n → a3.reg a = s.reg a := by
    intro a h1 h2 h3 h4
    rw [State.reg_setReg_ne _ _ h4, State.reg_setReg_ne _ _ h3, ← r0 _ h1, ra2]
    exact State.reg_setReg_ne _ _ h2
  have f3 : (a3.ses n).flights = [f0] := by rw [e3]
  obtain ⟨c1, ⟨tk, c2, c3, c4⟩, c5, c6⟩ := createTask_ready (n := n) f3 (by
    have : k.hdr.dep = false := hc.dep
    show a3.dependency k.hdr = none
    unfold State.dependency; rw [this]; rfl)
  have p4 : Path s (createTask n f0.seq a3) := p3.trans (path_createTask _ _ _)
  generalize e4 : createTask n f0.seq a3 = a4 at *
  let f1 : Flight := { f0 with phase := .ready, tick := a3.reg Reg.ptrTick }
  have f4 : (a4.ses n).flights = [f1] := by rw [c1]
  have rl : ∀ q, a4.readyList q = if q = (a3.ses n).opened.prio then [tk] else [] := by
    intro q
    have : a3.readyList q = [] := by unfold State.readyList; rw [q3]; exact hc.ready q
    rw [c4, this]; rfl
  have hp : (a3.ses n).opened.prio < 4 := by
    unfold SesCfg.prio bits Sys2Proof.field; omega
  have ci : a4.coreIdle = s.coreIdle :=
    coreIdle_congr (by rw [p4.rest]) (p4.reg _ (by decide)) (by rw [c5, q3])
  obtain ⟨c, hcf, hci⟩ : ∃ c, (List.range 4).find? a4.coreIdle = some c ∧ a4.coreIdle c = true := by
    apply find_idle
    obtain ⟨c, h1⟩ := hc.idle
    refine ⟨c, ?_, by rw [ci]; exact h1⟩
    simp only [State.coreIdle, Bool.and_eq_true, decide_eq_true_eq] at h1; exact h1.1.1.2
  obtain ⟨d0, d1, d2, d3⟩ := dispatch_one (n := n) (f := f1) hci hp rl c2 c3 f4
  have p5 : Path s (dispatch c a4) := p4.trans (path_dispatch _ _)
  have f5 : ((dispatch c a4).ses n).flights = [{ f1 with phase := .running }] := by rw [d1]
  obtain ⟨g1, g2⟩ := finishTask_one (n := n) (f := { f1 with phase := .running }) d2 hn c2 c3 f5 rfl
  have p6 : Path s (finishTask c (dispatch c a4)) := p5.trans (path_finishTask d2 (by omega))
  have nc : a4.nextCore n h.seq = some c := by
    unfold State.nextCore
    rw [d0]
    dsimp only
    rw [rl, if_pos rfl]
    dsimp only
    have : tk.seq = h.seq := c3
    rw [if_pos ⟨c2, this⟩, hcf]
  have r6 : ∀ a, a ≠ Reg.ptrPeak → a ≠ Reg.ptrDispatchCnt → a ≠ Reg.ptrMaxlat → a ≠ Reg.ptrStat → (finishTask c (dispatch c a4)).reg a = a3.reg a := by
    intro a h1 h2 h3 h4
    rw [g2, d3 a h2 h3, c6 a h1 h4]
  have ar : arrived op h p s = a4 := by
    unfold arrived
    rw [en]
    exact take.trans e4
  refine ⟨(dispatch c a4).setCore c none, finishTask c (dispatch c a4), { f1 with phase := .running },
    by unfold judged; rw [ar, en, nc], by unfold finished; rw [ar, en, nc], p5.trans (path_onPorter _ _), p6, rfl, rfl, rfl, ?_, ?_, ?_, ?_, ?_, ?_⟩
  · rw [g1, d1, c1, e3]
  · intro a ha
    simp only [early, not_or] at ha
    rw [r6 a ha.2.2.2.2.1 ha.2.2.2.2.2.1 ha.2.2.2.2.2.2.1 ha.2.2.2.2.2.2.2]
    exact r3 a ha.1 ha.2.1 ha.2.2.1 ha.2.2.2.1
  · rw [r6 (Reg.cmdAcceptedSeq n) (by simp only [Reg.cmdAcceptedSeq, Reg.ptrPeak]; omega) (by simp only [Reg.cmdAcceptedSeq, Reg.ptrDispatchCnt]; omega)
      (by simp only [Reg.cmdAcceptedSeq, Reg.ptrMaxlat]; omega) (by simp only [Reg.cmdAcceptedSeq, Reg.ptrStat]; omega), State.reg_setReg_ne (j := Reg.cmdAcceptedSeq n) _ _ (by simp only [Reg.cmdAcceptedSeq, Reg.cmdNextSeq]; omega)]
    simp
  · rw [r6 (Reg.cmdNextSeq n) (by simp only [Reg.cmdNextSeq, Reg.ptrPeak]; omega) (by simp only [Reg.cmdNextSeq, Reg.ptrDispatchCnt]; omega)
      (by simp only [Reg.cmdNextSeq, Reg.ptrMaxlat]; omega) (by simp only [Reg.cmdNextSeq, Reg.ptrStat]; omega)]
    simp [a3]
  · rw [r6 (Reg.cmdSqHead n) (by simp only [Reg.cmdSqHead, Reg.ptrPeak]; omega) (by simp only [Reg.cmdSqHead, Reg.ptrDispatchCnt]; omega)
      (by simp only [Reg.cmdSqHead, Reg.ptrMaxlat]; omega) (by simp only [Reg.cmdSqHead, Reg.ptrStat]; omega), State.reg_setReg_ne (j := Reg.cmdSqHead n) _ _ (by simp only [Reg.cmdSqHead, Reg.cmdNextSeq]; omega),
      State.reg_setReg_ne (j := Reg.cmdSqHead n) _ _ (by simp only [Reg.cmdSqHead, Reg.cmdAcceptedSeq]; omega)]
    have : a2.reg (Reg.cmdSqHead n) = s0.reg (Reg.cmdSqHead n) + 1 := by rw [ra2, State.reg_setReg, if_pos rfl]
    rw [this, r0 (Reg.cmdSqHead n) (by simp only [Reg.cmdSqHead, Reg.cmdSqTail]; omega)]
  · unfold hostCommand
    have hf : s.mayFetch n = true := by rw [← en]; exact hc.fetch
    simp only [en, hf, Bool.not_true, Bool.false_eq_true, if_false]
    have : takePacket n { op := op, hdr := h, payload := p } p.length
        (if s.reg (Reg.cmdSqHead n) = s.reg (Reg.cmdSqTail n) then s.setReg (Reg.cmdSqTail n) (s.reg (Reg.cmdSqHead n) + 1) else s) = a4 :=
      take.trans e4
    rw [this, nc]
    dsimp only
    rw [g1]
    dsimp only
    rw [if_pos (show Flight.seq _ = h.seq from rfl)] <;> rfl

end Sys2Proof
end

