-- ==== Sys2Proof/Laws/Commands.lean ====
section
/-!
SUPPORT. A host command before which nothing stands: what its retirement does, how it serves a query or an
immediate act, and how it stages a boundary command.
-/
namespace Sys2Proof

open Machine

/-- The end of a retirement: the axes' records, the reply store, the counters and the waiting commands (R116). -/
def wrapUp (n : Nat) (seq : Word) (target : Nat) (q : StoredReply) (s : State) : State :=
  let s := (s.targetSlots target).foldl (fun s a => s.onAxis a fun x => { x with seq := seq, seqSes := n }) s
  let s := s.onSes n fun x => { x with flights := [], replies := x.replies ++ [q] }
  let s := s.onPair fun p => { p with order := without (n, seq) p.order }
  examineAll (writeJournal n true (s.setReg (Reg.cmdRetiredSeq n) seq))

theorem retire_one {n : Nat} {s : State} {f : Flight} {r : Reply} {o : OpSpec} (hf : (s.ses n).flights = [f])
    (hp : f.phase = .finished) (hr : f.reply = some r) (hm : s.mayRetire n f r = true)
    (hi : s.inStep = false) (ho : s.serves? f.pkt.op = some o) :
    retire n s =
      (let s' := touchUnit f.pkt.op s
       let l := o.slots s' f.pkt
       let ran := if r.status = 0 then o.act f.pkt (s'.effectAt f.pkt.hdr f.eff l) r s' else { reply := r, st := s' }
       let staged := o.yes && decide (ran.reply.status = 0)
       wrapUp n f.seq f.pkt.hdr.target.toNat { seq := f.seq, op := f.pkt.op, reply := ran.reply, due := !staged && ran.due }
         (if staged then stageEffect n f l ran.stg ran.st else ran.st)) := by
  have ho' : (touchUnit f.pkt.op s).serves? f.pkt.op = some o := by
    rw [← ho]
    have : (touchUnit f.pkt.op s).power = s.power := by
      unfold touchUnit
      split
      · rfl
      · split <;> rfl
    unfold State.serves?; rw [this]
  have hs : s.standby = false := by unfold State.standby; rw [hi]; rfl
  unfold retire
  rw [hf]
  simp only [hp, hr, hm, hs, Bool.not_true, Bool.false_eq_true, if_false, ho']
  rfl

theorem seq_axis (l : List Nat) (q : Word) (n m : Nat) : ∀ s : State,
    (l.foldl (fun s a => s.onAxis a fun x => { x with seq := q, seqSes := n }) s).axis m =
      if m ∈ l then { s.axis m with seq := q, seqSes := n } else s.axis m := by
  induction l with
  | nil => intro s; simp
  | cons a r ih =>
    intro s
    rw [List.foldl_cons, ih]
    by_cases h1 : m = a
    · subst h1; simp
    · by_cases h2 : m ∈ r <;> simp [h1, h2]

theorem foldl_axes (l : List Nat) (q : Word) (n : Nat) : ∀ s : State,
    l.foldl (fun s a => s.onAxis a fun x => { x with seq := q, seqSes := n }) s =
      { s with axes := (l.foldl (fun s a => s.onAxis a fun x => { x with seq := q, seqSes := n }) s).axes } := by
  induction l with
  | nil => intro s; rfl
  | cons a r ih => intro s; rw [List.foldl_cons, ih]; rfl

theorem without_notMem {α : Type} [DecidableEq α] (x : α) (l : List α) (h : x ∉ l) : without x l = l := by
  unfold without
  rw [List.filter_eq_self]
  intro a ha
  simp only [decide_eq_true_eq]
  intro e; subst e; exact h ha


/-- What examining changes besides the session of the command: one register. -/
theorem examine_reg (s : State) (n : Nat) (f : Flight) {a : Nat} (h : a ≠ Reg.ptrPeak) : (examine s n f).reg a = s.reg a := by
  unfold examine
  split
  · split
    · unfold finishFlight; rw [onFlight_reg, State.onPorter_reg]
    · split
      · unfold makeReady
        dsimp only
        rw [notePeak_reg _ h, onFlight_reg, setReady_reg, State.onPorter_reg]
      · rfl
    · rfl
  · rfl

theorem onFlight_ses_ne {n m : Nat} (h : m ≠ n) (q : Word) (g : Flight → Flight) (s : State) :
    (onFlight n q g s).ses m = s.ses m := by
  unfold onFlight; rw [State.onSes_eq, State.ses_setSes, if_neg h]

theorem examine_ses_ne (s : State) {n m : Nat} (f : Flight) (h : m ≠ n) : (examine s n f).ses m = s.ses m := by
  unfold examine
  split
  · split
    · unfold finishFlight; rw [onFlight_ses_ne h, State.onPorter_ses]
    · split
      · unfold makeReady notePeak State.setReady
        dsimp only
        rw [State.setReg_ses, onFlight_ses_ne h, State.onPorter_ses, State.onPorter_ses]
      · rfl
    · rfl
  · rfl

theorem foldl_keeps {α β : Type} (g : State → β) (f : State → α → State) (hf : ∀ s x, g (f s x) = g s) (l : List α) :
    ∀ s, g (l.foldl f s) = g s := by
  induction l with
  | nil => intro s; rfl
  | cons x r ih => intro s; rw [List.foldl_cons, ih, hf]

theorem examineAll_reg (s : State) {a : Nat} (h : a ≠ Reg.ptrPeak) : (examineAll s).reg a = s.reg a :=
  foldl_keeps (fun s => s.reg a) _ (fun s n => foldl_keeps (fun s => s.reg a) _ (fun s f => examine_reg s n f h) _ s) _ s

/-- A session without commands in flight is not changed by examining. -/
theorem examineAll_ses (s : State) {m : Nat} (h : (s.ses m).flights = []) : (examineAll s).ses m = s.ses m := by
  unfold examineAll
  generalize List.range 4 = l
  induction l generalizing s with
  | nil => rfl
  | cons n r ih =>
    rw [List.foldl_cons]
    have : ((s.ses n).flights.foldl (fun s f => examine s n f) s).ses m = s.ses m := by
      by_cases e : m = n
      · subst e; rw [h]; rfl
      · exact foldl_keeps (fun s => s.ses m) _ (fun s f => examine_ses_ne s f e) _ s
    rw [ih _ (by rw [this]; exact h), this]


/-- What the end of a retirement does. -/
theorem wrapUp_spec (n : Nat) (q : Word) (target : Nat) (r : StoredReply) (s : State) (h : (n, q) ∉ s.pair.order) (hn : n < 4) :
    (wrapUp n q target r s = { s with
        regs := (wrapUp n q target r s).regs, sessions := (wrapUp n q target r s).sessions,
        porter := (wrapUp n q target r s).porter, journal := (wrapUp n q target r s).journal,
        axes := (wrapUp n q target r s).axes })
    ∧ (∀ a, a ≠ Reg.cmdRetiredSeq n → a ≠ Reg.ptrPeak → (wrapUp n q target r s).reg a = s.reg a)
    ∧ (wrapUp n q target r s).reg (Reg.cmdRetiredSeq n) = q
    ∧ (∀ m, (wrapUp n q target r s).axis m =
        if m ∈ s.targetSlots target then { s.axis m with seq := q, seqSes := n } else s.axis m)
    ∧ (wrapUp n q target r s).ses n = { s.ses n with flights := [], replies := (s.ses n).replies ++ [r] } := by
  let s1 := (s.targetSlots target).foldl (fun s a => s.onAxis a fun x => { x with seq := q, seqSes := n }) s
  have a1 : ∀ m, s1.axis m = if m ∈ s.targetSlots target then { s.axis m with seq := q, seqSes := n } else s.axis m :=
    fun m => seq_axis _ q n m s
  have e1 : s1 = { s with axes := s1.axes } := foldl_axes _ q n s
  have h1 : ∀ a, s1.reg a = s.reg a := fun a => by rw [e1]; rfl
  have x1 : s1.ses n = s.ses n := by rw [e1]; rfl
  have o1 : s1.pair = s.pair := by rw [e1]
  let s2 := s1.onSes n fun x => { x with flights := [], replies := x.replies ++ [r] }
  have x2 : s2.ses n = { s.ses n with flights := [], replies := (s.ses n).replies ++ [r] } := by
    simp only [s2, State.onSes_eq, State.ses_setSes, if_true, x1]
  let s3 := s2.onPair fun p => { p with order := without (n, q) p.order }
  have e3 : s3 = s2 := by
    have : s2.pair.order = s.pair.order := by show s1.pair.order = _; rw [o1]
    show { s2 with pair := { s2.pair with order := without (n, q) s2.pair.order } } = s2
    rw [this, without_notMem _ _ h, ← this]
  let s4 := writeJournal n true (s2.setReg (Reg.cmdRetiredSeq n) q)
  have hw : wrapUp n q target r s = examineAll s4 := by
    show examineAll (writeJournal n true (s3.setReg (Reg.cmdRetiredSeq n) q)) = _
    rw [e3]
  have p4 : Path s1 s4 := by
    refine (path_setSes s1 n _).trans ((path_setReg _ _ _ ?_).trans (path_writeJournal n true _))
    simp only [pathReg, Reg.cmdRetiredSeq, decide_eq_true_eq]; omega
  have p5 : Path s1 (examineAll s4) := p4.trans (path_examineAll s4)
  have r4 : ∀ a, s4.reg a = if a = Reg.cmdRetiredSeq n then q else s.reg a := by
    intro a
    show (writeJournal n true (s2.setReg (Reg.cmdRetiredSeq n) q)).reg a = _
    unfold writeJournal
    rw [State.setJrn_reg, State.reg_setReg]
    have : s2.reg a = s.reg a := by rw [← h1]; rfl
    rw [this]
  have x4 : s4.ses n = s2.ses n := by
    show (writeJournal n true (s2.setReg (Reg.cmdRetiredSeq n) q)).ses n = _
    unfold writeJournal
    rw [State.setJrn_ses, State.setReg_ses]
  have f4 : (s4.ses n).flights = [] := by rw [x4, x2]
  rw [hw]
  refine ⟨?_, ?_, ?_, ?_, ?_⟩
  · rw [p5.rest, e1]
  · intro a ha hb
    rw [examineAll_reg _ hb, r4, if_neg ha]
  · rw [examineAll_reg _ (by simp only [Reg.cmdRetiredSeq, Reg.ptrPeak]; omega), r4, if_pos rfl]
  · intro m
    rw [← a1 m]
    have : (examineAll s4).axes = s1.axes := by rw [p5.rest]
    unfold State.axis; rw [this]
  · rw [examineAll_ses s4 f4, x4, x2]


theorem early_ne {n a : Nat} (k : a < 0x30000) (h1 : a ≠ Reg.cmdSqTail n)
    (h2 : a ≠ Reg.cmdSqHead n) (h3 : a ≠ Reg.cmdAcceptedSeq n) (h4 : a ≠ Reg.cmdNextSeq n) : ¬ early n a := by
  simp only [early, Reg.ptrPeak, Reg.ptrDispatchCnt, Reg.ptrMaxlat, Reg.ptrStat]
  omega

/-- The first settled reply of a store in which only the last is settled. -/
theorem ready_last {x : Session} {l : List StoredReply} {q : StoredReply} (h : x.replies = l ++ [q])
    (hl : ∀ r ∈ l, r.due = false) (hq : q.due = true) : x.ready = some q := by
  unfold Session.ready
  rw [h, List.find?_append]
  have : l.find? (fun r => r.due) = none := by
    rw [List.find?_eq_none]; intro r hr; rw [hl r hr]; decide
  rw [this]
  simp [hq]

theorem ready_none {x : Session} (h : ∀ r ∈ x.replies, r.due = false) : x.ready = none := by
  unfold Session.ready
  rw [List.find?_eq_none]; intro r hr; rw [h r hr]; decide

/-- The reply of a single device goes to the completion ring in host memory (R103). -/
theorem writeReply_host {n : Nat} {q : StoredReply} {s : State} (hr : (s.ses n).ready = some q) (hm : s.mayReply n = true)
    (hi : s.inStep = false) (hc : (s.ses n).opened.cqSram = false) :
    let c := (s.ses n).opened
    let t := writeReply n s
    (t = { s with regs := t.regs, sessions := t.sessions, out := t.out })
    ∧ (∀ a, a ≠ Reg.cmdCqTail n → a ≠ Reg.cmdStat n → t.reg a = s.reg a)
    ∧ t.reg (Reg.cmdCqTail n) = s.reg (Reg.cmdCqTail n) + 1
    ∧ (t.ses n).flights = (s.ses n).flights
    ∧ t.out = Output.hostWrite (c.cqBase + BitVec.ofNat 64 ((s.reg (Reg.cmdCqTail n)).toNat % c.depth * c.cqSlot))
        ((q.bytes n).take c.cqSlot) :: s.out := by
  dsimp only
  have hb : s.byProxy n = false := by unfold State.byProxy; rw [hi]; rfl
  have key : writeReply n s = advanceCq n ((s.emit (Output.hostWrite ((s.ses n).opened.cqBase + BitVec.ofNat 64
      ((s.reg (Reg.cmdCqTail n)).toNat % (s.ses n).opened.depth * (s.ses n).opened.cqSlot)) ((q.bytes n).take (s.ses n).opened.cqSlot))).onSes n
        fun x => { x with replies := x.replies.filter fun r => r.seq ≠ q.seq }) := by
    unfold writeReply
    rw [hr]
    simp only [hm, hi, hb, Bool.not_true, Bool.false_eq_true, if_false, Bool.false_and]
    unfold putSlot
    simp only [hc, Bool.false_eq_true, if_false]
  rw [key]
  generalize hu : ((s.emit _).onSes n _ : State) = u
  have ur : ∀ a, u.reg a = s.reg a := fun a => by rw [← hu]; rfl
  have ue : u = { s with sessions := u.sessions, out := u.out } := by rw [← hu]; rfl
  have uf : (u.ses n).flights = (s.ses n).flights := by rw [← hu]; simp
  have uo : u.out = Output.hostWrite ((s.ses n).opened.cqBase + BitVec.ofNat 64
      ((s.reg (Reg.cmdCqTail n)).toNat % (s.ses n).opened.depth * (s.ses n).opened.cqSlot)) ((q.bytes n).take (s.ses n).opened.cqSlot) :: s.out := by
    rw [← hu]; rfl
  unfold advanceCq
  dsimp only
  have st : Reg.cmdStat n ≠ Reg.cmdCqTail n := by simp only [Reg.cmdStat, Reg.cmdCqTail]; omega
  split
  · refine ⟨?_, ?_, ?_, ?_, ?_⟩
    · rw [ue]; rfl
    · intro a h1 h2
      unfold State.event State.raise
      rw [State.reg_setReg_ne _ _ h2, State.onSes_eq, State.setSes_reg, State.reg_setReg_ne _ _ h1, ur]
    · unfold State.event State.raise
      rw [State.reg_setReg_ne _ _ st.symm, State.onSes_eq, State.setSes_reg, State.reg_setReg, if_pos rfl, ur]
    · unfold State.event State.raise
      rw [State.setReg_ses, State.onSes_eq, State.ses_setSes, if_pos rfl, State.setReg_ses, uf]
    · rw [← uo]; rfl
  · refine ⟨?_, ?_, ?_, ?_, ?_⟩
    · rw [ue]; rfl
    · intro a h1 h2
      rw [State.onSes_eq, State.setSes_reg, State.reg_setReg_ne _ _ h1, ur]
    · rw [State.onSes_eq, State.setSes_reg, State.reg_setReg, if_pos rfl, ur]
    · rw [State.onSes_eq, State.ses_setSes, if_pos rfl, State.setReg_ses, uf]
    · rw [← uo]; rfl


/-! ### What carries from a state to another of the same path -/

theorem Path.inStep {s t : State} (h : Path s t) : t.inStep = s.inStep := by
  unfold State.inStep State.paired State.pairPhase State.field
  rw [h.reg Reg.pairCfg (by decide), h.reg Reg.pairState (by decide)]

theorem Path.leads {s t : State} (h : Path s t) : t.leads = s.leads := by
  unfold State.leads State.paired State.active? State.field
  rw [h.reg Reg.pairCfg (by decide), h.reg Reg.pairState (by decide)]

theorem Path.power {s t : State} (h : Path s t) : t.power = s.power := by rw [h.rest]
theorem Path.cap {s t : State} (h : Path s t) (n : Nat) : t.cap n = s.cap n := by
  unfold State.cap; rw [h.reg Reg.sysCapLive (by decide)]
theorem Path.capX {s t : State} (h : Path s t) (n : Nat) : t.capX n = s.capX n := by
  unfold State.capX; rw [h.reg Reg.sysCapLiveX (by decide)]

theorem Path.serves? {s t : State} (h : Path s t) (op : Nat) : t.serves? op = s.serves? op := by
  unfold State.serves?; rw [h.power]

theorem Path.masters {s t : State} (h : Path s t) : t.masters = s.masters := by
  unfold State.masters State.qspi; rw [h.power]

/-- The first refusal of a command is that of `verdict` (R119, R134). -/
theorem interpret_verdict {op : Nat} {h : Hdr} {p : Bytes} {s : State} {f : Flight} {o : OpSpec}
    (hk : f.pkt = { op := op, hdr := h, payload := p }) (ho : opSpec op = some o)
    (hs : (judged op h p s).serves? op = some o) (hd : (judged op h p s).distant f = s.tooFar h) :
    interpret (judged op h p s) f = verdict o op h p s := by
  unfold interpret verdict
  rw [hk]
  dsimp only
  rw [ho, hd, hs]
  dsimp only
  cases h1 : o.yes && s.tooFar h
  · simp only [Bool.false_eq_true, if_false]
    cases checkCommand o (judged op h p s) { op := op, hdr := h, payload := p } <;> rfl
  · rfl

/-- What holds of a command that has gone to its retirement. -/
structure Retired (o : OpSpec) (op : Nat) (h : Hdr) (p : Bytes) (s : State) (f : Flight) : Prop where
  toJudged : Path s (judged op h p s)
  toFinished : Path s (finished op h p s)
  pkt : f.pkt = { op := op, hdr := h, payload := p }
  eff : f.eff = none
  ses : (finished op h p s).ses h.ses = { s.ses h.ses with flights := [f] }
  regs : ∀ a, ¬ early h.ses a → (finished op h p s).reg a = s.reg a
  accepted : (finished op h p s).reg (Reg.cmdAcceptedSeq h.ses) = h.seq
  next : (finished op h p s).reg (Reg.cmdNextSeq h.ses) = h.seq + 1
  command : hostCommand op h p s =
    (match ((retire h.ses (finished op h p s)).ses h.ses).ready with
      | some r => if r.seq = h.seq then activationReset (writeReply h.ses (retire h.ses (finished op h p s)))
        else retire h.ses (finished op h p s)
      | none => retire h.ses (finished op h p s))
  retires : retire h.ses (finished op h p s) = (
    let ran := ranAt o op h p s
    let staged := o.yes && decide (ran.reply.status = 0)
    wrapUp h.ses h.seq h.target.toNat { seq := h.seq, op := op, reply := ran.reply, due := !staged && ran.due }
      (if staged then stageEffect h.ses f (slotsAt o op h p s) ran.stg ran.st else ran.st))

/-- A command before which nothing stands retires (R116). -/
theorem clear_retires {op : Nat} {h : Hdr} {p : Bytes} {o : OpSpec} {s : State} (hc : Clear h p s)
    (ho : opSpec op = some o)
    (hf : (verdict o op h p s).status = 0 → (finished op h p s).queueFits o { op := op, hdr := h, payload := p } = true) :
    ∃ f, Retired o op h p s f := by
  have hn := hc.num
  obtain ⟨s1, s2, f, e1, e2, p1, p2, fk, fe, fp, x2, r2, acc, nxt, _, key⟩ := hostCommand_clear (op := op) hc
  subst e1; subst e2
  let n := h.ses
  let k : Packet := { op := op, hdr := h, payload := p }
  have hop : f.pkt.op = op := by rw [fk]
  have fseq : f.seq = h.seq := by unfold Flight.seq; rw [fk]
  have sv : s.serves? op = some o := by
    unfold State.serves?; rw [hc.firmware]; exact ho
  have hdist : (judged op h p s).distant f = s.tooFar h := by
    unfold State.distant
    rw [fe, fk]
    unfold State.tooFar State.nearPeriod
    rw [p1.rest]
  have int : interpret (judged op h p s) f = verdict o op h p s :=
    interpret_verdict fk ho (by rw [p1.serves? op]; exact sv) hdist
  let f2 : Flight := { f with phase := .finished, reply := some (interpret (judged op h p s) f) }
  have hf2 : ((finished op h p s).ses n).flights = [f2] := by rw [x2]
  have st2 : (finished op h p s).reg (Reg.cmdState n) = s.reg (Reg.cmdState n) := r2 _ (early_ne (by show 0x20008 + 0x1000 * h.ses < _; omega) (by simp only [Reg.cmdState, Reg.cmdSqTail]; omega) (by simp only [Reg.cmdState, Reg.cmdSqHead]; omega) (by simp only [Reg.cmdState, Reg.cmdAcceptedSeq]; omega) (by simp only [Reg.cmdState, Reg.cmdNextSeq]; omega))
  have ct2 : (finished op h p s).reg (Reg.cmdCqTail n) = s.reg (Reg.cmdCqTail n) := r2 _ (early_ne (by show 0x20038 + 0x1000 * h.ses < _; omega) (by simp only [Reg.cmdCqTail, Reg.cmdSqTail]; omega) (by simp only [Reg.cmdCqTail, Reg.cmdSqHead]; omega) (by simp only [Reg.cmdCqTail, Reg.cmdAcceptedSeq]; omega) (by simp only [Reg.cmdCqTail, Reg.cmdNextSeq]; omega))
  have ch2 : (finished op h p s).reg (Reg.cmdCqHead n) = s.reg (Reg.cmdCqHead n) := r2 _ (early_ne (by show 0x2003c + 0x1000 * h.ses < _; omega) (by simp only [Reg.cmdCqHead, Reg.cmdSqTail]; omega) (by simp only [Reg.cmdCqHead, Reg.cmdSqHead]; omega) (by simp only [Reg.cmdCqHead, Reg.cmdAcceptedSeq]; omega) (by simp only [Reg.cmdCqHead, Reg.cmdNextSeq]; omega))
  -- what the fetch has shown
  have fet := hc.fetch
  simp only [State.mayFetch, State.mayTake, State.cmdUp, Bool.and_eq_true, decide_eq_true_eq] at fet
  have hup : s.up = true := fet.1.1.1.1.1.1.1.1.1.1
  have hst : s.sesState n = 2 := fet.1.1.1.1.1.1.1.1.2
  -- retirement
  have mr : (finished op h p s).mayRetire n f2 (verdict o op h p s) = true := by
    have h1 : (finished op h p s).cmdUp n = true := by
      unfold State.cmdUp State.up; rw [p2.power]
      simp only [Bool.and_eq_true, decide_eq_true_eq]; exact ⟨hup, hn⟩
    have h2 : (finished op h p s).sesState n = 2 := by unfold State.sesState State.field at hst ⊢; rw [st2]; exact hst
    have h3 : (finished op h p s).cqFull n = false := by
      have := hc.ring
      unfold State.cqFull State.cqUsed at this ⊢
      rw [x2, ct2, ch2]; exact this
    have h4 : (finished op h p s).inStep = false := by rw [p2.inStep]; exact hc.alone
    have h6 : (finished op h p s).serves? f2.pkt.op = some o := by
      have : f2.pkt.op = op := hop
      rw [this, p2.serves? op]; exact sv
    have h7 : f2.pkt = k := fk
    unfold State.mayRetire
    rw [h1, h2, h3, h4, h6]
    dsimp only
    rw [h7]
    by_cases h8 : (verdict o op h p s).status = 0
    · rw [hf h8]; simp
    · simp [h8]
  have ret := retire_one (o := o) (r := verdict o op h p s) hf2 rfl (by show some (interpret _ f) = _; rw [int]) mr
    (by rw [p2.inStep]; exact hc.alone)
    (by show (finished op h p s).serves? f.pkt.op = _; rw [hop, p2.serves? op]; exact sv)
  have hk2 : f2.pkt = k := fk
  have hs2 : f2.seq = h.seq := fseq
  have he2 : f2.eff = none := fe
  rw [hk2, hs2, he2] at ret
  exact ⟨f2, p1, p2, fk, fe, x2, r2, acc, nxt, key, ret⟩

/-- `t` stands where the command's retirement has left the path, and no pair in step holds it. -/
structure Kept (op : Nat) (h : Hdr) (p : Bytes) (s t : State) : Prop where
  path : ∀ a, pathReg a = true → t.reg a = (finished op h p s).reg a
  ses : t.ses h.ses = (finished op h p s).ses h.ses
  order : t.pair.order = s.pair.order

/-- What retirement leaves once the reply `r` stands in the reply store. -/
theorem retired_spec {o : OpSpec} {op : Nat} {h : Hdr} {p : Bytes} {s : State} {f : Flight} (hc : Clear h p s)
    (hr : Retired o op h p s f) {r : Reply} {d : Bool} {E u : State} (hk : Kept op h p s E)
    (hu : u = wrapUp h.ses h.seq h.target.toNat { seq := h.seq, op := op, reply := r, due := d } E) :
    (u = { E with regs := u.regs, sessions := u.sessions, porter := u.porter, journal := u.journal, axes := u.axes })
    ∧ (∀ a, pathReg a = false → u.reg a = E.reg a)
    ∧ (∀ a, pathReg a = true → a ≠ Reg.cmdRetiredSeq h.ses → a ≠ Reg.ptrPeak → u.reg a = (finished op h p s).reg a)
    ∧ u.reg (Reg.cmdRetiredSeq h.ses) = h.seq
    ∧ (∀ m, u.axis m = if m ∈ E.targetSlots h.target.toNat then { E.axis m with seq := h.seq, seqSes := h.ses } else E.axis m)
    ∧ u.ses h.ses = { s.ses h.ses with
        flights := [], replies := (s.ses h.ses).replies ++ [{ seq := h.seq, op := op, reply := r, due := d }] } := by
  have hn := hc.num
  have hord : (h.ses, h.seq) ∉ E.pair.order := by rw [hk.order]; exact hc.order
  obtain ⟨w1, w2, w3, w4, w5⟩ := wrapUp_spec h.ses h.seq h.target.toNat { seq := h.seq, op := op, reply := r, due := d } E hord hn
  rw [← hu] at w1 w2 w3 w4 w5
  refine ⟨w1, ?_, ?_, w3, w4, ?_⟩
  · intro a h1
    exact w2 a (by intro e; subst e; simp only [pathReg, Reg.cmdRetiredSeq, decide_eq_false_iff_not] at h1; omega)
      (by intro e; subst e; revert h1; decide)
  · intro a h1 h2 h3; rw [w2 a h2 h3, hk.path a h1]
  · rw [w5, hk.ses, hr.ses]

/-- A command whose reply waits leaves the state that its retirement leaves. -/
theorem exec_awaited {i : Instr} {o : OpSpec} {op : Nat} {h : Hdr} {p : Bytes} {s : State} {f : Flight}
    (hi : ∀ s, exec i s = done (hostCommand op h p s)) (hc : Clear h p s) (hr : Retired o op h p s f) {r : Reply} {E : State}
    (hk : Kept op h p s E)
    (hu : retire h.ses (finished op h p s) =
      wrapUp h.ses h.seq h.target.toNat { seq := h.seq, op := op, reply := r, due := false } E) :
    Waits i op h r s E := by
  have hn := hc.num
  generalize hv : retire h.ses (finished op h p s) = u at *
  obtain ⟨w1, ureg, upath, w3, w4, ses_u⟩ := retired_spec hc hr hk hu
  have rdy : (u.ses h.ses).ready = none := by
    apply ready_none
    rw [ses_u]
    intro r' hr
    rcases List.mem_append.mp hr with h1 | h1
    · exact (hc.replies r' h1).1
    · rw [List.mem_singleton] at h1; rw [h1]
  have fin : hostCommand op h p s = u := by
    rw [hr.command, hv, rdy]
  have qt := settle_quiet (hostCommand op h p s)
  refine ⟨settle (hostCommand op h p s), by rw [hi]; rfl, ?_, ?_⟩
  · rw [fin] at qt ⊢
    generalize settle u = t at qt ⊢
    refine ⟨?_, ?_, ?_, ?_, ?_, ?_, ?_, ?_⟩
    · rw [qt.1, w1]
    · intro a h1; rw [qt.reg]; exact ureg a h1
    · intro a h1 h2
      simp only [ownRegs, List.mem_cons, List.not_mem_nil, or_false, not_or] at h2
      rw [qt.reg, upath a h1 h2.2.2.2.2.1 h2.2.2.2.2.2.2.2.1]
      exact hr.regs a (by simp only [early, not_or]; exact ⟨h2.1, h2.2.1, h2.2.2.1, h2.2.2.2.1, h2.2.2.2.2.2.2.2.1, h2.2.2.2.2.2.2.2.2.1, h2.2.2.2.2.2.2.2.2.2.1, h2.2.2.2.2.2.2.2.2.2.2⟩)
    · intro m
      have : t.axis m = u.axis m := by unfold State.axis; rw [qt.1]
      rw [this, w4 m]
    · rw [qt.reg, upath (Reg.cmdAcceptedSeq h.ses) (by simp only [pathReg, Reg.cmdAcceptedSeq, decide_eq_true_eq]; omega) (by simp only [Reg.cmdAcceptedSeq, Reg.cmdRetiredSeq]; omega) (by simp only [Reg.cmdAcceptedSeq, Reg.ptrPeak]; omega)]
      exact hr.accepted
    · rw [qt.reg, upath (Reg.cmdNextSeq h.ses) (by simp only [pathReg, Reg.cmdNextSeq, decide_eq_true_eq]; omega) (by simp only [Reg.cmdNextSeq, Reg.cmdRetiredSeq]; omega) (by simp only [Reg.cmdNextSeq, Reg.ptrPeak]; omega)]
      exact hr.next
    · rw [qt.reg, w3]
    · have : t.ses h.ses = u.ses h.ses := by rw [qt.1]; rfl
      rw [this, ses_u]
  · unfold Awaits
    have : (settle (hostCommand op h p s)).ses h.ses = u.ses h.ses := by rw [qt.1, fin]; rfl
    rw [this, ses_u]
    exact List.mem_append_right _ (List.mem_singleton.mpr rfl)

/-- The state that a command leaves beside the path, in which its reply is written. -/
structure Around (s e : State) : Prop where
  up : e.up = s.up
  masters : e.masters = s.masters
  leads : e.leads = true
  alone : e.inStep = false

/-- A command whose reply is settled has it written (R103, R131); an activation then restarts the device. -/
theorem command_replied {o : OpSpec} {op : Nat} {h : Hdr} {p : Bytes} {s : State} {f : Flight}
    (hc : Clear h p s) (hr : Retired o op h p s f) {r : Reply} {E : State}
    (hk : Kept op h p s E) (ha : Around s E)
    (hu : retire h.ses (finished op h p s) =
      wrapUp h.ses h.seq h.target.toNat { seq := h.seq, op := op, reply := r, due := true } E) :
    ∃ w, hostCommand op h p s = activationReset w ∧ Served h s E w ∧ Answered op h r s w ∧ w.inn.resetDue = E.inn.resetDue := by
  have hn := hc.num
  let n := h.ses
  generalize hv : retire h.ses (finished op h p s) = u at *
  obtain ⟨w1, ureg, upath, w3, w4, ses_u⟩ := retired_spec hc hr hk hu
  let q : StoredReply := { seq := h.seq, op := op, reply := r, due := true }
  have r2 := hr.regs
  have st2 : (finished op h p s).reg (Reg.cmdState n) = s.reg (Reg.cmdState n) := r2 _ (early_ne (by show 0x20008 + 0x1000 * h.ses < _; omega) (by simp only [Reg.cmdState, Reg.cmdSqTail]; omega) (by simp only [Reg.cmdState, Reg.cmdSqHead]; omega) (by simp only [Reg.cmdState, Reg.cmdAcceptedSeq]; omega) (by simp only [Reg.cmdState, Reg.cmdNextSeq]; omega))
  have ct2 : (finished op h p s).reg (Reg.cmdCqTail n) = s.reg (Reg.cmdCqTail n) := r2 _ (early_ne (by show 0x20038 + 0x1000 * h.ses < _; omega) (by simp only [Reg.cmdCqTail, Reg.cmdSqTail]; omega) (by simp only [Reg.cmdCqTail, Reg.cmdSqHead]; omega) (by simp only [Reg.cmdCqTail, Reg.cmdAcceptedSeq]; omega) (by simp only [Reg.cmdCqTail, Reg.cmdNextSeq]; omega))
  have ch2 : (finished op h p s).reg (Reg.cmdCqHead n) = s.reg (Reg.cmdCqHead n) := r2 _ (early_ne (by show 0x2003c + 0x1000 * h.ses < _; omega) (by simp only [Reg.cmdCqHead, Reg.cmdSqTail]; omega) (by simp only [Reg.cmdCqHead, Reg.cmdSqHead]; omega) (by simp only [Reg.cmdCqHead, Reg.cmdAcceptedSeq]; omega) (by simp only [Reg.cmdCqHead, Reg.cmdNextSeq]; omega))
  have fet := hc.fetch
  simp only [State.mayFetch, State.mayTake, State.cmdUp, Bool.and_eq_true, decide_eq_true_eq] at fet
  have hup : s.up = true := fet.1.1.1.1.1.1.1.1.1.1
  have hst : s.sesState n = 2 := fet.1.1.1.1.1.1.1.1.2
  have hps : (s.ses h.ses).paused = false := by have := fet.1.2; simpa using this
  have rdy : (u.ses n).ready = some q :=
    ready_last (l := (s.ses n).replies) (by rw [ses_u]) (fun r hr => (hc.replies r hr).1) rfl
  have pup : u.up = s.up := by rw [← ha.up, w1]; rfl
  have pma : u.masters = s.masters := by rw [← ha.masters, w1]; rfl
  have ustep : u.inStep = false := by
    have := ha.alone
    unfold State.inStep State.paired State.pairPhase State.field at this ⊢
    rw [ureg Reg.pairCfg (by decide), ureg Reg.pairState (by decide)]; exact this
  have ulead : u.leads = true := by
    have := ha.leads
    unfold State.leads State.paired State.active? State.field at this ⊢
    rw [ureg Reg.pairCfg (by decide), ureg Reg.pairState (by decide)]; exact this
  have pst : u.reg (Reg.cmdState n) = s.reg (Reg.cmdState n) := by
    rw [upath (Reg.cmdState n) (by simp only [pathReg, Reg.cmdState, decide_eq_true_eq]; omega) (by simp only [Reg.cmdState, Reg.cmdRetiredSeq]; omega) (by simp only [Reg.cmdState, Reg.ptrPeak]; omega), st2]
  have pct : u.reg (Reg.cmdCqTail n) = s.reg (Reg.cmdCqTail n) := by
    rw [upath (Reg.cmdCqTail n) (by simp only [pathReg, Reg.cmdCqTail, decide_eq_true_eq]; omega) (by simp only [Reg.cmdCqTail, Reg.cmdRetiredSeq]; omega) (by simp only [Reg.cmdCqTail, Reg.ptrPeak]; omega), ct2]
  have pch : u.reg (Reg.cmdCqHead n) = s.reg (Reg.cmdCqHead n) := by
    rw [upath (Reg.cmdCqHead n) (by simp only [pathReg, Reg.cmdCqHead, decide_eq_true_eq]; omega) (by simp only [Reg.cmdCqHead, Reg.cmdRetiredSeq]; omega) (by simp only [Reg.cmdCqHead, Reg.ptrPeak]; omega), ch2]
  have may : u.mayReply n = true := by
    unfold State.mayReply
    have h1 : u.cmdUp n = true := by
      unfold State.cmdUp; rw [pup]
      simp only [Bool.and_eq_true, decide_eq_true_eq]; exact ⟨hup, hn⟩
    have h2 : u.sesState n = 2 := by unfold State.sesState State.field at hst ⊢; rw [pst]; exact hst
    have h3 : u.cqFull n = false := by
      have := hc.ring
      unfold State.cqFull State.cqUsed at this ⊢
      rw [ses_u, pct, pch]; exact this
    have h4 : u.masters = true := by rw [pma]; exact hc.link
    dsimp only
    rw [h1, h2, h3, h4, ulead, ses_u]
    simp only [hps]
    simp only [Bool.not_false, Bool.true_and, Bool.or_true, Bool.and_true]
    rw [hc.sound]; rfl
  have hcq : (u.ses n).opened.cqSram = false := by rw [ses_u]; exact hc.host
  obtain ⟨v1, v2, v3, v4, v5⟩ := writeReply_host rdy may ustep hcq
  have fin : hostCommand op h p s = activationReset (writeReply n u) := by
    rw [hr.command, hv]
    have hseq : q.seq = h.seq := rfl
    rw [rdy]
    dsimp only
    rw [if_pos hseq]
  refine ⟨writeReply n u, fin, ?_, ?_, by rw [v1]; show u.inn.resetDue = _; rw [w1]⟩
  · generalize hw : writeReply n u = t at *
    have rg : ∀ a, a ≠ Reg.cmdCqTail n → a ≠ Reg.cmdStat n → t.reg a = u.reg a := v2
    refine ⟨?_, ?_, ?_, ?_, ?_, ?_, ?_, ?_⟩
    · rw [v1, w1]
    · intro a h1
      rw [rg a (by intro e; subst e; simp only [pathReg, Reg.cmdCqTail, decide_eq_false_iff_not] at h1; omega)
        (by intro e; subst e; simp only [pathReg, Reg.cmdStat, decide_eq_false_iff_not] at h1; omega), ureg a h1]
    · intro a h1 h2
      simp only [ownRegs, List.mem_cons, List.not_mem_nil, or_false, not_or] at h2
      rw [rg a h2.2.2.2.2.2.1 h2.2.2.2.2.2.2.1, upath a h1 h2.2.2.2.2.1 h2.2.2.2.2.2.2.2.1]
      exact r2 a (by simp only [early, not_or]; exact ⟨h2.1, h2.2.1, h2.2.2.1, h2.2.2.2.1, h2.2.2.2.2.2.2.2.1, h2.2.2.2.2.2.2.2.2.1, h2.2.2.2.2.2.2.2.2.2.1, h2.2.2.2.2.2.2.2.2.2.2⟩)
    · intro m
      have : t.axis m = u.axis m := by
        unfold State.axis; rw [v1]
      rw [this, w4 m]
    · rw [rg _ (by simp only [Reg.cmdAcceptedSeq, Reg.cmdCqTail]; omega) (by simp only [Reg.cmdAcceptedSeq, Reg.cmdStat]; omega),
        upath (Reg.cmdAcceptedSeq n) (by simp only [pathReg, Reg.cmdAcceptedSeq, decide_eq_true_eq]; omega) (by simp only [Reg.cmdAcceptedSeq, Reg.cmdRetiredSeq]; omega) (by simp only [Reg.cmdAcceptedSeq, Reg.ptrPeak]; omega)]
      exact hr.accepted
    · rw [rg _ (by simp only [Reg.cmdNextSeq, Reg.cmdCqTail]; omega) (by simp only [Reg.cmdNextSeq, Reg.cmdStat]; omega),
        upath (Reg.cmdNextSeq n) (by simp only [pathReg, Reg.cmdNextSeq, decide_eq_true_eq]; omega) (by simp only [Reg.cmdNextSeq, Reg.cmdRetiredSeq]; omega) (by simp only [Reg.cmdNextSeq, Reg.ptrPeak]; omega)]
      exact hr.next
    · rw [rg _ (by simp only [Reg.cmdRetiredSeq, Reg.cmdCqTail]; omega) (by simp only [Reg.cmdRetiredSeq, Reg.cmdStat]; omega), w3]
    · rw [v4, ses_u]
  · refine ⟨by rw [v3, pct], ?_⟩
    rw [v5, pct]
    have : (u.ses n).opened = (s.ses n).opened := by rw [ses_u]
    rw [this]
    exact List.mem_cons_self ..

theorem Served.quiet {h : Hdr} {s e w t : State} (hq : Quiet w t) (hs : Served h s e w) : Served h s e t := by
  refine ⟨?_, ?_, ?_, ?_, ?_, ?_, ?_, ?_⟩
  · rw [hq.1, hs.rest]
  · intro a h1; rw [hq.reg, hs.reg a h1]
  · intro a h1 h2; rw [hq.reg, hs.path a h1 h2]
  · intro m
    have : t.axis m = w.axis m := by unfold State.axis; rw [hq.1]
    rw [this, hs.axis m]
  · rw [hq.reg, hs.accepted]
  · rw [hq.reg, hs.next]
  · rw [hq.reg, hs.retired]
  · have : t.ses h.ses = w.ses h.ses := by rw [hq.1]; rfl
    rw [this, hs.flights]

theorem Answered.quiet {op : Nat} {h : Hdr} {r : Reply} {s w t : State} (hq : Quiet w t) (hs : Answered op h r s w) :
    Answered op h r s t := ⟨by rw [hq.reg, hs.1], hq.out_mem hs.2⟩

/-- A command whose reply is settled has it written. -/
theorem exec_replied {i : Instr} {o : OpSpec} {op : Nat} {h : Hdr} {p : Bytes} {s : State} {f : Flight}
    (hi : ∀ s, exec i s = done (hostCommand op h p s)) (hc : Clear h p s) (hr : Retired o op h p s f) {r : Reply} {E : State}
    (hk : Kept op h p s E) (ha : Around s E) (hd : E.inn.resetDue = none)
    (hu : retire h.ses (finished op h p s) =
      wrapUp h.ses h.seq h.target.toNat { seq := h.seq, op := op, reply := r, due := true } E) :
    Serves i op h r s E := by
  obtain ⟨w, h1, h2, h3, h4⟩ := command_replied hc hr hk ha hu
  have : activationReset w = w := by unfold activationReset; rw [h4, hd]
  rw [this] at h1
  exact ⟨settle w, by rw [hi, h1]; rfl, h2.quiet (settle_quiet w), h3.quiet (settle_quiet w)⟩

/-- A command that stages nothing and settles its reply at retirement. -/
theorem exec_served {i : Instr} {o : OpSpec} {op : Nat} {h : Hdr} {p : Bytes} {s : State}
    (hi : ∀ s, exec i s = done (hostCommand op h p s)) (hc : Clear h p s) (ho : opSpec op = some o)
    (hf : (verdict o op h p s).status = 0 → (finished op h p s).queueFits o { op := op, hdr := h, payload := p } = true)
    (hy : (o.yes && decide ((ranAt o op h p s).reply.status = 0)) = false) (hd : (ranAt o op h p s).due = true)
    (hk : Kept op h p s (ranAt o op h p s).st) (ha : Around s (ranAt o op h p s).st)
    (hn : (ranAt o op h p s).st.inn.resetDue = none) :
    Serves i op h (ranAt o op h p s).reply s (ranAt o op h p s).st := by
  obtain ⟨f, hr⟩ := clear_retires hc ho hf
  refine exec_replied hi hc hr hk ha hn ?_
  have := hr.retires
  dsimp only at this
  rw [hy, hd] at this
  exact this

/-- A command that stages nothing and whose reply waits. -/
theorem exec_waits {i : Instr} {o : OpSpec} {op : Nat} {h : Hdr} {p : Bytes} {s : State}
    (hi : ∀ s, exec i s = done (hostCommand op h p s)) (hc : Clear h p s) (ho : opSpec op = some o)
    (hf : (verdict o op h p s).status = 0 → (finished op h p s).queueFits o { op := op, hdr := h, payload := p } = true)
    (hy : (o.yes && decide ((ranAt o op h p s).reply.status = 0)) = false) (hd : (ranAt o op h p s).due = false)
    (hk : Kept op h p s (ranAt o op h p s).st) :
    Waits i op h (ranAt o op h p s).reply s (ranAt o op h p s).st := by
  obtain ⟨f, hr⟩ := clear_retires hc ho hf
  refine exec_awaited hi hc hr hk ?_
  have := hr.retires
  dsimp only at this
  rw [hy, hd] at this
  exact this

/-- A command that stages its effect (R118, R119). -/
theorem exec_staged {i : Instr} {o : OpSpec} {op : Nat} {h : Hdr} {p : Bytes} {s : State}
    (hi : ∀ s, exec i s = done (hostCommand op h p s)) (hc : Clear h p s) (ho : opSpec op = some o)
    (hf : (verdict o op h p s).status = 0 → (finished op h p s).queueFits o { op := op, hdr := h, payload := p } = true)
    (hy : o.yes = true) (hz : (ranAt o op h p s).reply.status = 0)
    (hk : Kept op h p s (ranAt o op h p s).st) :
    Stages i op h (ranAt o op h p s).reply (staging o op h p s) s (ranAt o op h p s).st := by
  obtain ⟨f, hr⟩ := clear_retires hc ho hf
  refine exec_awaited hi hc hr (E := { (ranAt o op h p s).st with staged := (ranAt o op h p s).st.staged ++ [staging o op h p s] }) ⟨hk.path, hk.ses, hk.order⟩ ?_
  have := hr.retires
  dsimp only at this
  rw [hy, hz] at this
  simp only [decide_true, Bool.and_true, if_true, Bool.not_true, Bool.false_and] at this
  rw [this]
  congr 1
  unfold stageEffect
  have h1 : (!(ranAt o op h p s).st.inStep || f.eff.isNone) = true := by rw [hr.eff]; simp
  dsimp only
  rw [if_pos h1, hr.pkt, hr.eff]
  rfl

/-! ### Effects are told up to the path -/

theorem Served.of_path {h : Hdr} {s e e' t : State} (hp : Path e e') (hs : Served h s e' t) : Served h s e t := by
  have ax : ∀ m, e'.axis m = e.axis m := fun m => by unfold State.axis; rw [hp.rest]
  have ts : e'.targetSlots h.target.toNat = e.targetSlots h.target.toNat := by
    unfold State.targetSlots State.group; rw [hp.rest]
  refine ⟨?_, ?_, hs.path, ?_, hs.accepted, hs.next, hs.retired, hs.flights⟩
  · rw [hs.rest, hp.rest]
  · intro a h1; rw [hs.reg a h1, hp.reg a h1]
  · intro m; rw [hs.axis m, ts, ax]

theorem Serves.of_path {i : Instr} {op : Nat} {h : Hdr} {r : Reply} {s e e' : State} (hp : Path e e')
    (hs : Serves i op h r s e') : Serves i op h r s e := by
  obtain ⟨t, h1, h2, h3⟩ := hs; exact ⟨t, h1, h2.of_path hp, h3⟩

theorem Waits.of_path {i : Instr} {op : Nat} {h : Hdr} {r : Reply} {s e e' : State} (hp : Path e e')
    (hs : Waits i op h r s e') : Waits i op h r s e := by
  obtain ⟨t, h1, h2, h3⟩ := hs; exact ⟨t, h1, h2.of_path hp, h3⟩

theorem Stages.of_path {i : Instr} {op : Nat} {h : Hdr} {r : Reply} {x : Staged} {s e e' : State} (hp : Path e e')
    (hs : Stages i op h r x s e') : Stages i op h r x s e := by
  refine Waits.of_path (e' := { e' with staged := e'.staged ++ [x] }) ⟨?_, hp.reg⟩ hs
  show _ = _
  have : e'.staged = e.staged := by rw [hp.rest]
  rw [this]
  conv => lhs; rw [hp.rest]

end Sys2Proof
end

