-- ==== Sys2Proof/Laws/Packets.lean ====
section
/-!
SUPPORT. The three shapes of a host command: one that only answers, one that only stages its effect, and one
that acts as it retires.
-/
namespace Sys2Proof

open Machine

/-- The way of a command before which nothing stands touches the command path alone. -/
theorem clear_paths {op : Nat} {h : Hdr} {p : Bytes} {s : State} (hc : Clear h p s) :
    Path s (judged op h p s) ∧ Path s (finished op h p s) := by
  obtain ⟨s1, s2, f, e1, e2, p1, p2, _⟩ := hostCommand_clear (op := op) hc
  subst e1; subst e2
  exact ⟨p1, p2⟩

/-- A command that passes gets the reply of its result. -/
theorem Passes.verdict {o : OpSpec} {op : Nat} {h : Hdr} {p : Bytes} {s : State} (hp : Passes o op h p s) :
    verdict o op h p s = { result := o.result (judged op h p s) { op := op, hdr := h, payload := p } } := by
  unfold Sys2Proof.verdict
  have : (o.yes && s.tooFar h) = false := by
    cases hy : o.yes with
    | false => rfl
    | true => rw [hp.near hy]; rfl
  rw [this, hp.checks]
  rfl

/-- What a command that passes does as it retires. -/
theorem Passes.ran {o : OpSpec} {op : Nat} {h : Hdr} {p : Bytes} {s : State} (hp : Passes o op h p s) :
    ranAt o op h p s = o.act { op := op, hdr := h, payload := p }
      ((touchUnit op (finished op h p s)).effectAt h none (slotsAt o op h p s))
      { result := o.result (judged op h p s) { op := op, hdr := h, payload := p } } (touchUnit op (finished op h p s)) := by
  unfold ranAt
  rw [hp.verdict]
  rfl

/-- `t` has the command path, the power state, the pair's role and the restart of `s`. -/
structure Off (s t : State) : Prop where
  reg : ∀ a, (pathReg a = true ∨ a = Reg.pairCfg ∨ a = Reg.pairState) → t.reg a = s.reg a
  sessions : t.sessions = s.sessions
  order : t.pair.order = s.pair.order
  power : t.power = s.power
  restart : t.inn.resetDue = s.inn.resetDue

theorem Off.refl (s : State) : Off s s := ⟨fun _ _ => rfl, rfl, rfl, rfl, rfl⟩

theorem Off.trans {s t u : State} (h : Off s t) (k : Off t u) : Off s u :=
  ⟨fun a ha => (k.reg a ha).trans (h.reg a ha), k.sessions.trans h.sessions, k.order.trans h.order,
    k.power.trans h.power, k.restart.trans h.restart⟩

theorem off_foldl {α : Type} (f : State → α → State) (hf : ∀ s x, Off s (f s x)) (l : List α) : ∀ s, Off s (l.foldl f s) := by
  induction l with
  | nil => exact Off.refl
  | cons x r ih => intro s; exact (hf s x).trans (ih _)

theorem off_setReg (s : State) (a : Nat) (v : Word) (h : pathReg a = false) (h1 : a ≠ Reg.pairCfg) (h2 : a ≠ Reg.pairState) :
    Off s (s.setReg a v) := by
  refine ⟨fun j hj => State.reg_setReg_ne s v ?_, rfl, rfl, rfl, rfl⟩
  intro e; subst e
  rcases hj with hj | hj | hj
  · rw [h] at hj; exact absurd hj (by decide)
  · exact h1 hj
  · exact h2 hj

theorem off_touchUnit (op : Nat) (s : State) : Off s (touchUnit op s) := by
  unfold touchUnit
  split
  · exact ⟨fun _ _ => rfl, rfl, rfl, rfl, rfl⟩
  · split
    · exact ⟨fun _ _ => rfl, rfl, rfl, rfl, rfl⟩
    · exact Off.refl s

theorem off_kept {op : Nat} {h : Hdr} {p : Bytes} {s t : State} (hc : Clear h p s) (ht : Off (finished op h p s) t) :
    Kept op h p s t :=
  ⟨fun a ha => ht.reg a (Or.inl ha), by unfold State.ses; rw [ht.sessions],
    by rw [ht.order, (clear_paths hc).2.rest]⟩

theorem off_around {op : Nat} {h : Hdr} {p : Bytes} {s t : State} (hc : Clear h p s) (ht : Off (finished op h p s) t) :
    Around s t := by
  have p2 := (clear_paths (op := op) hc).2
  have fet := hc.fetch
  simp only [State.mayFetch, State.mayTake, State.cmdUp, Bool.and_eq_true, decide_eq_true_eq] at fet
  refine ⟨by unfold State.up; rw [ht.power, p2.power], by unfold State.masters State.qspi; rw [ht.power, p2.power], ?_, ?_⟩
  · have : (finished op h p s).leads = true := by rw [p2.leads]; exact fet.1.1.1.1.2
    unfold State.leads State.paired State.active? State.field at this ⊢
    rw [ht.reg _ (by simp), ht.reg _ (by simp)]; exact this
  · have : (finished op h p s).inStep = false := by rw [p2.inStep]; exact hc.alone
    unfold State.inStep State.paired State.pairPhase State.field at this ⊢
    rw [ht.reg _ (by simp), ht.reg _ (by simp)]; exact this

theorem off_restart {op : Nat} {h : Hdr} {p : Bytes} {s t : State} (hc : Clear h p s) (ht : Off (finished op h p s) t) :
    t.inn.resetDue = none := by
  rw [ht.restart, (clear_paths (op := op) hc).2.rest]; exact hc.restart

/-- A command that acts as it retires and settles its reply then. -/
theorem exec_acts {i : Instr} {o : OpSpec} {op : Nat} {h : Hdr} {p : Bytes} {s : State}
    (hi : ∀ s, exec i s = done (hostCommand op h p s)) (hc : Clear h p s) (ho : opSpec op = some o) (hp : Passes o op h p s)
    (hy : o.yes = false) (hd : (ranAt o op h p s).due = true) (hs : Off (finished op h p s) (ranAt o op h p s).st) :
    Serves i op h (ranAt o op h p s).reply s (ranAt o op h p s).st :=
  exec_served hi hc ho (fun _ => hp.fits) (by rw [hy]; rfl) hd (off_kept hc hs) (off_around hc hs) (off_restart hc hs)

/-- A command that only answers. -/
theorem exec_query {i : Instr} {o : OpSpec} {op : Nat} {h : Hdr} {p : Bytes} {s : State}
    (hi : ∀ s, exec i s = done (hostCommand op h p s)) (hc : Clear h p s) (ho : opSpec op = some o) (hp : Passes o op h p s)
    (hy : o.yes = false) (ha : o.act = fun _ _ r s => { reply := r, st := s }) (ht : ∀ s, touchUnit op s = s) :
    Serves i op h { result := o.result (judged op h p s) { op := op, hdr := h, payload := p } } s s := by
  have hr := hp.ran
  rw [ha, ht] at hr
  have := exec_acts hi hc ho hp hy (by rw [hr]) (by rw [hr]; exact Off.refl _)
  rw [hr] at this
  exact this.of_path (clear_paths hc).2

/-- A command that stages its effect. -/
theorem exec_stages {i : Instr} {o : OpSpec} {op : Nat} {h : Hdr} {p : Bytes} {s : State}
    (hi : ∀ s, exec i s = done (hostCommand op h p s)) (hc : Clear h p s) (ho : opSpec op = some o) (hp : Passes o op h p s)
    (hy : o.yes = true) (hz : (ranAt o op h p s).reply.status = 0) (hs : Off (finished op h p s) (ranAt o op h p s).st) :
    Stages i op h (ranAt o op h p s).reply (staging o op h p s) s (ranAt o op h p s).st :=
  exec_staged hi hc ho (fun _ => hp.fits) hy hz (off_kept hc hs)

/-- A command that does nothing before its boundary. -/
theorem exec_defers {i : Instr} {o : OpSpec} {op : Nat} {h : Hdr} {p : Bytes} {s : State}
    (hi : ∀ s, exec i s = done (hostCommand op h p s)) (hc : Clear h p s) (ho : opSpec op = some o) (hp : Passes o op h p s)
    (hy : o.yes = true) (ha : o.act = fun _ _ r s => { reply := r, st := s }) (hz : o.result = fun _ _ => [])
    (ht : ∀ s, touchUnit op s = s) : Stages i op h {} (entry op h p (slotsAt o op h p s) s) s s := by
  have hr := hp.ran
  rw [ha, ht, hz] at hr
  have := exec_stages hi hc ho hp hy (by rw [hr]) (by rw [hr]; exact Off.refl _)
  unfold staging at this
  rw [hr] at this
  have he : (finished op h p s).effectAt h none (slotsAt o op h p s) = s.effectAt h none (slotsAt o op h p s) := by
    unfold State.effectAt State.nearPeriod State.heldTo
    rw [(clear_paths hc).2.rest]
  dsimp only at this
  rw [he] at this
  exact this.of_path (clear_paths hc).2

/-- A failed check leaves the device as it was (R134): only the path and the reply tell of the command. -/
theorem exec_refused {i : Instr} {o : OpSpec} {op : Nat} {h : Hdr} {p : Bytes} {s : State}
    (hi : ∀ s, exec i s = done (hostCommand op h p s)) (hc : Clear h p s) (ho : opSpec op = some o)
    (hv : (verdict o op h p s).status ≠ 0) : Serves i op h (verdict o op h p s) s (touchUnit op s) := by
  have hr : ranAt o op h p s = { reply := verdict o op h p s, st := touchUnit op (finished op h p s) } := by
    unfold ranAt
    dsimp only
    rw [if_neg hv]
  have hs : Off (finished op h p s) (ranAt o op h p s).st := by rw [hr]; exact off_touchUnit _ _
  have := exec_served hi hc ho (fun e => absurd e hv) (by rw [hr]; simp [hv]) (by rw [hr]) (off_kept hc hs) (off_around hc hs)
    (off_restart hc hs)
  rw [hr] at this
  refine this.of_path ?_
  have p2 := (clear_paths (op := op) hc).2
  unfold touchUnit
  split
  · exact ⟨by rw [p2.rest]; rfl, p2.reg⟩
  · split
    · exact ⟨by rw [p2.rest]; rfl, p2.reg⟩
    · exact p2

/-- Every packet row is the command of its opcode. -/
theorem exec_packet {i : Instr} {op : Nat} {h : Hdr} {p : Bytes} (hi : commandOf i = some (op, h, p)) (s : State) :
    exec i s = done (hostCommand op h p s) := by
  unfold commandOf at hi
  split at hi <;> first | (cases hi; rfl) | (cases hi)

/-- A staged effect that is ripe meets its boundary with its own effect. -/
theorem stagedAt_ripe {k : Nat} {x : Staged} {s : State} {o : OpSpec} (hr : Ripe k x s) (ho : opSpec x.pkt.op = some o) :
    stagedAt k x s = o.apply k (x.lateAt k) x s := by
  unfold stagedAt
  have h1 : (x.cut || (x.waiting && isMove x.pkt.op) || decide (k < x.eff) || s.recordless x || s.heldBack k x) = false := by
    have := hr.due
    rw [hr.whole, hr.waits, hr.first, hr.record]
    simp; omega
  have h2 : (if holdRefuses x.pkt.op then x.slots.find? fun n => decide ((s.axis n).holdKind ≠ 0) else none) = none := by
    split
    · rw [List.find?_eq_none]; intro n hn; simp [hr.free n hn]
    · rfl
  have h3 : unacknowledged x s = s := by unfold unacknowledged; rw [hr.alone]; rfl
  rw [h1, h2, ho, h3]
  rfl

end Sys2Proof
end

