-- ==== Sys2Proof/WellFormed.lean ====
section
/-!
DEFINITION. Well-formed commands: each number that names a unit, a place or a length lies in the range that the
spec's tables give it on the largest part. A row of the table takes nothing else from its operands; whether the unit is present
on a part, and what a command out of range does, is the meaning's.
-/
namespace Sys2Proof

/-- The numbers in a command that the spec bounds, each with its bound: sessions (R100), packets (R128), slots, rings and their
stations (R2, R364), engines and their stops (R153), channels of the units, the register space (R34) and the memories. -/
def Instr.limits : Instr → List (Nat × Nat)
  | .nop h p => [(h.ses, 4), (p.length, 497)]
  | .echo h p => [(h.ses, 4), (p.length, 497)]
  | .sessionInfo h p => [(h.ses, 4), (p.length, 497)]
  | .devInfo h p => [(h.ses, 4), (p.length, 497)]
  | .runStart h p => [(h.ses, 4), (p.length, 497)]
  | .runStop h p => [(h.ses, 4), (p.length, 497)]
  | .setPeriod h p => [(h.ses, 4), (p.length, 497)]
  | .devStatus h p => [(h.ses, 4), (p.length, 497)]
  | .getParams h p => [(h.ses, 4), (p.length, 497)]
  | .setParams h p => [(h.ses, 4), (p.length, 497)]
  | .defaultParams h p => [(h.ses, 4), (p.length, 497)]
  | .enable h p => [(h.ses, 4), (p.length, 497)]
  | .disable h p => [(h.ses, 4), (p.length, 497)]
  | .clearFault h p => [(h.ses, 4), (p.length, 497)]
  | .axisStatus h p => [(h.ses, 4), (p.length, 497)]
  | .moveAbs h p => [(h.ses, 4), (p.length, 497)]
  | .moveRel h p => [(h.ses, 4), (p.length, 497)]
  | .moveVel h p => [(h.ses, 4), (p.length, 497)]
  | .stream h p => [(h.ses, 4), (p.length, 497)]
  | .halt h p => [(h.ses, 4), (p.length, 497)]
  | .quickStop h p => [(h.ses, 4), (p.length, 497)]
  | .groupDefine h p => [(h.ses, 4), (p.length, 497)]
  | .pathSegment h p => [(h.ses, 4), (p.length, 497)]
  | .flushQueue h p => [(h.ses, 4), (p.length, 497)]
  | .dovetailLink h p => [(h.ses, 4), (p.length, 497)]
  | .dovetailRatio h p => [(h.ses, 4), (p.length, 497)]
  | .dovetailUnlink h p => [(h.ses, 4), (p.length, 497)]
  | .camLoad h p => [(h.ses, 4), (p.length, 497)]
  | .camEngage h p => [(h.ses, 4), (p.length, 497)]
  | .camDisengage h p => [(h.ses, 4), (p.length, 497)]
  | .vmasterSet h p => [(h.ses, 4), (p.length, 497)]
  | .shaftConfig h p => [(h.ses, 4), (p.length, 497)]
  | .homeStart h p => [(h.ses, 4), (p.length, 497)]
  | .homeSet h p => [(h.ses, 4), (p.length, 497)]
  | .homeAbort h p => [(h.ses, 4), (p.length, 497)]
  | .latchArm h p => [(h.ses, 4), (p.length, 497)]
  | .latchDisarm h p => [(h.ses, 4), (p.length, 497)]
  | .latchRead h p => [(h.ses, 4), (p.length, 497)]
  | .registerCfg h p => [(h.ses, 4), (p.length, 497)]
  | .ttWrite h p => [(h.ses, 4), (p.length, 497)]
  | .ttClear h p => [(h.ses, 4), (p.length, 497)]
  | .buildTimetable h p => [(h.ses, 4), (p.length, 497)]
  | .ttRead h p => [(h.ses, 4), (p.length, 497)]
  | .kernelLoad h p => [(h.ses, 4), (p.length, 497)]
  | .kernelCheck h p => [(h.ses, 4), (p.length, 497)]
  | .kernelList h p => [(h.ses, 4), (p.length, 497)]
  | .acqConfig h p => [(h.ses, 4), (p.length, 497)]
  | .acqStart h p => [(h.ses, 4), (p.length, 497)]
  | .acqStop h p => [(h.ses, 4), (p.length, 497)]
  | .acqMark h p => [(h.ses, 4), (p.length, 497)]
  | .fioSet h p => [(h.ses, 4), (p.length, 497)]
  | .fioGet h p => [(h.ses, 4), (p.length, 497)]
  | .fioConfig h p => [(h.ses, 4), (p.length, 497)]
  | .timeGet h p => [(h.ses, 4), (p.length, 497)]
  | .timeAlarm h p => [(h.ses, 4), (p.length, 497)]
  | .timeRestep h p => [(h.ses, 4), (p.length, 497)]
  | .timeConfig h p => [(h.ses, 4), (p.length, 497)]
  | .pairStatus h p => [(h.ses, 4), (p.length, 497)]
  | .pairHandover h p => [(h.ses, 4), (p.length, 497)]
  | .pairRelease h p => [(h.ses, 4), (p.length, 497)]
  | .pairResync h p => [(h.ses, 4), (p.length, 497)]
  | .safeOpen h p => [(h.ses, 4), (p.length, 497)]
  | .safeWrite h p => [(h.ses, 4), (p.length, 497)]
  | .safeRead h p => [(h.ses, 4), (p.length, 497)]
  | .safeCommit h p => [(h.ses, 4), (p.length, 497)]
  | .safeClose h p => [(h.ses, 4), (p.length, 497)]
  | .updateBegin h p => [(h.ses, 4), (p.length, 497)]
  | .updateData h p => [(h.ses, 4), (p.length, 497)]
  | .updateCommit h p => [(h.ses, 4), (p.length, 497)]
  | .updateActivate h p => [(h.ses, 4), (p.length, 497)]
  | .ledgerRead h p => [(h.ses, 4), (p.length, 497)]
  | .healthRead h p => [(h.ses, 4), (p.length, 497)]
  | .npRead h p => [(h.ses, 4), (p.length, 497)]
  | .npBind h p => [(h.ses, 4), (p.length, 497)]
  | .wearRead h p => [(h.ses, 4), (p.length, 497)]
  | .wearReplace h p => [(h.ses, 4), (p.length, 497)]
  | .qspiWrite addr words _ => [(addr, 0x1c00000), (words.length, 257)]
  | .qspiRead addr count => [(addr, 0x1c00000), (count, 0x700001)]
  | .qspiPing => []
  | .registerWrite addr data => [(addr, 0x3e0000), (data.length, 9)]
  | .readClearRead addr size => [(addr, 0x3e0000), (size, 9)]
  | .latchedLoRead addr => [(addr, 0x3e0000)]
  | .latchedHiRead addr => [(addr, 0x3e0000)]
  | .latchedLoWrite addr _ => [(addr, 0x3e0000)]
  | .latchedHiWrite addr _ => [(addr, 0x3e0000)]
  | .guardedValueWrite addr _ => [(addr, 0x3e0000)]
  | .guardedComplementFault addr _ => [(addr, 0x3e0000)]
  | .nowNsRead => []
  | .swiSet _ => []
  | .irqEoi _ => []
  | .pwrReqReady => []
  | .pwrReqStandby => []
  | .softwareReset => []
  | .cmdOpen ses _ _ => [(ses, 4)]
  | .cmdClose ses => [(ses, 4)]
  | .cmdResume ses => [(ses, 4)]
  | .sessionClosed ses => [(ses, 4)]
  | .sqTail ses _ => [(ses, 4)]
  | .cqHead ses _ => [(ses, 4)]
  | .packetFetch ses slot => [(ses, 4), (slot.length, 513)]
  | .hostBusError ses _ => [(ses, 4)]
  | .porterTick => []
  | .taskDispatch core => [(core, 4)]
  | .taskFinish core => [(core, 4)]
  | .coreStall core => [(core, 4)]
  | .dependencyTimeout ses _ => [(ses, 4)]
  | .retirement ses => [(ses, 4)]
  | .replyWrite ses => [(ses, 4)]
  | .cqCoalTimeout ses => [(ses, 4)]
  | .pcieLinkDown => []
  | .pcieLinkUp => []
  | .powerOnReset _ => []
  | .mainSupplyLoss _ => []
  | .mainSupplyRestored _ => []
  | .pinReset _ => []
  | .runSupplyReset _ => []
  | .vbakLost => []
  | .referenceStopped => []
  | .referenceOutOfWindow => []
  | .referenceRecovered => []
  | .pllLossOfLock pll => [(pll, 3)]
  | .pcieClockLoss => []
  | .kaXtalFail => []
  | .firstStageDone _ _ => []
  | .hostLoadTimeout => []
  | .secondStageDone _ => []
  | .standbyPowerDown _ => []
  | .fieldWakeEdge input _ => [(input, 32)]
  | .canWakePattern ctl => [(ctl, 4)]
  | .timeAlarmFire => []
  | .periodBoundary => []
  | .homingChatterAbort slot => [(slot, 128)]
  | .homingNotFound slot => [(slot, 128)]
  | .hardStopFound slot => [(slot, 128)]
  | .shaftChannelLost chan => [(chan, 4)]
  | .sampleTime => []
  | .serialEncoderDone ch _ _ _ _ _ _ => [(ch, 16)]
  | .indexEdge ch _ => [(ch, 16)]
  | .returningFrame port _ _ => [(port, 8)]
  | .returnDeadline port => [(port, 8)]
  | .stopVisit le => [(le, 16)]
  | .stopComplete le => [(le, 16)]
  | .stopAbort le => [(le, 16)]
  | .feedbackFault slot => [(slot, 128)]
  | .urgentTrigger le stop => [(le, 16), (stop, 512)]
  | .urgentStopComplete le => [(le, 16)]
  | .islandClockRestart le => [(le, 16)]
  | .sealing => []
  | .dropsFault slot => [(slot, 128)]
  | .acqRateChange => []
  | .hopTrained port hop _ _ _ => [(port, 8), (hop, 33)]
  | .retrain port => [(port, 8)]
  | .reclose port => [(port, 8)]
  | .discoveryFrame port descriptors returnedAt _ => [(port, 8), (descriptors.length, 33), (returnedAt, 16)]
  | .delayFrame port _ _ _ => [(port, 8)]
  | .delaySet port station _ _ => [(port, 8), (station, 32)]
  | .ringUp port => [(port, 8)]
  | .trainFail port => [(port, 8)]
  | .stationLinkLoss port station _ => [(port, 8), (station, 32)]
  | .stationLost port station => [(port, 8), (station, 32)]
  | .sideFail port => [(port, 8)]
  | .headFrameReceive port station _ _ => [(port, 8), (station, 32)]
  | .headApply port station => [(port, 8), (station, 32)]
  | .zeroI port station chan => [(port, 8), (station, 32), (chan, 4)]
  | .headFrameLoss port station => [(port, 8), (station, 32)]
  | .updActivate port station _ => [(port, 8), (station, 32)]
  | .chainMessageReceive _ _ _ => []
  | .pairLinkTrained _ => []
  | .pairingRecord _ => []
  | .pairActiveAlone _ => []
  | .pairLinkRetrain => []
  | .aloneWaitExpiry _ => []
  | .mirrorRecord ses _ _ slot => [(ses, 4), (slot.length, 513)]
  | .mirrorAck ses _ => [(ses, 4)]
  | .mirrorAckTimeout ses _ => [(ses, 4)]
  | .retireRecord ses _ _ => [(ses, 4)]
  | .retireRecordAck ses _ => [(ses, 4)]
  | .replyIntent ses _ => [(ses, 4)]
  | .replyIntentAck ses _ => [(ses, 4)]
  | .sessionRecord ses _ _ _ _ _ _ => [(ses, 4)]
  | .forwardedDoorbell ses _ _ => [(ses, 4)]
  | .proxy ses slot => [(ses, 4), (match slot with | .packet b => b.length | .reply _ b => b.length, 513)]
  | .switchSourceSample _ _ holds => [(holds.length, 129)]
  | .latchStampTransfer input _ _ => [(input, 32)]
  | .forwardedSegment port station chan _ => [(port, 8), (station, 32), (chan, 4)]
  | .periodRecord _ _ slotDigests _ => [(slotDigests.length, 129)]
  | .periodRecordMissing => []
  | .adoptionRequest slot => [(slot, 128)]
  | .adoptionImage _ _ => []
  | .pairLinkLost => []
  | .failover => []
  | .resyncDrained => []
  | .resyncCopyDone => []
  | .paired => []
  | .resyncFail => []
  | .safetyCycle _ _ _ _ _ _ => []
  | .islandBootDone _ _ => []
  | .islandWatchdog => []
  | .testPulse out _ _ => [(out, 4)]
  | .inputDiscrepancy input => [(input, 16)]
  | .safeFeedbackLoss axis _ => [(axis, 32)]
  | .stopTExpiry axis => [(axis, 32)]
  | .standstillConfirmed axis => [(axis, 32)]
  | .brakeDelayExpiry out => [(out, 4)]
  | .safeTelegramProduce conn => [(conn, 8)]
  | .safeTelegramReceive conn telegram => [(conn, 8), (telegram.length, 33)]
  | .connLost conn => [(conn, 8)]
  | .commissioningTimeout => []
  | .authLockoutExpiry => []
  | .fieldDieStart => []
  | .fieldLinkFrame _ => []
  | .fieldLinkLost => []
  | .fieldInputSample _ => []
  | .rearm => []
  | .outCmd _ => []
  | .fieldOutputFault out => [(out, 16)]
  | .fieldOutputLatchClear out => [(out, 16)]
  | .sag _ => []
  | .recovered _ => []
  | .referenceTick => []
  | .ptpMessage _ => []
  | .slewEnd => []
  | .lockEvt => []
  | .holdover => []
  | .ptpSyncSend => []
  | .ptpEn _ => []
  | .restep => []
  | .ethFrameReceive mac _ _ => [(mac, 2)]
  | .ethFrameTransmit mac => [(mac, 2)]
  | .timedFrameLaunch mac => [(mac, 2)]
  | .timedFrameLate mac => [(mac, 2)]
  | .linkEvt mac _ _ => [(mac, 2)]
  | .canFrameReceive ctl _ => [(ctl, 4)]
  | .txDone ctl entry => [(ctl, 4), (entry, 9)]
  | .txReq ctl _ => [(ctl, 4)]
  | .txAbort ctl _ => [(ctl, 4)]
  | .rxRet ctl _ => [(ctl, 4)]
  | .busOff ctl => [(ctl, 4)]
  | .recover ctl => [(ctl, 4)]
  | .canRecoveryDone ctl => [(ctl, 4)]
  | .detect ctl => [(ctl, 4)]
  | .detectCandidateTimeout ctl => [(ctl, 4)]
  | .dmaStart ch => [(ch, 32)]
  | .dmaStop ch => [(ch, 32)]
  | .kick ch => [(ch, 32)]
  | .descriptorFetch ch _ _ => [(ch, 32)]
  | .waitOwnPoll ch => [(ch, 32)]
  | .descriptorComplete ch _ _ _ => [(ch, 32)]
  | .powerDownDeferExpiry ch => [(ch, 32)]
  | .acqRd _ => []
  | .trigSw => []
  | .acqTrigLine => []
  | .latchEdge input _ _ => [(input, 32)]
  | .pwmReload ch _ => [(ch, 32)]
  | .pwmShadowWrite ch reg _ => [(ch, 32), (reg, 4)]
  | .pwmArm _ => []
  | .pwmTrip input _ => [(input, 4)]
  | .tripClr _ => []
  | .emuArm _ => []
  | .fbkCfgWrite ch _ => [(ch, 16)]
  | .mtStrobe ch _ _ => [(ch, 8)]
  | .mtClr ch => [(ch, 8)]
  | .mtZero ch => [(ch, 8)]
  | .leMemoryWrite le offset _ => [(le, 16), (offset, 0x40000)]
  | .monitorSample values => [(values.length, 13)]
  | .monitorCrossing sensor => [(sensor, 12)]
  | .heartbeat core => [(core, 4)]
  | .coreWatchdogExpiry core => [(core, 4)]
  | .innkeeperWatchdogExpiry => []
  | .ledgerFlashWrite => []
  | .nameplateWriteBack slot part => [(slot, 128), (part, 4)]
  | .wearLedgerCopy => []
  | .npIdentityCheck slot part nameplate => [(slot, 128), (part, 4), (nameplate.length, 257)]
  | .flashScrub page _ _ => [(page, 0x2000)]
  | .flashRewrite block _ => [(block, 512)]
  | .updateTimeout => []
  | .scrubPassDone _ => []
  | .awaitingHostImage _ => []
  | .kaXtalRestart => []
  | .supplyEvt rail _ => [(rail, 7)]
  | .encoderEdge ch _ _ => [(ch, 16)]
  | .adcConversion input _ _ => [(input, 32)]
  | .sharedSramAccess offset _ _ _ => [(offset, 0xc00000)]
  | .safetyAreaFlashWriteDone _ => []
  | .chainPortLinkEvt _ _ => []
  | .announceSend => []
  | .canBusError ctl _ _ _ => [(ctl, 4)]
  | .busMasterEnableWrite _ => []
  | .safeTorqueOffInput port station _ => [(port, 8), (station, 32)]
  | .powerStageFault port station chan => [(port, 8), (station, 32), (chan, 4)]

/-- Every number of the command is below its bound. -/
def Instr.wf (i : Instr) : Bool := i.limits.all fun e => decide (e.1 < e.2)

end Sys2Proof
end

