-- ==== Sys2Proof/Laws/PerInstr.lean ====
section
/-!
SUPPORT. A fact about every command as syntax: a well-formed one keeps each of its numbers within its bound; and a
packet row is of one of the sixteen classes, with a session and a payload in range when it is well formed.
-/
namespace Sys2Proof.Laws

open Sys2Proof.Machine

/-- The family `Shape`. -/
def Shape.Statement (i : Instr) : Prop :=
  (i.wf = true → ∀ e ∈ i.limits, e.1 < e.2)
  ∧ ∀ o h p, commandOf i = some (o, h, p) → 1 ≤ o / 256 ∧ o / 256 ≤ 16 ∧ (i.wf = true → h.ses < 4 ∧ p.length ≤ 496)

theorem packet_limits {i : Instr} {o : Nat} {h : Hdr} {p : Bytes} (e : commandOf i = some (o, h, p)) :
    i.limits = [(h.ses, 4), (p.length, 497)] ∧ 1 ≤ o / 256 ∧ o / 256 ≤ 16 := by
  cases i <;> simp only [commandOf, Option.some.injEq, Prod.mk.injEq, reduceCtorEq] at e
  all_goals
    obtain ⟨rfl, rfl, rfl⟩ := e
    exact ⟨rfl, by decide, by decide⟩

theorem shape_holds (i : Instr) : Shape.Statement i := by
  have hb : i.wf = true → ∀ e ∈ i.limits, e.1 < e.2 := fun w e m => of_decide_eq_true (List.all_eq_true.1 w e m)
  refine ⟨hb, fun o h p e => ?_⟩
  obtain ⟨l, c⟩ := packet_limits e
  refine ⟨c.1, c.2, fun w => ?_⟩
  have a := hb w
  rw [l] at a
  have a1 : h.ses < 4 := a (h.ses, 4) (by simp)
  have a2 : p.length < 497 := a (p.length, 497) (by simp)
  exact ⟨a1, Nat.le_of_lt_succ a2⟩

theorem Shape.nop (h : Hdr) (p : Bytes) : Shape.Statement (.nop h p) :=
  shape_holds _
theorem Shape.echo (h : Hdr) (p : Bytes) : Shape.Statement (.echo h p) :=
  shape_holds _
theorem Shape.sessionInfo (h : Hdr) (p : Bytes) : Shape.Statement (.sessionInfo h p) :=
  shape_holds _
theorem Shape.devInfo (h : Hdr) (p : Bytes) : Shape.Statement (.devInfo h p) :=
  shape_holds _
theorem Shape.runStart (h : Hdr) (p : Bytes) : Shape.Statement (.runStart h p) :=
  shape_holds _
theorem Shape.runStop (h : Hdr) (p : Bytes) : Shape.Statement (.runStop h p) :=
  shape_holds _
theorem Shape.setPeriod (h : Hdr) (p : Bytes) : Shape.Statement (.setPeriod h p) :=
  shape_holds _
theorem Shape.devStatus (h : Hdr) (p : Bytes) : Shape.Statement (.devStatus h p) :=
  shape_holds _
theorem Shape.getParams (h : Hdr) (p : Bytes) : Shape.Statement (.getParams h p) :=
  shape_holds _
theorem Shape.setParams (h : Hdr) (p : Bytes) : Shape.Statement (.setParams h p) :=
  shape_holds _
theorem Shape.defaultParams (h : Hdr) (p : Bytes) : Shape.Statement (.defaultParams h p) :=
  shape_holds _
theorem Shape.enable (h : Hdr) (p : Bytes) : Shape.Statement (.enable h p) :=
  shape_holds _
theorem Shape.disable (h : Hdr) (p : Bytes) : Shape.Statement (.disable h p) :=
  shape_holds _
theorem Shape.clearFault (h : Hdr) (p : Bytes) : Shape.Statement (.clearFault h p) :=
  shape_holds _
theorem Shape.axisStatus (h : Hdr) (p : Bytes) : Shape.Statement (.axisStatus h p) :=
  shape_holds _
theorem Shape.moveAbs (h : Hdr) (p : Bytes) : Shape.Statement (.moveAbs h p) :=
  shape_holds _
theorem Shape.moveRel (h : Hdr) (p : Bytes) : Shape.Statement (.moveRel h p) :=
  shape_holds _
theorem Shape.moveVel (h : Hdr) (p : Bytes) : Shape.Statement (.moveVel h p) :=
  shape_holds _
theorem Shape.stream (h : Hdr) (p : Bytes) : Shape.Statement (.stream h p) :=
  shape_holds _
theorem Shape.halt (h : Hdr) (p : Bytes) : Shape.Statement (.halt h p) :=
  shape_holds _
theorem Shape.quickStop (h : Hdr) (p : Bytes) : Shape.Statement (.quickStop h p) :=
  shape_holds _
theorem Shape.groupDefine (h : Hdr) (p : Bytes) : Shape.Statement (.groupDefine h p) :=
  shape_holds _
theorem Shape.pathSegment (h : Hdr) (p : Bytes) : Shape.Statement (.pathSegment h p) :=
  shape_holds _
theorem Shape.flushQueue (h : Hdr) (p : Bytes) : Shape.Statement (.flushQueue h p) :=
  shape_holds _
theorem Shape.dovetailLink (h : Hdr) (p : Bytes) : Shape.Statement (.dovetailLink h p) :=
  shape_holds _
theorem Shape.dovetailRatio (h : Hdr) (p : Bytes) : Shape.Statement (.dovetailRatio h p) :=
  shape_holds _
theorem Shape.dovetailUnlink (h : Hdr) (p : Bytes) : Shape.Statement (.dovetailUnlink h p) :=
  shape_holds _
theorem Shape.camLoad (h : Hdr) (p : Bytes) : Shape.Statement (.camLoad h p) :=
  shape_holds _
theorem Shape.camEngage (h : Hdr) (p : Bytes) : Shape.Statement (.camEngage h p) :=
  shape_holds _
theorem Shape.camDisengage (h : Hdr) (p : Bytes) : Shape.Statement (.camDisengage h p) :=
  shape_holds _
theorem Shape.vmasterSet (h : Hdr) (p : Bytes) : Shape.Statement (.vmasterSet h p) :=
  shape_holds _
theorem Shape.shaftConfig (h : Hdr) (p : Bytes) : Shape.Statement (.shaftConfig h p) :=
  shape_holds _
theorem Shape.homeStart (h : Hdr) (p : Bytes) : Shape.Statement (.homeStart h p) :=
  shape_holds _
theorem Shape.homeSet (h : Hdr) (p : Bytes) : Shape.Statement (.homeSet h p) :=
  shape_holds _
theorem Shape.homeAbort (h : Hdr) (p : Bytes) : Shape.Statement (.homeAbort h p) :=
  shape_holds _
theorem Shape.latchArm (h : Hdr) (p : Bytes) : Shape.Statement (.latchArm h p) :=
  shape_holds _
theorem Shape.latchDisarm (h : Hdr) (p : Bytes) : Shape.Statement (.latchDisarm h p) :=
  shape_holds _
theorem Shape.latchRead (h : Hdr) (p : Bytes) : Shape.Statement (.latchRead h p) :=
  shape_holds _
theorem Shape.registerCfg (h : Hdr) (p : Bytes) : Shape.Statement (.registerCfg h p) :=
  shape_holds _
theorem Shape.ttWrite (h : Hdr) (p : Bytes) : Shape.Statement (.ttWrite h p) :=
  shape_holds _
theorem Shape.ttClear (h : Hdr) (p : Bytes) : Shape.Statement (.ttClear h p) :=
  shape_holds _
theorem Shape.buildTimetable (h : Hdr) (p : Bytes) : Shape.Statement (.buildTimetable h p) :=
  shape_holds _
theorem Shape.ttRead (h : Hdr) (p : Bytes) : Shape.Statement (.ttRead h p) :=
  shape_holds _
theorem Shape.kernelLoad (h : Hdr) (p : Bytes) : Shape.Statement (.kernelLoad h p) :=
  shape_holds _
theorem Shape.kernelCheck (h : Hdr) (p : Bytes) : Shape.Statement (.kernelCheck h p) :=
  shape_holds _
theorem Shape.kernelList (h : Hdr) (p : Bytes) : Shape.Statement (.kernelList h p) :=
  shape_holds _
theorem Shape.acqConfig (h : Hdr) (p : Bytes) : Shape.Statement (.acqConfig h p) :=
  shape_holds _
theorem Shape.acqStart (h : Hdr) (p : Bytes) : Shape.Statement (.acqStart h p) :=
  shape_holds _
theorem Shape.acqStop (h : Hdr) (p : Bytes) : Shape.Statement (.acqStop h p) :=
  shape_holds _
theorem Shape.acqMark (h : Hdr) (p : Bytes) : Shape.Statement (.acqMark h p) :=
  shape_holds _
theorem Shape.fioSet (h : Hdr) (p : Bytes) : Shape.Statement (.fioSet h p) :=
  shape_holds _
theorem Shape.fioGet (h : Hdr) (p : Bytes) : Shape.Statement (.fioGet h p) :=
  shape_holds _
theorem Shape.fioConfig (h : Hdr) (p : Bytes) : Shape.Statement (.fioConfig h p) :=
  shape_holds _
theorem Shape.timeGet (h : Hdr) (p : Bytes) : Shape.Statement (.timeGet h p) :=
  shape_holds _
theorem Shape.timeAlarm (h : Hdr) (p : Bytes) : Shape.Statement (.timeAlarm h p) :=
  shape_holds _
theorem Shape.timeRestep (h : Hdr) (p : Bytes) : Shape.Statement (.timeRestep h p) :=
  shape_holds _
theorem Shape.timeConfig (h : Hdr) (p : Bytes) : Shape.Statement (.timeConfig h p) :=
  shape_holds _
theorem Shape.pairStatus (h : Hdr) (p : Bytes) : Shape.Statement (.pairStatus h p) :=
  shape_holds _
theorem Shape.pairHandover (h : Hdr) (p : Bytes) : Shape.Statement (.pairHandover h p) :=
  shape_holds _
theorem Shape.pairRelease (h : Hdr) (p : Bytes) : Shape.Statement (.pairRelease h p) :=
  shape_holds _
theorem Shape.pairResync (h : Hdr) (p : Bytes) : Shape.Statement (.pairResync h p) :=
  shape_holds _
theorem Shape.safeOpen (h : Hdr) (p : Bytes) : Shape.Statement (.safeOpen h p) :=
  shape_holds _
theorem Shape.safeWrite (h : Hdr) (p : Bytes) : Shape.Statement (.safeWrite h p) :=
  shape_holds _
theorem Shape.safeRead (h : Hdr) (p : Bytes) : Shape.Statement (.safeRead h p) :=
  shape_holds _
theorem Shape.safeCommit (h : Hdr) (p : Bytes) : Shape.Statement (.safeCommit h p) :=
  shape_holds _
theorem Shape.safeClose (h : Hdr) (p : Bytes) : Shape.Statement (.safeClose h p) :=
  shape_holds _
theorem Shape.updateBegin (h : Hdr) (p : Bytes) : Shape.Statement (.updateBegin h p) :=
  shape_holds _
theorem Shape.updateData (h : Hdr) (p : Bytes) : Shape.Statement (.updateData h p) :=
  shape_holds _
theorem Shape.updateCommit (h : Hdr) (p : Bytes) : Shape.Statement (.updateCommit h p) :=
  shape_holds _
theorem Shape.updateActivate (h : Hdr) (p : Bytes) : Shape.Statement (.updateActivate h p) :=
  shape_holds _
theorem Shape.ledgerRead (h : Hdr) (p : Bytes) : Shape.Statement (.ledgerRead h p) :=
  shape_holds _
theorem Shape.healthRead (h : Hdr) (p : Bytes) : Shape.Statement (.healthRead h p) :=
  shape_holds _
theorem Shape.npRead (h : Hdr) (p : Bytes) : Shape.Statement (.npRead h p) :=
  shape_holds _
theorem Shape.npBind (h : Hdr) (p : Bytes) : Shape.Statement (.npBind h p) :=
  shape_holds _
theorem Shape.wearRead (h : Hdr) (p : Bytes) : Shape.Statement (.wearRead h p) :=
  shape_holds _
theorem Shape.wearReplace (h : Hdr) (p : Bytes) : Shape.Statement (.wearReplace h p) :=
  shape_holds _
theorem Shape.qspiWrite (addr : Nat) (words : List Word) (cut : Bool) : Shape.Statement (.qspiWrite addr words cut) :=
  shape_holds _
theorem Shape.qspiRead (addr : Nat) (count : Nat) : Shape.Statement (.qspiRead addr count) :=
  shape_holds _
theorem Shape.qspiPing : Shape.Statement (.qspiPing) :=
  shape_holds _
theorem Shape.registerWrite (addr : Nat) (data : Bytes) : Shape.Statement (.registerWrite addr data) :=
  shape_holds _
theorem Shape.readClearRead (addr : Nat) (size : Nat) : Shape.Statement (.readClearRead addr size) :=
  shape_holds _
theorem Shape.latchedLoRead (addr : Nat) : Shape.Statement (.latchedLoRead addr) :=
  shape_holds _
theorem Shape.latchedHiRead (addr : Nat) : Shape.Statement (.latchedHiRead addr) :=
  shape_holds _
theorem Shape.latchedLoWrite (addr : Nat) (val : Word) : Shape.Statement (.latchedLoWrite addr val) :=
  shape_holds _
theorem Shape.latchedHiWrite (addr : Nat) (val : Word) : Shape.Statement (.latchedHiWrite addr val) :=
  shape_holds _
theorem Shape.guardedValueWrite (addr : Nat) (val : Word) : Shape.Statement (.guardedValueWrite addr val) :=
  shape_holds _
theorem Shape.guardedComplementFault (addr : Nat) (val : Word) : Shape.Statement (.guardedComplementFault addr val) :=
  shape_holds _
theorem Shape.nowNsRead : Shape.Statement (.nowNsRead) :=
  shape_holds _
theorem Shape.swiSet (val : Word) : Shape.Statement (.swiSet val) :=
  shape_holds _
theorem Shape.irqEoi (val : Word) : Shape.Statement (.irqEoi val) :=
  shape_holds _
theorem Shape.pwrReqReady : Shape.Statement (.pwrReqReady) :=
  shape_holds _
theorem Shape.pwrReqStandby : Shape.Statement (.pwrReqStandby) :=
  shape_holds _
theorem Shape.softwareReset : Shape.Statement (.softwareReset) :=
  shape_holds _
theorem Shape.cmdOpen (ses : Nat) (verMin : Byte) (verMax : Byte) : Shape.Statement (.cmdOpen ses verMin verMax) :=
  shape_holds _
theorem Shape.cmdClose (ses : Nat) : Shape.Statement (.cmdClose ses) :=
  shape_holds _
theorem Shape.cmdResume (ses : Nat) : Shape.Statement (.cmdResume ses) :=
  shape_holds _
theorem Shape.sessionClosed (ses : Nat) : Shape.Statement (.sessionClosed ses) :=
  shape_holds _
theorem Shape.sqTail (ses : Nat) (val : Word) : Shape.Statement (.sqTail ses val) :=
  shape_holds _
theorem Shape.cqHead (ses : Nat) (val : Word) : Shape.Statement (.cqHead ses val) :=
  shape_holds _
theorem Shape.packetFetch (ses : Nat) (slot : Bytes) : Shape.Statement (.packetFetch ses slot) :=
  shape_holds _
theorem Shape.hostBusError (ses : Nat) (fetch : Bool) : Shape.Statement (.hostBusError ses fetch) :=
  shape_holds _
theorem Shape.porterTick : Shape.Statement (.porterTick) :=
  shape_holds _
theorem Shape.taskDispatch (core : Nat) : Shape.Statement (.taskDispatch core) :=
  shape_holds _
theorem Shape.taskFinish (core : Nat) : Shape.Statement (.taskFinish core) :=
  shape_holds _
theorem Shape.coreStall (core : Nat) : Shape.Statement (.coreStall core) :=
  shape_holds _
theorem Shape.dependencyTimeout (ses : Nat) (seq : Word) : Shape.Statement (.dependencyTimeout ses seq) :=
  shape_holds _
theorem Shape.retirement (ses : Nat) : Shape.Statement (.retirement ses) :=
  shape_holds _
theorem Shape.replyWrite (ses : Nat) : Shape.Statement (.replyWrite ses) :=
  shape_holds _
theorem Shape.cqCoalTimeout (ses : Nat) : Shape.Statement (.cqCoalTimeout ses) :=
  shape_holds _
theorem Shape.pcieLinkDown : Shape.Statement (.pcieLinkDown) :=
  shape_holds _
theorem Shape.pcieLinkUp : Shape.Statement (.pcieLinkUp) :=
  shape_holds _
theorem Shape.powerOnReset (straps : BitVec 14) : Shape.Statement (.powerOnReset straps) :=
  shape_holds _
theorem Shape.mainSupplyLoss (rails : BitVec 3) : Shape.Statement (.mainSupplyLoss rails) :=
  shape_holds _
theorem Shape.mainSupplyRestored (straps : BitVec 14) : Shape.Statement (.mainSupplyRestored straps) :=
  shape_holds _
theorem Shape.pinReset (straps : BitVec 14) : Shape.Statement (.pinReset straps) :=
  shape_holds _
theorem Shape.runSupplyReset (rails : BitVec 3) : Shape.Statement (.runSupplyReset rails) :=
  shape_holds _
theorem Shape.vbakLost : Shape.Statement (.vbakLost) :=
  shape_holds _
theorem Shape.referenceStopped : Shape.Statement (.referenceStopped) :=
  shape_holds _
theorem Shape.referenceOutOfWindow : Shape.Statement (.referenceOutOfWindow) :=
  shape_holds _
theorem Shape.referenceRecovered : Shape.Statement (.referenceRecovered) :=
  shape_holds _
theorem Shape.pllLossOfLock (pll : Nat) : Shape.Statement (.pllLossOfLock pll) :=
  shape_holds _
theorem Shape.pcieClockLoss : Shape.Statement (.pcieClockLoss) :=
  shape_holds _
theorem Shape.kaXtalFail : Shape.Statement (.kaXtalFail) :=
  shape_holds _
theorem Shape.firstStageDone (failed : List Nat) (flashOk : Bool) : Shape.Statement (.firstStageDone failed flashOk) :=
  shape_holds _
theorem Shape.hostLoadTimeout : Shape.Statement (.hostLoadTimeout) :=
  shape_holds _
theorem Shape.secondStageDone (failed : List Nat) : Shape.Statement (.secondStageDone failed) :=
  shape_holds _
theorem Shape.standbyPowerDown (expired : Bool) : Shape.Statement (.standbyPowerDown expired) :=
  shape_holds _
theorem Shape.fieldWakeEdge (input : Nat) (rising : Bool) : Shape.Statement (.fieldWakeEdge input rising) :=
  shape_holds _
theorem Shape.canWakePattern (ctl : Nat) : Shape.Statement (.canWakePattern ctl) :=
  shape_holds _
theorem Shape.timeAlarmFire : Shape.Statement (.timeAlarmFire) :=
  shape_holds _
theorem Shape.periodBoundary : Shape.Statement (.periodBoundary) :=
  shape_holds _
theorem Shape.homingChatterAbort (slot : Nat) : Shape.Statement (.homingChatterAbort slot) :=
  shape_holds _
theorem Shape.homingNotFound (slot : Nat) : Shape.Statement (.homingNotFound slot) :=
  shape_holds _
theorem Shape.hardStopFound (slot : Nat) : Shape.Statement (.hardStopFound slot) :=
  shape_holds _
theorem Shape.shaftChannelLost (chan : Nat) : Shape.Statement (.shaftChannelLost chan) :=
  shape_holds _
theorem Shape.sampleTime : Shape.Statement .sampleTime :=
  shape_holds _
theorem Shape.serialEncoderDone (ch : Nat) (data : BitVec 64) (nErr : Bool) (nWarn : Bool) (crc : BitVec 6) (answer : Nat × Bool) (delay : Nat) : Shape.Statement (.serialEncoderDone ch data nErr nWarn crc answer delay) :=
  shape_holds _
theorem Shape.indexEdge (ch : Nat) (abHigh : Bool) : Shape.Statement (.indexEdge ch abHigh) :=
  shape_holds _
theorem Shape.returningFrame (port : Nat) (ns : Nat) (frame : Bytes) : Shape.Statement (.returningFrame port ns frame) :=
  shape_holds _
theorem Shape.returnDeadline (port : Nat) : Shape.Statement (.returnDeadline port) :=
  shape_holds _
theorem Shape.stopVisit (le : Nat) : Shape.Statement (.stopVisit le) :=
  shape_holds _
theorem Shape.stopComplete (le : Nat) : Shape.Statement (.stopComplete le) :=
  shape_holds _
theorem Shape.stopAbort (le : Nat) : Shape.Statement (.stopAbort le) :=
  shape_holds _
theorem Shape.feedbackFault (slot : Nat) : Shape.Statement (.feedbackFault slot) :=
  shape_holds _
theorem Shape.urgentTrigger (le : Nat) (stop : Nat) : Shape.Statement (.urgentTrigger le stop) :=
  shape_holds _
theorem Shape.urgentStopComplete (le : Nat) : Shape.Statement (.urgentStopComplete le) :=
  shape_holds _
theorem Shape.islandClockRestart (le : Nat) : Shape.Statement (.islandClockRestart le) :=
  shape_holds _
theorem Shape.sealing : Shape.Statement (.sealing) :=
  shape_holds _
theorem Shape.dropsFault (slot : Nat) : Shape.Statement (.dropsFault slot) :=
  shape_holds _
theorem Shape.acqRateChange : Shape.Statement (.acqRateChange) :=
  shape_holds _
theorem Shape.hopTrained (port : Nat) (hop : Nat) (maskA : Byte) (maskB : Byte) (deskew : Bool) : Shape.Statement (.hopTrained port hop maskA maskB deskew) :=
  shape_holds _
theorem Shape.retrain (port : Nat) : Shape.Statement (.retrain port) :=
  shape_holds _
theorem Shape.reclose (port : Nat) : Shape.Statement (.reclose port) :=
  shape_holds _
theorem Shape.discoveryFrame (port : Nat) (descriptors : List (Nat × Nat × Nat × Nat)) (returnedAt : Nat) (contradiction : Bool) : Shape.Statement (.discoveryFrame port descriptors returnedAt contradiction) :=
  shape_holds _
theorem Shape.delayFrame (port : Nat) (roundTrip : Nat) (stationDiffs : List Nat) (latencies : Nat) : Shape.Statement (.delayFrame port roundTrip stationDiffs latencies) :=
  shape_holds _
theorem Shape.delaySet (port : Nat) (station : Nat) (fromWest : Bool) (delay : Nat) : Shape.Statement (.delaySet port station fromWest delay) :=
  shape_holds _
theorem Shape.ringUp (port : Nat) : Shape.Statement (.ringUp port) :=
  shape_holds _
theorem Shape.trainFail (port : Nat) : Shape.Statement (.trainFail port) :=
  shape_holds _
theorem Shape.stationLinkLoss (port : Nat) (station : Nat) (eastPort : Bool) : Shape.Statement (.stationLinkLoss port station eastPort) :=
  shape_holds _
theorem Shape.stationLost (port : Nat) (station : Nat) : Shape.Statement (.stationLost port station) :=
  shape_holds _
theorem Shape.sideFail (port : Nat) : Shape.Statement (.sideFail port) :=
  shape_holds _
theorem Shape.headFrameReceive (port : Nat) (station : Nat) (fromWest : Bool) (frame : Bytes) : Shape.Statement (.headFrameReceive port station fromWest frame) :=
  shape_holds _
theorem Shape.headApply (port : Nat) (station : Nat) : Shape.Statement (.headApply port station) :=
  shape_holds _
theorem Shape.zeroI (port : Nat) (station : Nat) (chan : Nat) : Shape.Statement (.zeroI port station chan) :=
  shape_holds _
theorem Shape.headFrameLoss (port : Nat) (station : Nat) : Shape.Statement (.headFrameLoss port station) :=
  shape_holds _
theorem Shape.updActivate (port : Nat) (station : Nat) (starts : Bool) : Shape.Statement (.updActivate port station starts) :=
  shape_holds _
theorem Shape.chainMessageReceive (upstream : Bool) (ticks : Nat) (msg : Bytes) : Shape.Statement (.chainMessageReceive upstream ticks msg) :=
  shape_holds _
theorem Shape.pairLinkTrained (delay : Nat) : Shape.Statement (.pairLinkTrained delay) :=
  shape_holds _
theorem Shape.pairingRecord (partner : PairingRec) : Shape.Statement (.pairingRecord partner) :=
  shape_holds _
theorem Shape.pairActiveAlone (activeSeen : Bool) : Shape.Statement (.pairActiveAlone activeSeen) :=
  shape_holds _
theorem Shape.pairLinkRetrain : Shape.Statement (.pairLinkRetrain) :=
  shape_holds _
theorem Shape.aloneWaitExpiry (activeSeen : Bool) : Shape.Statement (.aloneWaitExpiry activeSeen) :=
  shape_holds _
theorem Shape.mirrorRecord (ses : Nat) (sqHead : Word) (effect : Nat) (slot : Bytes) : Shape.Statement (.mirrorRecord ses sqHead effect slot) :=
  shape_holds _
theorem Shape.mirrorAck (ses : Nat) (seq : Word) : Shape.Statement (.mirrorAck ses seq) :=
  shape_holds _
theorem Shape.mirrorAckTimeout (ses : Nat) (seq : Word) : Shape.Statement (.mirrorAckTimeout ses seq) :=
  shape_holds _
theorem Shape.retireRecord (ses : Nat) (seq : Word) (period : Nat) : Shape.Statement (.retireRecord ses seq period) :=
  shape_holds _
theorem Shape.retireRecordAck (ses : Nat) (seq : Word) : Shape.Statement (.retireRecordAck ses seq) :=
  shape_holds _
theorem Shape.replyIntent (ses : Nat) (index : Intent) : Shape.Statement (.replyIntent ses index) :=
  shape_holds _
theorem Shape.replyIntentAck (ses : Nat) (index : Word) : Shape.Statement (.replyIntentAck ses index) :=
  shape_holds _
theorem Shape.sessionRecord (ses : Nat) (cfg : Word) (sqBase : BitVec 64) (cqBase : BitVec 64) (ver : Byte) (nextSeq : Word) (retired : Word) : Shape.Statement (.sessionRecord ses cfg sqBase cqBase ver nextSeq retired) :=
  shape_holds _
theorem Shape.forwardedDoorbell (ses : Nat) (reg : Nat) (val : Word) : Shape.Statement (.forwardedDoorbell ses reg val) :=
  shape_holds _
theorem Shape.proxy (ses : Nat) (slot : ProxyWork) : Shape.Statement (.proxy ses slot) :=
  shape_holds _
theorem Shape.switchSourceSample (field : Word) (latch : Word) (holds : List Nat) : Shape.Statement (.switchSourceSample field latch holds) :=
  shape_holds _
theorem Shape.latchStampTransfer (input : Nat) (falling : Bool) (stamp : Stamp) : Shape.Statement (.latchStampTransfer input falling stamp) :=
  shape_holds _
theorem Shape.forwardedSegment (port : Nat) (station : Nat) (chan : Nat) (segment : Bytes) : Shape.Statement (.forwardedSegment port station chan segment) :=
  shape_holds _
theorem Shape.periodRecord (period : Word) (digest : Word) (slotDigests : List (BitVec 16)) (timeOfs : Int) : Shape.Statement (.periodRecord period digest slotDigests timeOfs) :=
  shape_holds _
theorem Shape.periodRecordMissing : Shape.Statement (.periodRecordMissing) :=
  shape_holds _
theorem Shape.adoptionRequest (slot : Nat) : Shape.Statement (.adoptionRequest slot) :=
  shape_holds _
theorem Shape.adoptionImage (image : Bytes) (period : Word) : Shape.Statement (.adoptionImage image period) :=
  shape_holds _
theorem Shape.pairLinkLost : Shape.Statement (.pairLinkLost) :=
  shape_holds _
theorem Shape.failover : Shape.Statement (.failover) :=
  shape_holds _
theorem Shape.resyncDrained : Shape.Statement (.resyncDrained) :=
  shape_holds _
theorem Shape.resyncCopyDone : Shape.Statement (.resyncCopyDone) :=
  shape_holds _
theorem Shape.paired : Shape.Statement (.paired) :=
  shape_holds _
theorem Shape.resyncFail : Shape.Statement (.resyncFail) :=
  shape_holds _
theorem Shape.safetyCycle (oscBad : Bool) (resultsDiffer : Bool) (silent : Bool) (memoryBad : Bool) (imageBad : Bool) (refBad : Bool) : Shape.Statement (.safetyCycle oscBad resultsDiffer silent memoryBad imageBad refBad) :=
  shape_holds _
theorem Shape.islandBootDone (aOk : Bool) (bOk : Bool) : Shape.Statement (.islandBootDone aOk bOk) :=
  shape_holds _
theorem Shape.islandWatchdog : Shape.Statement (.islandWatchdog) :=
  shape_holds _
theorem Shape.testPulse (out : Nat) (low : Bool) (passed : Bool) : Shape.Statement (.testPulse out low passed) :=
  shape_holds _
theorem Shape.inputDiscrepancy (input : Nat) : Shape.Statement (.inputDiscrepancy input) :=
  shape_holds _
theorem Shape.safeFeedbackLoss (axis : Nat) (second : Bool) : Shape.Statement (.safeFeedbackLoss axis second) :=
  shape_holds _
theorem Shape.stopTExpiry (axis : Nat) : Shape.Statement (.stopTExpiry axis) :=
  shape_holds _
theorem Shape.standstillConfirmed (axis : Nat) : Shape.Statement (.standstillConfirmed axis) :=
  shape_holds _
theorem Shape.brakeDelayExpiry (out : Nat) : Shape.Statement (.brakeDelayExpiry out) :=
  shape_holds _
theorem Shape.safeTelegramProduce (conn : Nat) : Shape.Statement (.safeTelegramProduce conn) :=
  shape_holds _
theorem Shape.safeTelegramReceive (conn : Nat) (telegram : Bytes) : Shape.Statement (.safeTelegramReceive conn telegram) :=
  shape_holds _
theorem Shape.connLost (conn : Nat) : Shape.Statement (.connLost conn) :=
  shape_holds _
theorem Shape.commissioningTimeout : Shape.Statement (.commissioningTimeout) :=
  shape_holds _
theorem Shape.authLockoutExpiry : Shape.Statement (.authLockoutExpiry) :=
  shape_holds _
theorem Shape.fieldDieStart : Shape.Statement (.fieldDieStart) :=
  shape_holds _
theorem Shape.fieldLinkFrame (valid : Bool) : Shape.Statement (.fieldLinkFrame valid) :=
  shape_holds _
theorem Shape.fieldLinkLost : Shape.Statement (.fieldLinkLost) :=
  shape_holds _
theorem Shape.fieldInputSample (raw : Word) : Shape.Statement (.fieldInputSample raw) :=
  shape_holds _
theorem Shape.rearm : Shape.Statement (.rearm) :=
  shape_holds _
theorem Shape.outCmd (val : Word) : Shape.Statement (.outCmd val) :=
  shape_holds _
theorem Shape.fieldOutputFault (out : Nat) : Shape.Statement (.fieldOutputFault out) :=
  shape_holds _
theorem Shape.fieldOutputLatchClear (out : Nat) : Shape.Statement (.fieldOutputLatchClear out) :=
  shape_holds _
theorem Shape.sag (mv10 : Nat) : Shape.Statement (.sag mv10) :=
  shape_holds _
theorem Shape.recovered (mv10 : Nat) : Shape.Statement (.recovered mv10) :=
  shape_holds _
theorem Shape.referenceTick : Shape.Statement (.referenceTick) :=
  shape_holds _
theorem Shape.ptpMessage (msg : PtpMsg) : Shape.Statement (.ptpMessage msg) :=
  shape_holds _
theorem Shape.slewEnd : Shape.Statement (.slewEnd) :=
  shape_holds _
theorem Shape.lockEvt : Shape.Statement (.lockEvt) :=
  shape_holds _
theorem Shape.holdover : Shape.Statement (.holdover) :=
  shape_holds _
theorem Shape.ptpSyncSend : Shape.Statement (.ptpSyncSend) :=
  shape_holds _
theorem Shape.ptpEn (on : Bool) : Shape.Statement (.ptpEn on) :=
  shape_holds _
theorem Shape.restep : Shape.Statement (.restep) :=
  shape_holds _
theorem Shape.ethFrameReceive (mac : Nat) (frame : Bytes) (fcsOk : Bool) : Shape.Statement (.ethFrameReceive mac frame fcsOk) :=
  shape_holds _
theorem Shape.ethFrameTransmit (mac : Nat) : Shape.Statement (.ethFrameTransmit mac) :=
  shape_holds _
theorem Shape.timedFrameLaunch (mac : Nat) : Shape.Statement (.timedFrameLaunch mac) :=
  shape_holds _
theorem Shape.timedFrameLate (mac : Nat) : Shape.Statement (.timedFrameLate mac) :=
  shape_holds _
theorem Shape.linkEvt (mac : Nat) (up : Bool) (slow : Bool) : Shape.Statement (.linkEvt mac up slow) :=
  shape_holds _
theorem Shape.canFrameReceive (ctl : Nat) (frame : CanFrame) : Shape.Statement (.canFrameReceive ctl frame) :=
  shape_holds _
theorem Shape.txDone (ctl : Nat) (entry : Nat) : Shape.Statement (.txDone ctl entry) :=
  shape_holds _
theorem Shape.txReq (ctl : Nat) (val : Word) : Shape.Statement (.txReq ctl val) :=
  shape_holds _
theorem Shape.txAbort (ctl : Nat) (val : Word) : Shape.Statement (.txAbort ctl val) :=
  shape_holds _
theorem Shape.rxRet (ctl : Nat) (val : Word) : Shape.Statement (.rxRet ctl val) :=
  shape_holds _
theorem Shape.busOff (ctl : Nat) : Shape.Statement (.busOff ctl) :=
  shape_holds _
theorem Shape.recover (ctl : Nat) : Shape.Statement (.recover ctl) :=
  shape_holds _
theorem Shape.canRecoveryDone (ctl : Nat) : Shape.Statement (.canRecoveryDone ctl) :=
  shape_holds _
theorem Shape.detect (ctl : Nat) : Shape.Statement (.detect ctl) :=
  shape_holds _
theorem Shape.detectCandidateTimeout (ctl : Nat) : Shape.Statement (.detectCandidateTimeout ctl) :=
  shape_holds _
theorem Shape.dmaStart (ch : Nat) : Shape.Statement (.dmaStart ch) :=
  shape_holds _
theorem Shape.dmaStop (ch : Nat) : Shape.Statement (.dmaStop ch) :=
  shape_holds _
theorem Shape.kick (ch : Nat) : Shape.Statement (.kick ch) :=
  shape_holds _
theorem Shape.descriptorFetch (ch : Nat) (host : Bytes) (failed : Bool) : Shape.Statement (.descriptorFetch ch host failed) :=
  shape_holds _
theorem Shape.waitOwnPoll (ch : Nat) : Shape.Statement (.waitOwnPoll ch) :=
  shape_holds _
theorem Shape.descriptorComplete (ch : Nat) (host : Bytes) (busError : Bool) (writeBackFails : Bool) : Shape.Statement (.descriptorComplete ch host busError writeBackFails) :=
  shape_holds _
theorem Shape.powerDownDeferExpiry (ch : Nat) : Shape.Statement (.powerDownDeferExpiry ch) :=
  shape_holds _
theorem Shape.acqRd (val : Word) : Shape.Statement (.acqRd val) :=
  shape_holds _
theorem Shape.trigSw : Shape.Statement (.trigSw) :=
  shape_holds _
theorem Shape.acqTrigLine : Shape.Statement (.acqTrigLine) :=
  shape_holds _
theorem Shape.latchEdge (input : Nat) (level : Bool) (stamp : Stamp) : Shape.Statement (.latchEdge input level stamp) :=
  shape_holds _
theorem Shape.pwmReload (ch : Nat) (cut : Bool) : Shape.Statement (.pwmReload ch cut) :=
  shape_holds _
theorem Shape.pwmShadowWrite (ch : Nat) (reg : Nat) (val : Word) : Shape.Statement (.pwmShadowWrite ch reg val) :=
  shape_holds _
theorem Shape.pwmArm (val : Word) : Shape.Statement (.pwmArm val) :=
  shape_holds _
theorem Shape.pwmTrip (input : Nat) (active : Bool) : Shape.Statement (.pwmTrip input active) :=
  shape_holds _
theorem Shape.tripClr (val : Word) : Shape.Statement (.tripClr val) :=
  shape_holds _
theorem Shape.emuArm (val : Word) : Shape.Statement (.emuArm val) :=
  shape_holds _
theorem Shape.fbkCfgWrite (ch : Nat) (val : Word) : Shape.Statement (.fbkCfgWrite ch val) :=
  shape_holds _
theorem Shape.mtStrobe (ch : Nat) (a : Bool) (b : Bool) : Shape.Statement (.mtStrobe ch a b) :=
  shape_holds _
theorem Shape.mtClr (ch : Nat) : Shape.Statement (.mtClr ch) :=
  shape_holds _
theorem Shape.mtZero (ch : Nat) : Shape.Statement (.mtZero ch) :=
  shape_holds _
theorem Shape.leMemoryWrite (le : Nat) (offset : Nat) (val : Word) : Shape.Statement (.leMemoryWrite le offset val) :=
  shape_holds _
theorem Shape.monitorSample (values : List Int) : Shape.Statement (.monitorSample values) :=
  shape_holds _
theorem Shape.monitorCrossing (sensor : Nat) : Shape.Statement (.monitorCrossing sensor) :=
  shape_holds _
theorem Shape.heartbeat (core : Nat) : Shape.Statement (.heartbeat core) :=
  shape_holds _
theorem Shape.coreWatchdogExpiry (core : Nat) : Shape.Statement (.coreWatchdogExpiry core) :=
  shape_holds _
theorem Shape.innkeeperWatchdogExpiry : Shape.Statement (.innkeeperWatchdogExpiry) :=
  shape_holds _
theorem Shape.ledgerFlashWrite : Shape.Statement (.ledgerFlashWrite) :=
  shape_holds _
theorem Shape.nameplateWriteBack (slot : Nat) (part : Nat) : Shape.Statement (.nameplateWriteBack slot part) :=
  shape_holds _
theorem Shape.wearLedgerCopy : Shape.Statement (.wearLedgerCopy) :=
  shape_holds _
theorem Shape.npIdentityCheck (slot : Nat) (part : Nat) (nameplate : Bytes) : Shape.Statement (.npIdentityCheck slot part nameplate) :=
  shape_holds _
theorem Shape.flashScrub (page : Nat) (ok : Bool) (copyOk : Bool) : Shape.Statement (.flashScrub page ok copyOk) :=
  shape_holds _
theorem Shape.flashRewrite (block : Nat) (verified : Bool) : Shape.Statement (.flashRewrite block verified) :=
  shape_holds _
theorem Shape.updateTimeout : Shape.Statement (.updateTimeout) :=
  shape_holds _
theorem Shape.scrubPassDone (flips : List Nat) : Shape.Statement (.scrubPassDone flips) :=
  shape_holds _
theorem Shape.awaitingHostImage (failed : List Nat) : Shape.Statement (.awaitingHostImage failed) :=
  shape_holds _
theorem Shape.kaXtalRestart : Shape.Statement (.kaXtalRestart) :=
  shape_holds _
theorem Shape.supplyEvt (rail : Nat) (up : Bool) : Shape.Statement (.supplyEvt rail up) :=
  shape_holds _
theorem Shape.encoderEdge (ch : Nat) (ab : Bool × Bool) (samples : Nat) : Shape.Statement (.encoderEdge ch ab samples) :=
  shape_holds _
theorem Shape.adcConversion (input : Nat) (code : BitVec 16) (atSample : Bool) : Shape.Statement (.adcConversion input code atSample) :=
  shape_holds _
theorem Shape.sharedSramAccess (offset : Nat) (data : List (Option Byte)) (read : Nat) (flips : List Nat) : Shape.Statement (.sharedSramAccess offset data read flips) :=
  shape_holds _
theorem Shape.safetyAreaFlashWriteDone (ok : Bool) : Shape.Statement (.safetyAreaFlashWriteDone ok) :=
  shape_holds _
theorem Shape.chainPortLinkEvt (upstream : Bool) (up : Bool) : Shape.Statement (.chainPortLinkEvt upstream up) :=
  shape_holds _
theorem Shape.announceSend : Shape.Statement (.announceSend) :=
  shape_holds _
theorem Shape.canBusError (ctl : Nat) (tx : Bool) (ack : Bool) (dominant : Bool) : Shape.Statement (.canBusError ctl tx ack dominant) :=
  shape_holds _
theorem Shape.busMasterEnableWrite (on : Bool) : Shape.Statement (.busMasterEnableWrite on) :=
  shape_holds _
theorem Shape.safeTorqueOffInput (port : Nat) (station : Nat) (active : Bool) : Shape.Statement (.safeTorqueOffInput port station active) :=
  shape_holds _
theorem Shape.powerStageFault (port : Nat) (station : Nat) (chan : Nat) : Shape.Statement (.powerStageFault port station chan) :=
  shape_holds _

end Sys2Proof.Laws
end

