-- ==== Sys2Proof/Tests/Slice0.lean ====
section
/-!
SUPPORT. Tests: one ill-formed term for each check of well-formedness, single rules on numbers of the spec, and
for each statement with hypotheses a state and operands that meet them.
-/
namespace Sys2Proof.Tests

open Machine

-- One theorem at a time: each holds the stack of a thread of its own while the kernel evaluates it.
set_option Elab.async false

/-! ### Checks that decide the hypotheses of the statements -/

/-- Decides `Clear` where the Porter lists nothing and the reply store is empty. -/
def isClear (h : Hdr) (p : Bytes) (s : State) : Bool :=
  s.mayFetch h.ses && decide (h.seq = s.reg (Reg.cmdNextSeq h.ses)) && decide (p.length ≤ 496) && !h.dep && !s.inStep
    && (List.range 4).any s.coreIdle && decide (s.porter.ready = []) && decide ((s.ses h.ses).flights = [])
    && decide ((s.ses h.ses).replies = []) && decide (s.pair.order = []) && !s.cqFull h.ses && !(s.ses h.ses).opened.cqSram
    && s.masters && !(s.ses h.ses).stuck && !s.power.recovery && decide (s.inn.resetDue = none)

theorem clear_of {h : Hdr} {p : Bytes} {s : State} (k : isClear h p s = true) : Clear h p s := by
  simp only [isClear, Bool.and_eq_true, decide_eq_true_eq, Bool.not_eq_true', List.any_eq_true] at k
  obtain ⟨⟨⟨⟨⟨⟨⟨⟨⟨⟨⟨⟨⟨⟨⟨k1, k2⟩, k3⟩, k4⟩, k5⟩, c, _, k6⟩, k7⟩, k8⟩, k9⟩, k10⟩, k11⟩, k12⟩, k13⟩, k14⟩, k15⟩, k16⟩ := k
  refine ⟨k1, k2, k3, k4, k5, ⟨c, k6⟩, fun q => ?_, k8, ?_, ?_, k11, k12, k13, k14, k15, k16⟩
  · unfold State.readyList; rw [k7]; rfl
  · rw [k9]; intro r hr; cases hr
  · rw [k10]; intro hr; cases hr

/-- Decides `Passes`. -/
def isPassed (o : OpSpec) (op : Nat) (h : Hdr) (p : Bytes) (s : State) : Bool :=
  !(o.yes && s.tooFar h) && decide (checkCommand o (judged op h p s) { op := op, hdr := h, payload := p } = none)
    && (finished op h p s).queueFits o { op := op, hdr := h, payload := p }

theorem passes_of {o : OpSpec} {op : Nat} {h : Hdr} {p : Bytes} {s : State} (k : isPassed o op h p s = true) : Passes o op h p s := by
  simp only [isPassed, Bool.and_eq_true, decide_eq_true_eq, Bool.not_eq_true'] at k
  obtain ⟨⟨y, k1⟩, k2⟩ := k
  refine ⟨fun e => ?_, k1, k2⟩
  rw [e, Bool.true_and] at y; exact y

/-- Decides `Ripe`. -/
def isRipe (k : Nat) (x : Staged) (s : State) : Bool :=
  !x.cut && !x.waiting && decide (x.eff ≤ k) && !s.heldBack k x && x.slots.all (fun n => decide ((s.axis n).holdKind = 0)) && !s.inStep && !s.recordless x

theorem ripe_of {k : Nat} {x : Staged} {s : State} (h : isRipe k x s = true) : Ripe k x s := by
  simp only [isRipe, Bool.and_eq_true, decide_eq_true_eq, Bool.not_eq_true', List.all_eq_true] at h
  obtain ⟨⟨⟨⟨⟨⟨h1, h2⟩, h3⟩, h4⟩, h5⟩, h6⟩, h7⟩ := h
  exact ⟨h1, h2, h3, h4, fun n hn => h5 n hn, h6, h7⟩

/-! ### A safety image that its checks accept -/

theorem leNat_leBytes (n : Nat) : ∀ v, leNat (leBytes n v) = v % 256 ^ n := by
  induction n with
  | zero => intro v; simp [leBytes, leNat, Nat.mod_one]
  | succ n ih =>
    intro v
    rw [Nat.pow_succ, Nat.mul_comm (256 ^ n) 256, Nat.mod_mul]
    show (BitVec.ofNat 8 v).toNat + 256 * leNat (leBytes n (v / 256)) = _
    rw [ih, BitVec.toNat_ofNat]

theorem getRun_drop {α : Type} (d : Nat → α) (m : Map α) : ∀ (o k n : Nat), (Map.getRun d m k n).drop o = Map.getRun d m (k + o) (n - o) := by
  intro o
  induction o with
  | zero => intro k n; simp
  | succ o ih =>
    intro k n
    cases n with
    | zero => simp [Map.getRun]
    | succ n => simp only [Map.getRun, List.drop_succ_cons, ih]; rw [show k + 1 + o = k + (o + 1) by omega, show n + 1 - (o + 1) = n - o by omega]

theorem getRun_take {α : Type} (d : Nat → α) (m : Map α) : ∀ (j k n : Nat), (Map.getRun d m k n).take j = Map.getRun d m k (min j n) := by
  intro j
  induction j with
  | zero => intro k n; simp [Map.getRun]
  | succ j ih =>
    intro k n
    cases n with
    | zero => simp [Map.getRun]
    | succ n => simp only [Map.getRun, List.take_succ_cons, ih]; rw [show min (j + 1) (n + 1) = min j n + 1 by omega]; rfl

/-- Beyond its listed bytes a map adds nothing to a number. -/
theorem leNat_getRun {m : Map Byte} {e : Nat} (h : ∀ x, e ≤ x → Map.get (fun _ => (0 : Byte)) m x = 0) :
    ∀ (n k : Nat), e ≤ k → leNat (Map.getRun (fun _ => 0) m k n) = 0 := by
  intro n
  induction n with
  | zero => intro k _; rfl
  | succ n ih => 
    intro k hk
    show (Map.get (fun _ => (0 : Byte)) m k).toNat + 256 * leNat (Map.getRun (fun _ => 0) m (k + 1) n) = 0
    rw [h k hk, ih (k + 1) (by omega)]; rfl

theorem leNat_getRun_min {m : Map Byte} {e : Nat} (h : ∀ x, e ≤ x → Map.get (fun _ => (0 : Byte)) m x = 0) :
    ∀ (n k : Nat), leNat (Map.getRun (fun _ => 0) m k (min n (e - k))) = leNat (Map.getRun (fun _ => 0) m k n) := by
  intro n
  induction n with
  | zero => intro k; simp
  | succ n ih =>
    intro k
    by_cases hk : e ≤ k
    · rw [show min (n + 1) (e - k) = 0 by omega, leNat_getRun h _ _ hk, leNat_getRun h _ _ hk]
    · rw [show min (n + 1) (e - k) = min n (e - (k + 1)) + 1 by omega]
      simp only [Map.getRun, leNat, ih (k + 1)]

/-- A number of an image is that of the map of its bytes. -/
theorem num_image {m : Map Byte} (h : ∀ x, 2048 ≤ x → Map.get (fun _ => (0 : Byte)) m x = 0) :
    Bytes.num (imageBytes m) = fun o n => leNat (Map.getRun (fun _ => 0) m o n) := by
  funext o n
  unfold Bytes.num imageBytes
  rw [getRun_drop, getRun_take, Nat.zero_add]
  exact leNat_getRun_min h n o

theorem reflect_lt (v : Nat) : reflect 32 v < 2 ^ 32 := by
  have key : ∀ k, k ≤ 32 → (List.range k).foldl (fun r i => r + v / 2 ^ i % 2 * 2 ^ (32 - 1 - i)) 0 + 2 ^ (32 - k) ≤ 2 ^ 32 := by
    intro k
    induction k with
    | zero => intro _; simp
    | succ k ih =>
      intro hk
      have hi := ih (by omega)
      rw [List.range_succ, List.foldl_append]
      simp only [List.foldl_cons, List.foldl_nil]
      have hb : v / 2 ^ k % 2 * 2 ^ (32 - 1 - k) ≤ 2 ^ (32 - 1 - k) := by
        have : v / 2 ^ k % 2 ≤ 1 := by omega
        calc _ ≤ 1 * 2 ^ (32 - 1 - k) := Nat.mul_le_mul_right _ this
          _ = _ := by omega
      have hp : 2 ^ (32 - k) = 2 ^ (32 - 1 - k) + 2 ^ (32 - 1 - k) := by
        rw [show 32 - k = (32 - 1 - k) + 1 by omega, Nat.pow_succ]; omega
      have hq : 32 - (k + 1) = 32 - 1 - k := by omega
      rw [hq]; omega
  have h := key 32 (Nat.le_refl _)
  have hz : 0 < 2 ^ (32 - 32) := by decide
  unfold reflect
  omega

theorem imageCheck_lt (p : Bytes) : imageCheck p < 2 ^ 32 := by
  unfold imageCheck crc32c crcLsb
  exact Nat.xor_lt_two_pow (reflect_lt _) (by decide)

/-- A working safety image with no axis, input or output. -/
def blank : Map Byte :=
  [(0, 0xC1), (1, 0xB7), (2, 0xFE), (3, 0x5A), (4, 1), (16, 0xFF), (17, 0xFF)] ++ (List.range 32).map (fun a => (64 + 48 * a, 0xFF))
    ++ (List.range 16).map (fun i => (0x640 + 8 * i, 0xFF))

theorem find_none {α : Type} {m : Map α} {e : Nat} (h : m.all (fun x => decide (x.1 < e)) = true) : ∀ x, e ≤ x → Map.find? m x = none := by
  induction m with
  | nil => intro x _; rfl
  | cons y r ih =>
    obtain ⟨k, v⟩ := y
    simp only [List.all_cons, Bool.and_eq_true, decide_eq_true_eq] at h
    intro x hx
    unfold Map.find?
    rw [if_neg (by omega)]
    exact ih h.2 x hx

theorem blank_error : imageError (imageBytes blank) = none := by
  have h : ∀ x, 2048 ≤ x → Map.get (fun _ => (0 : Byte)) blank x = 0 := by
    intro x hx
    unfold Map.get
    rw [find_none (e := 2048) (by decide +kernel) x hx]; rfl
  unfold imageError
  rw [num_image h]
  decide +kernel

/-- The payload that commits it: its check value. -/
def blankCheck : Bytes := leBytes 4 (imageCheck (imageBytes blank))

theorem blankCheck_num : Bytes.num blankCheck 0 4 = imageCheck (imageBytes blank) := by
  unfold Bytes.num blankCheck
  rw [List.drop_zero, List.take_of_length_le (by simp [leBytes]), leNat_leBytes]
  exact Nat.mod_eq_of_lt (imageCheck_lt _)

/-! ### Ill-formed terms: each check of well-formedness refuses one -/

/-- The constructors of packet commands. -/
def packets : List (Hdr → Bytes → Instr) :=
  [.nop, .echo, .sessionInfo, .devInfo, .runStart, .runStop, .setPeriod, .devStatus, .getParams, .setParams, .defaultParams, .enable,
    .disable, .clearFault, .axisStatus, .moveAbs, .moveRel, .moveVel, .stream, .halt, .quickStop, .groupDefine, .pathSegment, .flushQueue,
    .dovetailLink, .dovetailRatio]
 ++ [.dovetailUnlink, .camLoad, .camEngage, .camDisengage, .vmasterSet, .shaftConfig, .homeStart, .homeSet, .homeAbort, .latchArm,
    .latchDisarm, .latchRead, .registerCfg, .ttWrite, .ttClear, .buildTimetable, .ttRead, .kernelLoad, .kernelCheck, .kernelList,
    .acqConfig, .acqStart, .acqStop, .acqMark, .fioSet, .fioGet]
 ++ [.fioConfig, .timeGet, .timeAlarm, .timeRestep, .timeConfig, .pairStatus, .pairHandover, .pairRelease, .pairResync, .safeOpen,
    .safeWrite, .safeRead, .safeCommit, .safeClose, .updateBegin, .updateData, .updateCommit, .updateActivate, .ledgerRead, .healthRead,
    .npRead, .npBind, .wearRead, .wearReplace]

theorem smoke_packet_session : packets.all (fun f => !(f { ses := 4 } []).wf) = true := by decide
theorem smoke_packet_length : packets.all (fun f => !(f {} (List.replicate 497 0)).wf) = true := by decide +kernel
theorem test_packets_fit : packets.length = 76 ∧ packets.all (fun f => (f { ses := 3 } (List.replicate 496 0)).wf) = true := by decide +kernel

theorem smoke_numbers_1 :
  ([.qspiWrite 0x1c00000 [] false, .qspiRead 0x1c00000 0, .qspiRead 0 0x700001, .registerWrite 0x3e0000 [], .readClearRead 0x3e0000 0,
    .readClearRead 0 9, .latchedLoRead 0x3e0000, .latchedHiRead 0x3e0000, .latchedLoWrite 0x3e0000 0, .latchedHiWrite 0x3e0000 0,
    .guardedValueWrite 0x3e0000 0, .guardedComplementFault 0x3e0000 0, .cmdOpen 4 0 0, .cmdClose 4, .cmdResume 4, .sessionClosed 4,
    .sqTail 4 0, .cqHead 4 0, .packetFetch 4 [], .hostBusError 4 false, .taskDispatch 4, .taskFinish 4, .coreStall 4,
    .dependencyTimeout 4 0, .retirement 4, .replyWrite 4, .cqCoalTimeout 4, .pllLossOfLock 3, .fieldWakeEdge 32 false, .canWakePattern 4,
    .homingChatterAbort 128, .homingNotFound 128] : List Instr).all (fun i => !i.wf) = true := by decide +kernel
theorem smoke_numbers_2 :
  ([.hardStopFound 128, .shaftChannelLost 4, .serialEncoderDone 16 0 false false 0 (0, false) 0, .indexEdge 16 false,
    .returningFrame 8 0 [], .returnDeadline 8, .stopVisit 16, .stopComplete 16, .stopAbort 16, .feedbackFault 128, .urgentTrigger 16 0,
    .urgentTrigger 0 512, .urgentStopComplete 16, .islandClockRestart 16, .dropsFault 128, .hopTrained 8 0 0 0 false,
    .hopTrained 0 33 0 0 false, .retrain 8, .reclose 8, .discoveryFrame 8 [] 0 false, .discoveryFrame 0 [] 16 false, .delayFrame 8 0 [] 0,
    .delaySet 8 0 false 0, .delaySet 0 32 false 0, .ringUp 8, .trainFail 8, .stationLinkLoss 8 0 false, .stationLinkLoss 0 32 false,
    .stationLost 8 0, .stationLost 0 32, .sideFail 8] : List Instr).all (fun i => !i.wf) = true := by decide +kernel
theorem smoke_numbers_3 :
  ([.headFrameReceive 8 0 false [], .headFrameReceive 0 32 false [], .headApply 8 0, .headApply 0 32, .zeroI 8 0 0, .zeroI 0 32 0,
    .zeroI 0 0 4, .headFrameLoss 8 0, .headFrameLoss 0 32, .updActivate 8 0 false, .updActivate 0 32 false, .mirrorRecord 4 0 0 [],
    .mirrorAck 4 0, .mirrorAckTimeout 4 0, .retireRecord 4 0 0, .retireRecordAck 4 0, .replyIntent 4 ⟨0, 0⟩, .replyIntentAck 4 0,
    .sessionRecord 4 0 0 0 0 0 0, .forwardedDoorbell 4 0 0, .proxy 4 (.packet []), .latchStampTransfer 32 false {}, .forwardedSegment 8 0 0 [],
    .forwardedSegment 0 32 0 [], .forwardedSegment 0 0 4 [], .adoptionRequest 128, .testPulse 4 false false, .inputDiscrepancy 16,
    .safeFeedbackLoss 32 false, .stopTExpiry 32, .standstillConfirmed 32, .brakeDelayExpiry 4] : List Instr).all (fun i => !i.wf) = true := by decide +kernel
theorem smoke_numbers_4 :
  ([.safeTelegramProduce 8, .safeTelegramReceive 8 [], .connLost 8, .fieldOutputFault 16, .fieldOutputLatchClear 16,
    .ethFrameReceive 2 [] false, .ethFrameTransmit 2, .timedFrameLaunch 2, .timedFrameLate 2, .linkEvt 2 false false,
    .canFrameReceive 4 ⟨0, false, false, false, false, false, 0, [], 0⟩, .txDone 4 0, .txDone 0 9, .txReq 4 0, .txAbort 4 0, .rxRet 4 0,
    .busOff 4, .recover 4, .canRecoveryDone 4, .detect 4, .detectCandidateTimeout 4, .dmaStart 32, .dmaStop 32, .kick 32,
    .descriptorFetch 32 [] false, .waitOwnPoll 32, .descriptorComplete 32 [] false false, .powerDownDeferExpiry 32, .latchEdge 32 false {},
    .pwmReload 32 false, .pwmShadowWrite 32 0 0, .pwmShadowWrite 0 4 0] : List Instr).all (fun i => !i.wf) = true := by decide +kernel
theorem smoke_numbers_5 :
  ([.pwmTrip 4 false, .fbkCfgWrite 16 0, .mtStrobe 8 false false, .mtClr 8, .mtZero 8, .leMemoryWrite 16 0 0, .leMemoryWrite 0 0x40000 0,
    .monitorCrossing 12, .heartbeat 4, .coreWatchdogExpiry 4, .nameplateWriteBack 128 0, .nameplateWriteBack 0 4,
    .npIdentityCheck 128 0 [], .npIdentityCheck 0 4 [], .flashScrub 0x2000 false false, .flashRewrite 512 false, .supplyEvt 7 false,
    .encoderEdge 16 (false, false) 0, .adcConversion 32 0 false, .sharedSramAccess 0xc00000 [] 0 [], .canBusError 4 false false false,
    .safeTorqueOffInput 8 0 false, .safeTorqueOffInput 0 32 false, .powerStageFault 8 0 0, .powerStageFault 0 32 0, .powerStageFault 0 0 4] : List Instr).all (fun i => !i.wf) = true := by decide +kernel
theorem smoke_lengths :
  ([.qspiWrite 0 (List.replicate 257 0) false, .registerWrite 0 (List.replicate 9 0), .packetFetch 0 (List.replicate 513 0),
    .discoveryFrame 0 (List.replicate 33 (0, 0, 0, 0)) 0 false, .mirrorRecord 0 0 0 (List.replicate 513 0),
    .proxy 0 (.packet (List.replicate 513 0)), .switchSourceSample 0 0 (List.replicate 129 0), .periodRecord 0 0 (List.replicate 129 0) 0,
    .safeTelegramReceive 0 (List.replicate 33 0), .monitorSample (List.replicate 13 0), .npIdentityCheck 0 0 (List.replicate 257 0)] : List Instr).all (fun i => !i.wf) = true := by decide +kernel

/-! ### Witnesses, K -/

namespace K

/-- A device in READY with its host link and every unit present. -/
def up : State :=
  { State.reset with
    power := { State.reset.power with mode := .ready, phase := .idle, pcieUp := true, busMaster := true }
    regs := Map.set regReset State.reset.regs Reg.sysCapLive 0x3FFFFFF }
/-- Session 1 open in host memory, its next command being 5. -/
def opened (s : State) : State :=
  ((((s.setReg (Reg.cmdState 1) 0x0102).setReg (Reg.cmdNextSeq 1) 5).setReg (Reg.cmdAcceptedSeq 1) 4).setReg (Reg.cmdRetiredSeq 1) 4).setSes 1
    { opened := { cfg := 0x40041, sqBase := 0x1000, cqBase := 0x2000 } }
def rdy : State := opened up
def run : State := { rdy with power := { rdy.power with mode := .run } }
/-- The header of command 5 for a target. -/
def hd (t : BitVec 16) : Hdr := { ses := 1, seq := 5, target := t }
/-- A slot 3 of type 1 in a state. -/
def ax (a : Axis) (s : State) : State := { s.setAxis 3 a with params := Map.set paramUnlisted s.params (3 * 65536) 1 }
def spec1 : StopRec := { kernel := 0x20, slot := 3, flags := 1, pred := 0xFFFF, deadline := 1000 }
def tabbed (s : State) : State := { s.setReg (Reg.ttbState 0) 2 with active := [(4, spec1)] }
def D : Hdr := hd 0xFFFF
def A : Hdr := hd 3
/-- Parameters of slot 3. -/
def par (l : List (Nat × BitVec 64)) (s : State) : State := l.foldl (fun s e => { s with params := Map.set paramUnlisted s.params (3 * 65536 + e.1) e.2 }) s
def lim (s : State) : State := par [(0x600, 1000), (0x601, 10000000), (0x603, 2000000000), (0x802, 1000), (0x803, 10000000), (0x804, 2000000000)] s
def en : State := lim (ax {state := .enabled, homed := true} run)
def word (n : Nat) : Bytes := leBytes 4 n
def half2 (n : Nat) : Bytes := leBytes 2 n
def pathS (s : State) : State := { tabbed s with active := [(4, { spec1 with kernel := 0x21 })] }
def grp (s : State) : State := pathS (s.setGroup 1 { members := [3] })
def camS (s : State) : State := { tabbed s with active := [(4, { spec1 with kernel := 0x22 })], camHdr := [(2, some ⟨2, 100, 50⟩)], camPoints := [(2 * 2048, some 0), (2 * 2048 + 1, some 50)] }
def acq (n : Nat) (s : State) : State := s.setReg Reg.acqState (w32 n)
def paird (ph : Nat) (s : State) : State := (((s.setReg Reg.pairCfg 1).setReg Reg.pairState (w32 ph)).setReg Reg.pairLink 1).onPair fun p => { p with partner := some { version := 1, sideB := true, id := 0, capLive := 0, capLiveX := 0, level := 0, ticks := 250, unlocked := false, timeOfs := 0, dev := 0, lside := [], inRun := false } }
def isl (n : Nat) (s : State) : State := s.onIsland fun i => { i with st := n }
def upd (u : Update) (s : State) : State := s.onInn fun i => { i with update := some u }
def plate : Bytes := let b := leBytes 4 0xB7A51E01 ++ [1] ++ zeros 119; b ++ leBytes 4 (crc32 b) ++ zeros 64
def plated (s : State) : State := s.onInn fun i => { i with plates := [(0x10002, plate)], wear := [(12 + 1, { state := 1, source := 1, np := 2 })] }
def stopB : Bytes := spec1.bytes
def comm (s : State) : State := s.onIsland fun i => { i with st := 3, working := blank }
def movS : State := par [(0x90A, 0)] (ax {state := .moving} run)
def movT : State := par [(0x90A, 1)] (ax {state := .moving} run)
def imgH : Bytes := leBytes 4 0xB7F10A6E ++ leBytes 4 1 ++ leBytes 4 0 ++ leBytes 4 24 ++ zeros 8
def headU : Update := {dest := 1, port := 2, station := 1, size := 24, received := 24, committed := true}
def headS : State := upd headU { (sramWrite rdy sramOwn imgH).2 with out := [] }
def datU : Update := {dest := 1, port := 2, station := 1, size := 100, received := 24}
def datS : State := upd datU rdy
def devU : Update := {size := 100, received := 100, committed := true}
def devS : State := upd devU rdy
def dat : Bytes := word 24 ++ leBytes 1 1
def tb : Map StopRec := [(0, spec1)]
def eng2 : Bytes := leBytes 1 2 ++ leBytes 1 0 ++ half2 5 ++ word 0
def acqB : Bytes := leBytes 1 0 ++ leBytes 1 1 ++ half2 5 ++ word 0 ++ leBytes 8 4096 ++ word 12 ++ word 0 ++ zeros 8 ++ word 1
def movX : Staged := { entry 0x401 A (leBytes 8 1000 ++ word 0) [3] en with eff := 0, seg := some {}, append := true }
def repX : Staged := { movX with append := false }

theorem commit_passes : Passes opSafeCommit 0x0E04 D blankCheck (comm rdy) := by
  have hc : Clear D blankCheck (comm rdy) := clear_of (by decide +kernel)
  have hw : (judged 0x0E04 D blankCheck (comm rdy)).island = (comm rdy).island := by rw [(clear_paths hc).1.rest]
  have hk : opSafeCommit.check (judged 0x0E04 D blankCheck (comm rdy)) { op := 0x0E04, hdr := D, payload := blankCheck } = none := by
    have e : (comm rdy).island.working = blank := rfl
    simp only [opSafeCommit]
    rw [hw, e, blank_error]
    have n : (decide (Packet.n { op := 0x0E04, hdr := D, payload := blankCheck } 0 4 ≠ imageCheck (imageBytes blank))) = false := by
      simp only [Packet.n, blankCheck_num, ne_eq, not_true_eq_false, decide_false]
    rw [n]
    unfold needOpen
    rw [hw]
    decide +kernel
  refine ⟨fun e => ?_, ?_, by decide +kernel⟩
  · exact absurd e (by decide)
  · unfold checkCommand
    rw [hk]
    decide +kernel


/-- The hypotheses of `Obligations.QueryCommands` are met. -/
theorem wit_QueryCommands :
    (∃ (h : Hdr) (p : Bytes) (s : State), Clear h p s ∧ h.flags = 0 ∧ p = [] ∧ (h.target.toNat < s.part.slots ∧ h.target.toNat < 128 ∨ 32768 ≤ h.target.toNat ∧ h.target.toNat < 32800 ∨ h.target = 65535))
    ∧ (∃ (h : Hdr) (p : Bytes) (s : State), Clear h p s ∧ h.flags = 0 ∧ h.target = 65535)
    ∧ (∃ (h : Hdr) (p : Bytes) (s : State), Clear h p s ∧ h.flags = 0 ∧ p = [] ∧ h.target = 65535)
    ∧ (∃ (h : Hdr) (s : State), Clear h [] s ∧ h.flags = 0 ∧ h.target = 65535)
    ∧ (∃ (h : Hdr) (s : State), Clear h [] s ∧ h.flags = 0 ∧ h.target = 65535 ∧ s.cap 4 = true)
    ∧ (∃ (h : Hdr) (p : Bytes) (s : State), Clear h p s ∧ Passes opGetParams 769 h p s)
    ∧ (∃ (h : Hdr) (p : Bytes) (s : State), Clear h p s ∧ Passes opAxisStatus 775 h p s)
    ∧ (∃ (h : Hdr) (p : Bytes) (s : State), Clear h p s ∧ Passes opTtRead 2052 h p s)
    ∧ (∃ (h : Hdr) (p : Bytes) (s : State), Clear h p s ∧ Passes opKernelCheck 2306 h p s)
    ∧ (∃ (h : Hdr) (p : Bytes) (s : State), Clear h p s ∧ Passes opKernelList 2307 h p s)
    ∧ (∃ (h : Hdr) (p : Bytes) (s : State), Clear h p s ∧ Passes opNpRead 4097 h p s)
    ∧ (∃ (h : Hdr) (p : Bytes) (s : State), Clear h p s ∧ Passes opWearRead 4099 h p s)
    ∧ (∃ (h : Hdr) (p : Bytes) (s : State), Clear h p s ∧ Passes opLedgerRead 3845 h p s)
    ∧ (∃ (h : Hdr) (p : Bytes) (s : State), Clear h p s ∧ Passes opSafeRead 3587 h p s) :=
  ⟨⟨A, [], rdy, clear_of (by decide +kernel), by decide +kernel⟩,
    ⟨D, ([1,0] ++ half2 4 ++ half2 1), rdy, clear_of (by decide +kernel), by decide +kernel⟩,
    ⟨D, [], rdy, clear_of (by decide +kernel), by decide +kernel⟩,
    ⟨D, rdy, clear_of (by decide +kernel), by decide +kernel⟩,
    ⟨D, rdy, clear_of (by decide +kernel), by decide +kernel⟩,
    ⟨A, (half2 1 ++ half2 0 ++ half2 0x100), rdy, clear_of (by decide +kernel), passes_of (by decide +kernel)⟩,
    ⟨A, [], rdy, clear_of (by decide +kernel), passes_of (by decide +kernel)⟩,
    ⟨D, ([1,0] ++ half2 4 ++ half2 1), rdy, clear_of (by decide +kernel), passes_of (by decide +kernel)⟩,
    ⟨D, (word 1 ++ word 0 ++ word 4 ++ word (crc32 (zeros 4))), rdy, clear_of (by decide +kernel), passes_of (by decide +kernel)⟩,
    ⟨D, (word 1), rdy, clear_of (by decide +kernel), passes_of (by decide +kernel)⟩,
    ⟨A, (word 1), (plated rdy), clear_of (by decide +kernel), passes_of (by decide +kernel)⟩,
    ⟨A, (word 1), (plated rdy), clear_of (by decide +kernel), passes_of (by decide +kernel)⟩,
    ⟨D, (word 0 ++ half2 1 ++ half2 0), rdy, clear_of (by decide +kernel), passes_of (by decide +kernel)⟩,
    ⟨D, (half2 58 ++ half2 4), (isl 3 rdy), clear_of (by decide +kernel), passes_of (by decide +kernel)⟩⟩

/-- The hypotheses of `Obligations.PairStatusReply` are met. -/
theorem wit_PairStatusReply :
    ∃ (h : Hdr) (s : State), Clear h [] s ∧ h.flags = 0 ∧ h.target = 65535 ∧ s.cap 2 = true :=
  ⟨D, rdy, clear_of (by decide +kernel), by decide +kernel⟩

/-- The hypotheses of `Obligations.HealthReply` are met. -/
theorem wit_HealthReply :
    ∃ (h : Hdr) (s : State), Clear h [] s ∧ h.flags = 0 ∧ h.target = 65535 :=
  ⟨D, rdy, clear_of (by decide +kernel), by decide +kernel⟩

/-- The hypotheses of `Obligations.RunCommands` are met. -/
theorem wit_RunCommands :
    (∃ (h : Hdr) (p : Bytes) (s : State), Clear h p s ∧ Passes opRunStart 514 h p s)
    ∧ (∃ (h : Hdr) (p : Bytes) (s : State), Clear h p s ∧ Passes opRunStop 515 h p s)
    ∧ (∃ (h : Hdr) (p : Bytes) (s : State), Clear h p s ∧ Passes opSetPeriod 516 h p s)
    ∧ (∃ (k : Nat) (x : Staged) (s : State), Ripe k x s ∧ x.pkt.op = 514 ∧ s.power.mode = Mode.ready ∧ s.someBuilt = true)
    ∧ (∃ (k : Nat) (x : Staged) (s : State) (n : Nat), Ripe k x s ∧ x.pkt.op = 514 ∧ s.power.mode = Mode.ready ∧ s.someBuilt = true ∧ n ∈ s.engines? ∧ bit (s.reg (Reg.ttbState n)) 0 = true)
    ∧ (∃ (k : Nat) (x : Staged) (s : State), Ripe k x s ∧ x.pkt.op = 515 ∧ s.running = true ∧ s.busyAxis = none)
    ∧ (∃ (k : Nat) (x : Staged) (s : State) (n : Nat), Ripe k x s ∧ x.pkt.op = 515 ∧ s.running = true ∧ s.busyAxis = none ∧ n < s.part.slots)
    ∧ (∃ (k : Nat) (x : Staged) (s : State) (n : Nat), Ripe k x s ∧ x.pkt.op = 515 ∧ s.running = true ∧ s.busyAxis = none ∧ n ∈ s.engines?)
    ∧ (∃ (k : Nat) (x : Staged) (s : State), Ripe k x s ∧ x.pkt.op = 516 ∧ s.power.mode = Mode.ready ∧ 250 ≤ x.pkt.payload.num 0 4 ∧ x.pkt.payload.num 0 4 ≤ 25000)
    ∧ (∃ (k : Nat) (x : Staged) (s : State) (n : Nat), Ripe k x s ∧ x.pkt.op = 516 ∧ s.power.mode = Mode.ready ∧ 250 ≤ x.pkt.payload.num 0 4 ∧ x.pkt.payload.num 0 4 ≤ 25000 ∧ n ∈ s.engines?) :=
  ⟨⟨D, [], (rdy.setReg (Reg.ttbState 0) 1), clear_of (by decide +kernel), passes_of (by decide +kernel)⟩,
    ⟨D, [], run, clear_of (by decide +kernel), passes_of (by decide +kernel)⟩,
    ⟨D, (word 300), rdy, clear_of (by decide +kernel), passes_of (by decide +kernel)⟩,
    ⟨5, {entry 0x202 D [] (slotsAt ((opSpec 0x202).getD opNop) 0x202 D [] ((rdy.setReg (Reg.ttbState 0) 1))) ((rdy.setReg (Reg.ttbState 0) 1)) with eff := 0}, (rdy.setReg (Reg.ttbState 0) 1), ripe_of (by decide +kernel), by decide +kernel⟩,
    ⟨5, ({entry 0x202 D [] [] (rdy.setReg (Reg.ttbState 0) 1) with eff := 0} : Staged), (rdy.setReg (Reg.ttbState 0) 1), (0 : Nat), ripe_of (by decide +kernel), by decide +kernel⟩,
    ⟨5, {entry 0x203 D [] (slotsAt ((opSpec 0x203).getD opNop) 0x203 D [] (run)) (run) with eff := 0}, run, ripe_of (by decide +kernel), by decide +kernel⟩,
    ⟨5, {entry 0x203 D [] (slotsAt ((opSpec 0x203).getD opNop) 0x203 D [] (run)) (run) with eff := 0}, run, 3, ripe_of (by decide +kernel), by decide +kernel⟩,
    ⟨5, {entry 0x203 D [] (slotsAt ((opSpec 0x203).getD opNop) 0x203 D [] (run)) (run) with eff := 0}, run, 3, ripe_of (by decide +kernel), by decide +kernel⟩,
    ⟨5, {entry 0x204 D (word 300) (slotsAt ((opSpec 0x204).getD opNop) 0x204 D (word 300) (rdy)) (rdy) with eff := 0}, rdy, ripe_of (by decide +kernel), by decide +kernel⟩,
    ⟨5, {entry 0x204 D (word 300) (slotsAt ((opSpec 0x204).getD opNop) 0x204 D (word 300) (rdy)) (rdy) with eff := 0}, rdy, 3, ripe_of (by decide +kernel), by decide +kernel⟩⟩

/-- The hypotheses of `Obligations.AxisSetupCommands` are met. -/
theorem wit_AxisSetupCommands :
    (∃ (h : Hdr) (p : Bytes) (s : State), Clear h p s ∧ Passes opSetParams 770 h p s)
    ∧ (∃ (h : Hdr) (p : Bytes) (s : State), Clear h p s ∧ Passes opDefaultParams 771 h p s)
    ∧ (∃ (k : Nat) (x : Staged) (s : State) (i : Nat) (v : BitVec 64), Ripe k x s ∧ (x.pkt.op = 770 ∨ x.pkt.op = 771) ∧ List.filter (fun e => e.fst == i) (paramWrites x.pkt) = [(i, v)])
    ∧ (∃ (h : Hdr) (p : Bytes) (s : State), Clear h p s ∧ Passes opEnable 772 h p s)
    ∧ (∃ (h : Hdr) (p : Bytes) (s : State), Clear h p s ∧ Passes opDisable 773 h p s)
    ∧ (∃ (h : Hdr) (p : Bytes) (s : State), Clear h p s ∧ Passes opClearFault 774 h p s)
    ∧ (∃ (k : Nat) (x : Staged) (s : State) (n : Nat), Ripe k x s ∧ x.pkt.op = 772 ∧ x.slots = [n] ∧ s.running = true ∧ (s.axis n).state = AxState.ready)
    ∧ (∃ (k : Nat) (x : Staged) (s : State) (n : Nat), Ripe k x s ∧ x.pkt.op = 774 ∧ x.slots = [n] ∧ s.clears n = true)
    ∧ (∃ (k : Nat) (x : Staged) (s : State) (n : Nat) (m : Nat), Ripe k x s ∧ x.pkt.op = 774 ∧ x.slots = [n] ∧ s.clears n = true ∧ m ≠ n)
    ∧ (∃ (k : Nat) (x : Staged) (s : State), Ripe k x s ∧ x.pkt.op = 773)
    ∧ (∃ (k : Nat) (x : Staged) (s : State) (n : Nat), Ripe k x s ∧ x.pkt.op = 773 ∧ x.slots = [n] ∧ s.groupOf n = none ∧ ((s.axis n).state = AxState.enabled ∨ (s.axis n).state = AxState.ready))
    ∧ (∃ (k : Nat) (x : Staged) (s : State) (n : Nat), Ripe k x s ∧ x.pkt.op = 773 ∧ x.slots = [n] ∧ s.groupOf n = none ∧ (s.axis n).state = AxState.moving) :=
  ⟨⟨A, (half2 1 ++ half2 0 ++ half2 0x901 ++ half2 0 ++ leBytes 8 5), rdy, clear_of (by decide +kernel), passes_of (by decide +kernel)⟩,
    ⟨A, (half2 0x900), rdy, clear_of (by decide +kernel), passes_of (by decide +kernel)⟩,
    ⟨5, {entry 0x302 A (half2 1 ++ half2 0 ++ half2 0x901 ++ half2 0 ++ leBytes 8 5) (slotsAt ((opSpec 0x302).getD opNop) 0x302 A (half2 1 ++ half2 0 ++ half2 0x901 ++ half2 0 ++ leBytes 8 5) (rdy)) (rdy) with eff := 0}, rdy, 0x901, (5 : BitVec 64), ripe_of (by decide +kernel), by decide +kernel⟩,
    ⟨A, [], (lim (ax {state := .ready} run)), clear_of (by decide +kernel), passes_of (by decide +kernel)⟩,
    ⟨A, [], (lim (ax {state := .ready} run)), clear_of (by decide +kernel), passes_of (by decide +kernel)⟩,
    ⟨A, [], (ax {state := .fault} run), clear_of (by decide +kernel), passes_of (by decide +kernel)⟩,
    ⟨5, {entry 0x304 A [] (slotsAt ((opSpec 0x304).getD opNop) 0x304 A [] ((lim (ax {state := .ready} run)))) ((lim (ax {state := .ready} run))) with eff := 0}, (lim (ax {state := .ready} run)), 3, ripe_of (by decide +kernel), by decide +kernel⟩,
    ⟨5, {entry 0x306 A [] (slotsAt ((opSpec 0x306).getD opNop) 0x306 A [] ((ax {state := .fault} run))) ((ax {state := .fault} run)) with eff := 0}, (ax {state := .fault} run), 3, ripe_of (by decide +kernel), by decide +kernel⟩,
    ⟨5, {entry 0x306 A [] (slotsAt ((opSpec 0x306).getD opNop) 0x306 A [] ((ax {state := .fault} run))) ((ax {state := .fault} run)) with eff := 0}, (ax {state := .fault} run), 3, 0x901, ripe_of (by decide +kernel), by decide +kernel⟩,
    ⟨5, {entry 0x305 A [] (slotsAt ((opSpec 0x305).getD opNop) 0x305 A [] (en)) (en) with eff := 0}, en, ripe_of (by decide +kernel), by decide +kernel⟩,
    ⟨5, {entry 0x305 A [] (slotsAt ((opSpec 0x305).getD opNop) 0x305 A [] (en)) (en) with eff := 0}, en, 3, ripe_of (by decide +kernel), by decide +kernel⟩,
    ⟨5, ({entry 0x305 A [] [3] (movS) with eff := 0} : Staged), movS, (3 : Nat), ripe_of (by decide +kernel), by decide +kernel⟩⟩

/-- The hypotheses of `Obligations.StopCommands` are met. -/
theorem wit_StopCommands :
    (∃ (h : Hdr) (p : Bytes) (s : State), Clear h p s ∧ Passes opHalt 1029 h p s)
    ∧ (∃ (h : Hdr) (p : Bytes) (s : State), Clear h p s ∧ Passes opQuickStop 1030 h p s)
    ∧ (∃ (h : Hdr) (p : Bytes) (s : State), Clear h p s ∧ Passes opFlush 1033 h p s)
    ∧ (∃ (h : Hdr) (p : Bytes) (s : State), Clear h p s ∧ h.target = 65535)
    ∧ (∃ (k : Nat) (x : Staged) (s : State), Ripe k x s ∧ x.pkt.op = 1030)
    ∧ (∃ (k : Nat) (x : Staged) (s : State), Ripe k x s ∧ x.pkt.op = 1033)
    ∧ (∃ (k : Nat) (x : Staged) (s : State), Ripe k x s ∧ x.pkt.op = 1029)
    ∧ (∃ (k : Nat) (x : Staged) (s : State) (n : Nat), Ripe k x s ∧ x.slots = [n] ∧ s.groupOf n = none ∧ x.pkt.op = 1029 ∧ ((s.axis n).state = AxState.enabled ∨ (s.axis n).state = AxState.moving))
    ∧ (∃ (k : Nat) (x : Staged) (s : State) (n : Nat), Ripe k x s ∧ x.slots = [n] ∧ s.groupOf n = none ∧ x.pkt.op = 1030 ∧ ((s.axis n).state = AxState.enabled ∨ (s.axis n).state = AxState.moving))
    ∧ (∃ (k : Nat) (x : Staged) (s : State) (n : Nat), Ripe k x s ∧ x.slots = [n] ∧ s.groupOf n = none ∧ x.pkt.op = 1033) :=
  ⟨⟨A, [], en, clear_of (by decide +kernel), passes_of (by decide +kernel)⟩,
    ⟨A, [], en, clear_of (by decide +kernel), passes_of (by decide +kernel)⟩,
    ⟨A, [], en, clear_of (by decide +kernel), passes_of (by decide +kernel)⟩,
    ⟨D, [], en, clear_of (by decide +kernel), by decide +kernel⟩,
    ⟨5, {entry 0x406 A [] (slotsAt ((opSpec 0x406).getD opNop) 0x406 A [] (en)) (en) with eff := 0}, en, ripe_of (by decide +kernel), by decide +kernel⟩,
    ⟨5, {entry 0x409 A [] (slotsAt ((opSpec 0x409).getD opNop) 0x409 A [] (en)) (en) with eff := 0}, en, ripe_of (by decide +kernel), by decide +kernel⟩,
    ⟨5, {entry 0x405 A [] (slotsAt ((opSpec 0x405).getD opNop) 0x405 A [] (en)) (en) with eff := 0}, en, ripe_of (by decide +kernel), by decide +kernel⟩,
    ⟨5, {entry 0x405 A [] (slotsAt ((opSpec 0x405).getD opNop) 0x405 A [] (en)) (en) with eff := 0}, en, 3, ripe_of (by decide +kernel), by decide +kernel⟩,
    ⟨5, {entry 0x406 A [] (slotsAt ((opSpec 0x406).getD opNop) 0x406 A [] (en)) (en) with eff := 0}, en, 3, ripe_of (by decide +kernel), by decide +kernel⟩,
    ⟨5, {entry 0x409 A [] (slotsAt ((opSpec 0x409).getD opNop) 0x409 A [] (en)) (en) with eff := 0}, en, 3, ripe_of (by decide +kernel), by decide +kernel⟩⟩

/-- The hypotheses of `Obligations.PathCommands` are met. -/
theorem wit_PathCommands :
    (∃ (h : Hdr) (p : Bytes) (s : State), Clear h p s ∧ Passes opGroupDefine 1031 h p s)
    ∧ (∃ (h : Hdr) (p : Bytes) (s : State), Clear h p s ∧ Passes opPathSegment 1032 h p s)
    ∧ (∃ (k : Nat) (x : Staged) (s : State), Ripe k x s ∧ x.pkt.op = 1031 ∧ (∀ (n : Nat), n ∈ x.slots → s.axOff n = true))
    ∧ (∃ (k : Nat) (x : Staged) (s : State) (g : Nat), Ripe k x s ∧ x.pkt.op = 1031 ∧ (∀ (n : Nat), n ∈ x.slots → s.axOff n = true) ∧ g ≠ x.pkt.groupNo)
    ∧ (∃ (k : Nat) (x : Staged) (s : State) (n : Nat), Ripe k x s ∧ x.pkt.op = 1031 ∧ (∀ (n : Nat), n ∈ x.slots → s.axOff n = true) ∧ (∀ (n : Nat), n ∈ x.slots → n < s.part.slots) ∧ n ∈ x.slots)
    ∧ (∃ (k : Nat) (x : Staged) (s : State), Ripe k x s ∧ x.pkt.op = 1032 ∧ x.slots ≠ [] ∧ (∀ (n : Nat), n ∈ x.slots → s.moves n = true))
    ∧ (∃ (k : Nat) (x : Staged) (s : State) (n : Nat), Ripe k x s ∧ x.pkt.op = 1032 ∧ x.slots ≠ [] ∧ (∀ (n : Nat), n ∈ x.slots → s.moves n = true) ∧ n ∈ (s.group x.pkt.groupNo).members ∧ (s.axis n).state = AxState.enabled)
    ∧ (∃ (i : Instr) (op : Nat) (h : Hdr) (p : Bytes) (o : OpSpec) (s : State) (n : Nat), Clear h p s ∧ (i = Instr.moveAbs h p ∧ op = 1025 ∧ o = opMove ∨ i = Instr.moveRel h p ∧ op = 1026 ∧ o = opMove ∨ i = Instr.moveVel h p ∧ op = 1027 ∧ o = opMove ∨ i = Instr.stream h p ∧ op = 1028 ∧ o = opStream ∨ i = Instr.vmasterSet h p ∧ op = 1287 ∧ o = opVmaster) ∧ Passes o op h p s ∧ (finished op h p s).moveSlots { op := op, hdr := h, payload := p } = [n])
    ∧ (∃ (k : Nat) (x : Staged) (q : Seg) (s : State) (n : Nat), Ripe k x s ∧ x.pkt.op ∈ [1025, 1026, 1027, 1028, 1287] ∧ x.slots = [n] ∧ x.seg = some q ∧ s.takesMove n = true ∧ x.append = true ∧ s.held n x = false)
    ∧ (∃ (k : Nat) (x : Staged) (q : Seg) (s : State) (n : Nat), Ripe k x s ∧ x.pkt.op ∈ [1025, 1026, 1027, 1028, 1287] ∧ x.slots = [n] ∧ x.seg = some q ∧ s.takesMove n = true ∧ x.append = false ∧ x ∈ s.staged) :=
  ⟨⟨(hd 0x8001), (leBytes 16 0x8), (pathS rdy), clear_of (by decide +kernel), passes_of (by decide +kernel)⟩,
    ⟨(hd 0x8001), (zeros 32 ++ leBytes 8 500), (grp en), clear_of (by decide +kernel), passes_of (by decide +kernel)⟩,
    ⟨5, {entry 0x407 (hd 0x8001) (leBytes 16 0x8) (slotsAt ((opSpec 0x407).getD opNop) 0x407 (hd 0x8001) (leBytes 16 0x8) ((pathS rdy))) ((pathS rdy)) with eff := 0}, (pathS rdy), ripe_of (by decide +kernel), by decide +kernel⟩,
    ⟨5, {entry 0x407 (hd 0x8001) (leBytes 16 0x8) (slotsAt ((opSpec 0x407).getD opNop) 0x407 (hd 0x8001) (leBytes 16 0x8) ((pathS rdy))) ((pathS rdy)) with eff := 0}, (pathS rdy), 3, ripe_of (by decide +kernel), by decide +kernel⟩,
    ⟨5, {entry 0x407 (hd 0x8001) (leBytes 16 0x8) (slotsAt ((opSpec 0x407).getD opNop) 0x407 (hd 0x8001) (leBytes 16 0x8) ((pathS rdy))) ((pathS rdy)) with eff := 0}, (pathS rdy), 3, ripe_of (by decide +kernel), by decide +kernel⟩,
    ⟨5, {entry 0x408 (hd 0x8001) (zeros 32 ++ leBytes 8 500) (slotsAt ((opSpec 0x408).getD opNop) 0x408 (hd 0x8001) (zeros 32 ++ leBytes 8 500) ((grp en))) ((grp en)) with eff := 0}, (grp en), ripe_of (by decide +kernel), by decide +kernel⟩,
    ⟨5, {entry 0x408 (hd 0x8001) (zeros 32 ++ leBytes 8 500) (slotsAt ((opSpec 0x408).getD opNop) 0x408 (hd 0x8001) (zeros 32 ++ leBytes 8 500) ((grp en))) ((grp en)) with eff := 0}, (grp en), 3, ripe_of (by decide +kernel), by decide +kernel⟩,
    ⟨.moveAbs A (leBytes 8 1000 ++ word 0), 0x401, A, (leBytes 8 1000 ++ word 0), opMove, en, 3, clear_of (by decide +kernel), Or.inl ⟨rfl, rfl, rfl⟩, passes_of (by decide +kernel), by decide +kernel⟩,
    ⟨5, movX, {}, en, 3, ripe_of (by decide +kernel), by decide +kernel⟩,
    ⟨5, repX, {}, {en with staged := [repX]}, 3, ripe_of (by decide +kernel), by decide +kernel⟩⟩

/-- The hypotheses of `Obligations.GearCommands` are met. -/
theorem wit_GearCommands :
    (∃ (h : Hdr) (p : Bytes) (s : State), Clear h p s ∧ Passes opLink 1281 h p s)
    ∧ (∃ (h : Hdr) (p : Bytes) (s : State), Clear h p s ∧ Passes opRatio 1282 h p s)
    ∧ (∃ (h : Hdr) (p : Bytes) (s : State), Clear h p s ∧ Passes (opUnlink 1 1281) 1283 h p s)
    ∧ (∃ (k : Nat) (x : Staged) (s : State), Ripe k x s ∧ x.pkt.op = 1281 ∧ s.follows x.pkt.hdr.target.toNat = true)
    ∧ (∃ (k : Nat) (x : Staged) (s : State), Ripe k x s ∧ x.pkt.op = 1282 ∧ (s.axis x.pkt.hdr.target.toNat).gear.kind = 1)
    ∧ (∃ (k : Nat) (x : Staged) (s : State), Ripe k x s ∧ x.pkt.op = 1283 ∧ (s.axis x.pkt.hdr.target.toNat).gear.kind = 1)
    ∧ (∃ (h : Hdr) (p : Bytes) (s : State), Clear h p s ∧ Passes opCamLoad 1284 h p s)
    ∧ (∃ (h : Hdr) (p : Bytes) (s : State), Clear h p s ∧ Passes opCamEngage 1285 h p s)
    ∧ (∃ (h : Hdr) (p : Bytes) (s : State), Clear h p s ∧ Passes (opUnlink 2 1285) 1286 h p s)
    ∧ (∃ (k : Nat) (x : Staged) (s : State), Ripe k x s ∧ x.pkt.op = 1286 ∧ (s.axis x.slot).gear.kind = 2)
    ∧ (∃ (k : Nat) (x : Staged) (s : State), Ripe k x s ∧ x.pkt.op = 1285 ∧ s.follows x.slot = true ∧ x.copied < camN s x.pkt)
    ∧ (∃ (k : Nat) (x : Staged) (s : State), Ripe k x s ∧ x.pkt.op = 1285 ∧ s.follows x.slot = true ∧ camN s x.pkt ≤ x.copied) :=
  ⟨⟨A, (half2 5 ++ half2 0 ++ word 2 ++ word 3), en, clear_of (by decide +kernel), passes_of (by decide +kernel)⟩,
    ⟨A, (word 2 ++ word 3), (ax {state := .moving, gear := {kind := 1, master := 5, num := 1, den := 1}} run), clear_of (by decide +kernel), passes_of (by decide +kernel)⟩,
    ⟨A, [], (ax {state := .moving, gear := {kind := 1, master := 5, num := 1, den := 1}} run), clear_of (by decide +kernel), passes_of (by decide +kernel)⟩,
    ⟨5, {entry 0x501 A (half2 5 ++ half2 0 ++ word 2 ++ word 3) (slotsAt ((opSpec 0x501).getD opNop) 0x501 A (half2 5 ++ half2 0 ++ word 2 ++ word 3) (en)) (en) with eff := 0}, en, ripe_of (by decide +kernel), by decide +kernel⟩,
    ⟨5, {entry 0x502 A (word 2 ++ word 3) (slotsAt ((opSpec 0x502).getD opNop) 0x502 A (word 2 ++ word 3) ((ax {state := .moving, gear := {kind := 1, master := 5, num := 1, den := 1}} run))) ((ax {state := .moving, gear := {kind := 1, master := 5, num := 1, den := 1}} run)) with eff := 0}, (ax {state := .moving, gear := {kind := 1, master := 5, num := 1, den := 1}} run), ripe_of (by decide +kernel), by decide +kernel⟩,
    ⟨5, {entry 0x503 A [] (slotsAt ((opSpec 0x503).getD opNop) 0x503 A [] ((ax {state := .moving, gear := {kind := 1, master := 5, num := 1, den := 1}} run))) ((ax {state := .moving, gear := {kind := 1, master := 5, num := 1, den := 1}} run)) with eff := 0}, (ax {state := .moving, gear := {kind := 1, master := 5, num := 1, den := 1}} run), ripe_of (by decide +kernel), by decide +kernel⟩,
    ⟨D, (word 2 ++ word 0xFFFFFFFF ++ word 2 ++ word 100 ++ leBytes 8 50), rdy, clear_of (by decide +kernel), passes_of (by decide +kernel)⟩,
    ⟨A, ([2,0] ++ half2 5 ++ word 0), (camS en), clear_of (by decide +kernel), passes_of (by decide +kernel)⟩,
    ⟨A, [], (ax {state := .moving, gear := {kind := 2, master := 5, num := 1, den := 1}} run), clear_of (by decide +kernel), passes_of (by decide +kernel)⟩,
    ⟨5, {entry 0x506 A [] (slotsAt ((opSpec 0x506).getD opNop) 0x506 A [] ((ax {state := .moving, gear := {kind := 2, master := 5, num := 1, den := 1}} run))) ((ax {state := .moving, gear := {kind := 2, master := 5, num := 1, den := 1}} run)) with eff := 0}, (ax {state := .moving, gear := {kind := 2, master := 5, num := 1, den := 1}} run), ripe_of (by decide +kernel), by decide +kernel⟩,
    ⟨5, {entry 0x505 A ([2,0] ++ half2 5 ++ word 0) (slotsAt ((opSpec 0x505).getD opNop) 0x505 A ([2,0] ++ half2 5 ++ word 0) ((camS en))) ((camS en)) with eff := 0}, (camS en), ripe_of (by decide +kernel), by decide +kernel⟩,
    ⟨5, ({entry 0x505 A eng2 [3] (camS en) with eff := 0, copied := 2, camAt := 7} : Staged), (camS en), ripe_of (by decide +kernel), by decide +kernel⟩⟩

/-- The hypotheses of `Obligations.HomingAndLatchCommands` are met. -/
theorem wit_HomingAndLatchCommands :
    (∃ (h : Hdr) (p : Bytes) (s : State), Clear h p s ∧ Passes opHomeStart 1537 h p s)
    ∧ (∃ (h : Hdr) (p : Bytes) (s : State), Clear h p s ∧ Passes opHomeSet 1538 h p s)
    ∧ (∃ (h : Hdr) (p : Bytes) (s : State), Clear h p s ∧ Passes opHomeAbort 1539 h p s)
    ∧ (∃ (k : Nat) (x : Staged) (s : State), Ripe k x s ∧ x.pkt.op = 1537 ∧ s.follows x.slot = true)
    ∧ (∃ (k : Nat) (x : Staged) (s : State), Ripe k x s ∧ x.pkt.op = 1538 ∧ s.homeable x.slot = true)
    ∧ (∃ (k : Nat) (x : Staged) (s : State), Ripe k x s ∧ x.pkt.op = 1539 ∧ (s.axis x.slot).homing.outcome ≠ 1)
    ∧ (∃ (k : Nat) (x : Staged) (s : State), Ripe k x s ∧ x.pkt.op = 1539 ∧ (s.axis x.slot).homing.outcome = 1)
    ∧ (∃ (h : Hdr) (p : Bytes) (s : State), Clear h p s ∧ Passes opLatchArm 1793 h p s)
    ∧ (∃ (h : Hdr) (p : Bytes) (s : State), Clear h p s ∧ Passes opLatchDisarm 1794 h p s)
    ∧ (∃ (h : Hdr) (p : Bytes) (s : State), Clear h p s ∧ Passes opLatchRead 1795 h p s)
    ∧ (∃ (h : Hdr) (p : Bytes) (s : State), Clear h p s ∧ Passes opRegister 1796 h p s)
    ∧ (∃ (k : Nat) (x : Staged) (s : State), Ripe k x s ∧ x.pkt.op = 1793 ∧ ((s.latch (x.pkt.payload.num 0 1)).slot = none ∨ (s.latch (x.pkt.payload.num 0 1)).slot = some x.slot))
    ∧ (∃ (k : Nat) (x : Staged) (s : State), Ripe k x s ∧ x.pkt.op = 1794)
    ∧ (∃ (k : Nat) (x : Staged) (s : State), Ripe k x s ∧ x.pkt.op = 1796 ∧ (s.axis x.slot).state.on = true ∧ s.boundElse x.slot (x.pkt.payload.num 0 1) = false ∧ x.pkt.payload.num 1 1 / 2 % 2 = 1)
    ∧ (∃ (k : Nat) (x : Staged) (s : State) (j : Nat), Ripe k x s ∧ j ≠ x.pkt.payload.num 0 1 ∧ (x.pkt.op = 1793 ∨ x.pkt.op = 1794)) :=
  ⟨⟨A, [5,0,0,0], en, clear_of (by decide +kernel), passes_of (by decide +kernel)⟩,
    ⟨A, (leBytes 8 7), en, clear_of (by decide +kernel), passes_of (by decide +kernel)⟩,
    ⟨A, [], en, clear_of (by decide +kernel), passes_of (by decide +kernel)⟩,
    ⟨5, {entry 0x601 A [5,0,0,0] (slotsAt ((opSpec 0x601).getD opNop) 0x601 A [5,0,0,0] (en)) (en) with eff := 0}, en, ripe_of (by decide +kernel), by decide +kernel⟩,
    ⟨5, {entry 0x602 A (leBytes 8 7) (slotsAt ((opSpec 0x602).getD opNop) 0x602 A (leBytes 8 7) (en)) (en) with eff := 0}, en, ripe_of (by decide +kernel), by decide +kernel⟩,
    ⟨5, {entry 0x603 A [] (slotsAt ((opSpec 0x603).getD opNop) 0x603 A [] (en)) (en) with eff := 0}, en, ripe_of (by decide +kernel), by decide +kernel⟩,
    ⟨5, {entry 0x603 A [] (slotsAt ((opSpec 0x603).getD opNop) 0x603 A [] ((ax {state := .moving, homing := {outcome := 1}} run))) ((ax {state := .moving, homing := {outcome := 1}} run)) with eff := 0}, (ax {state := .moving, homing := {outcome := 1}} run), ripe_of (by decide +kernel), by decide +kernel⟩,
    ⟨A, ([2, 3, 0, 0] ++ zeros 16), rdy, clear_of (by decide +kernel), passes_of (by decide +kernel)⟩,
    ⟨A, [5,0,0,0], en, clear_of (by decide +kernel), passes_of (by decide +kernel)⟩,
    ⟨A, ([2, 1, 0, 0]), rdy, clear_of (by decide +kernel), passes_of (by decide +kernel)⟩,
    ⟨A, ([2, 2, 0, 0]), ((par [(0x810, 3)] en).setLatch 2 {slot := some 3}), clear_of (by decide +kernel), passes_of (by decide +kernel)⟩,
    ⟨5, {entry 0x701 A ([2, 3, 0, 0] ++ zeros 16) (slotsAt ((opSpec 0x701).getD opNop) 0x701 A ([2, 3, 0, 0] ++ zeros 16) (rdy)) (rdy) with eff := 0}, rdy, ripe_of (by decide +kernel), by decide +kernel⟩,
    ⟨5, {entry 0x702 A ([2, 0, 0, 0]) (slotsAt ((opSpec 0x702).getD opNop) 0x702 A ([2, 0, 0, 0]) (rdy)) (rdy) with eff := 0}, rdy, ripe_of (by decide +kernel), by decide +kernel⟩,
    ⟨5, {entry 0x704 A ([2, 2, 0, 0]) (slotsAt ((opSpec 0x704).getD opNop) 0x704 A ([2, 2, 0, 0]) (((par [(0x810, 3)] en).setLatch 2 {slot := some 3}))) (((par [(0x810, 3)] en).setLatch 2 {slot := some 3})) with eff := 0}, ((par [(0x810, 3)] en).setLatch 2 {slot := some 3}), ripe_of (by decide +kernel), by decide +kernel⟩,
    ⟨5, {entry 0x701 A ([2, 3, 0, 0] ++ zeros 16) (slotsAt ((opSpec 0x701).getD opNop) 0x701 A ([2, 3, 0, 0] ++ zeros 16) (rdy)) (rdy) with eff := 0}, rdy, 3, ripe_of (by decide +kernel), by decide +kernel⟩⟩

/-- The hypotheses of `Obligations.TimetableCommands` are met. -/
theorem wit_TimetableCommands :
    (∃ (h : Hdr) (p : Bytes) (s : State), Clear h p s ∧ Passes opTtWrite 2049 h p s)
    ∧ (∃ (h : Hdr) (p : Bytes) (s : State), Clear h p s ∧ Passes opTtClear 2050 h p s)
    ∧ (∃ (h : Hdr) (p : Bytes) (s : State), Clear h p s ∧ Passes opKernelLoad 2305 h p s)
    ∧ (∃ (h : Hdr) (p : Bytes) (s : State), Clear h p s ∧ Passes opBuild 2051 h p s ∧ (ranAt opBuild 2051 h p s).reply.status ≠ 0)
    ∧ (∃ (h : Hdr) (p : Bytes) (s : State), Clear h p s ∧ Passes opBuild 2051 h p s ∧ (ranAt opBuild 2051 h p s).reply.status = 0)
    ∧ (∃ (k : Nat) (x : Staged) (s : State), Ripe k x s ∧ x.pkt.op = 2051)
    ∧ (∃ (k : Nat) (x : Staged) (s : State) (u : Nat × Nat × Map StopRec), Ripe k x s ∧ x.pkt.op = 2051 ∧ u ∈ x.tables) :=
  ⟨⟨D, ([1,0] ++ half2 4 ++ half2 1 ++ half2 0 ++ stopB), rdy, clear_of (by decide +kernel), passes_of (by decide +kernel)⟩,
    ⟨D, ([1,0,0,0]), rdy, clear_of (by decide +kernel), passes_of (by decide +kernel)⟩,
    ⟨D, (word 1 ++ word 16 ++ [7]), rdy, clear_of (by decide +kernel), passes_of (by decide +kernel)⟩,
    ⟨D, (word 1), (tabbed {rdy with shadow := [(4, spec1)]}), clear_of (by decide +kernel), passes_of (by decide +kernel), by decide +kernel⟩,
    ⟨D, ([1,0,0,0]), rdy, clear_of (by decide +kernel), passes_of (by decide +kernel), by decide +kernel⟩,
    ⟨5, {entry 0x803 D (word 1) (slotsAt ((opSpec 0x803).getD opNop) 0x803 D (word 1) (rdy)) (rdy) with eff := 0}, rdy, ripe_of (by decide +kernel), by decide +kernel⟩,
    ⟨5, ({entry 0x803 D (word 1) [] (tabbed rdy) with eff := 0, tables := [(0, 40, tb)]} : Staged), (tabbed rdy), ((0, 40, tb) : Nat × Nat × Map StopRec), ripe_of (by decide +kernel), by decide +kernel⟩⟩

/-- The hypotheses of `Obligations.UnitAndTimeCommands` are met. -/
theorem wit_UnitAndTimeCommands :
    (∃ (h : Hdr) (p : Bytes) (s : State), Clear h p s ∧ Passes opFioSet 2817 h p s)
    ∧ (∃ (h : Hdr) (p : Bytes) (s : State), Clear h p s ∧ Passes opFioConfig 2819 h p s)
    ∧ (∃ (h : Hdr) (p : Bytes) (s : State), Clear h p s ∧ Passes opShaftConfig 1288 h p s)
    ∧ (∃ (k : Nat) (x : Staged) (s : State) (i : Nat), Ripe k x s ∧ x.pkt.op = 2817 ∧ i < 16)
    ∧ (∃ (k : Nat) (x : Staged) (s : State) (a : Nat), Ripe k x s ∧ x.pkt.op = 2817 ∧ a ≠ Reg.fioOutCmd)
    ∧ (∃ (k : Nat) (x : Staged) (s : State), Ripe k x s ∧ x.pkt.op = 2819)
    ∧ (∃ (k : Nat) (x : Staged) (s : State) (i : Nat), Ripe k x s ∧ x.pkt.op = 2819 ∧ i < 32)
    ∧ (∃ (k : Nat) (x : Staged) (s : State), Ripe k x s ∧ x.pkt.op = 1288 ∧ x.pkt.payload.num 0 1 < 4)
    ∧ (∃ (h : Hdr) (p : Bytes) (s : State), Clear h p s ∧ Passes opAcqConfig 2561 h p s ∧ p.num 0 1 = s.sideNo)
    ∧ (∃ (h : Hdr) (p : Bytes) (s : State), Clear h p s ∧ Passes opAcqStart 2562 h p s)
    ∧ (∃ (h : Hdr) (p : Bytes) (s : State), Clear h p s ∧ Passes opAcqStop 2563 h p s)
    ∧ (∃ (h : Hdr) (p : Bytes) (s : State), Clear h p s ∧ Passes opAcqMark 2564 h p s)
    ∧ (∃ (k : Nat) (x : Staged) (s : State), Ripe k x s ∧ x.pkt.op = 2562 ∧ s.acqConfigured = true)
    ∧ (∃ (k : Nat) (x : Staged) (s : State), Ripe k x s ∧ x.pkt.op = 2563 ∧ s.acqRunning = true)
    ∧ (∃ (k : Nat) (x : Staged) (s : State), Ripe k x s ∧ x.pkt.op = 2564 ∧ s.acqRunning = true)
    ∧ (∃ (h : Hdr) (p : Bytes) (s : State), Clear h p s ∧ Passes opTimeAlarm 3074 h p s)
    ∧ (∃ (h : Hdr) (p : Bytes) (s : State), Clear h p s ∧ Passes opTimeRestep 3075 h p s)
    ∧ (∃ (h : Hdr) (p : Bytes) (s : State), Clear h p s ∧ Passes opTimeConfig 3076 h p s) :=
  ⟨⟨D, (word 9), (acq 3 rdy), clear_of (by decide +kernel), passes_of (by decide +kernel)⟩,
    ⟨D, (word 5 ++ zeros 40), rdy, clear_of (by decide +kernel), passes_of (by decide +kernel)⟩,
    ⟨D, (word 2 ++ word (1 + 65536 + 2^20)), rdy, clear_of (by decide +kernel), passes_of (by decide +kernel)⟩,
    ⟨5, {entry 0xb01 D (half2 3 ++ half2 1) (slotsAt ((opSpec 0xb01).getD opNop) 0xb01 D (half2 3 ++ half2 1) (rdy)) (rdy) with eff := 0}, rdy, 3, ripe_of (by decide +kernel), by decide +kernel⟩,
    ⟨5, {entry 0xb01 D (half2 3 ++ half2 1) (slotsAt ((opSpec 0xb01).getD opNop) 0xb01 D (half2 3 ++ half2 1) (rdy)) (rdy) with eff := 0}, rdy, 3, ripe_of (by decide +kernel), by decide +kernel⟩,
    ⟨5, {entry 0xb03 D (word 5 ++ zeros 40) (slotsAt ((opSpec 0xb03).getD opNop) 0xb03 D (word 5 ++ zeros 40) (rdy)) (rdy) with eff := 0}, rdy, ripe_of (by decide +kernel), by decide +kernel⟩,
    ⟨5, {entry 0xb03 D (word 5 ++ zeros 40) (slotsAt ((opSpec 0xb03).getD opNop) 0xb03 D (word 5 ++ zeros 40) (rdy)) (rdy) with eff := 0}, rdy, 3, ripe_of (by decide +kernel), by decide +kernel⟩,
    ⟨5, {entry 0x508 D (word 2 ++ word (1 + 65536 + 2^20)) (slotsAt ((opSpec 0x508).getD opNop) 0x508 D (word 2 ++ word (1 + 65536 + 2^20)) (rdy)) (rdy) with eff := 0}, rdy, ripe_of (by decide +kernel), by decide +kernel⟩,
    ⟨D, ([0, 1] ++ half2 5 ++ word 0 ++ leBytes 8 4096 ++ word 12 ++ word 0 ++ zeros 8 ++ word 1), rdy, clear_of (by decide +kernel), passes_of (by decide +kernel), by decide +kernel⟩,
    ⟨D, [], (acq 1 rdy), clear_of (by decide +kernel), passes_of (by decide +kernel)⟩,
    ⟨D, [], (acq 1 rdy), clear_of (by decide +kernel), passes_of (by decide +kernel)⟩,
    ⟨D, (word 9), (acq 3 rdy), clear_of (by decide +kernel), passes_of (by decide +kernel)⟩,
    ⟨5, {entry 0xa02 D [] (slotsAt ((opSpec 0xa02).getD opNop) 0xa02 D [] ((acq 1 rdy))) ((acq 1 rdy)) with eff := 0}, (acq 1 rdy), ripe_of (by decide +kernel), by decide +kernel⟩,
    ⟨5, {entry 0xa03 D [] (slotsAt ((opSpec 0xa03).getD opNop) 0xa03 D [] ((acq 3 rdy))) ((acq 3 rdy)) with eff := 0}, (acq 3 rdy), ripe_of (by decide +kernel), by decide +kernel⟩,
    ⟨5, {entry 0xa04 D (word 9) (slotsAt ((opSpec 0xa04).getD opNop) 0xa04 D (word 9) ((acq 3 rdy))) ((acq 3 rdy)) with eff := 0}, (acq 3 rdy), ripe_of (by decide +kernel), by decide +kernel⟩,
    ⟨D, (half2 0 ++ half2 0 ++ word 100 ++ word 5), rdy, clear_of (by decide +kernel), passes_of (by decide +kernel)⟩,
    ⟨D, [], (acq 1 rdy), clear_of (by decide +kernel), passes_of (by decide +kernel)⟩,
    ⟨D, (zeros 56), rdy, clear_of (by decide +kernel), passes_of (by decide +kernel)⟩⟩

/-- The hypotheses of `Obligations.PairCommands` are met. -/
theorem wit_PairCommands :
    (∃ (h : Hdr) (p : Bytes) (s : State), Clear h p s ∧ Passes opPairRelease 3331 h p s)
    ∧ (∃ (h : Hdr) (p : Bytes) (s : State), Clear h p s ∧ Passes opPairResync 3332 h p s)
    ∧ (∃ (s : State), (s.active? = false ∨ s.pairPhase ≠ 2))
    ∧ (∃ (k : Nat) (x : Staged) (s : State), Ripe k x s ∧ x.pkt.op = 3331 ∧ s.withPartner = true)
    ∧ (∃ (h : Hdr) (s : State), s.mayFetch h.ses = true ∧ s.inStep = true ∧ h.seq = s.reg (Reg.cmdNextSeq h.ses) ∧ h.dep = false ∧ (s.ses h.ses).flights = [] ∧ (∀ (r : StoredReply), r ∈ (s.ses h.ses).replies → r.due = false))
    ∧ (∃ (s : State), s.inStep = true) :=
  ⟨⟨D, [], (paird 5 rdy), clear_of (by decide +kernel), passes_of (by decide +kernel)⟩,
    ⟨D, [], (paird 5 rdy), clear_of (by decide +kernel), passes_of (by decide +kernel)⟩,
    ⟨(paird 9 rdy), by decide +kernel⟩,
    ⟨5, {entry 0xd03 D [] (slotsAt ((opSpec 0xd03).getD opNop) 0xd03 D [] ((paird 5 rdy))) ((paird 5 rdy)) with eff := 0}, (paird 5 rdy), ripe_of (by decide +kernel), by decide +kernel⟩,
    ⟨D, (paird 9 rdy), by decide +kernel⟩,
    ⟨(paird 9 rdy), by decide +kernel⟩⟩

/-- The hypotheses of `Obligations.SafetyCommands` are met. -/
theorem wit_SafetyCommands :
    (∃ (h : Hdr) (p : Bytes) (s : State), Clear h p s ∧ Passes opSafeOpen 3585 h p s ∧ s.island.lockout = 0 ∧ s.safeBusy = none ∧ p.num 0 4 = if s.island.valid = true then s.img 8 4 else 0)
    ∧ (∃ (h : Hdr) (p : Bytes) (s : State), Clear h p s ∧ Passes opSafeOpen 3585 h p s ∧ s.island.lockout = 0 ∧ s.island.fails < 3 ∧ p.num 0 4 ≠ if s.island.valid = true then s.img 8 4 else 0)
    ∧ (∃ (h : Hdr) (p : Bytes) (s : State), Clear h p s ∧ Passes opSafeWrite 3586 h p s)
    ∧ (∃ (h : Hdr) (p : Bytes) (s : State), Clear h p s ∧ Passes opSafeCommit 3588 h p s)
    ∧ (∃ (h : Hdr) (p : Bytes) (s : State), Clear h p s ∧ Passes opSafeClose 3589 h p s) :=
  ⟨⟨D, (word 0 ++ word 0), (isl 2 rdy), clear_of (by decide +kernel), passes_of (by decide +kernel), by decide +kernel⟩,
    ⟨D, (word 1 ++ word 0), (isl 2 rdy), clear_of (by decide +kernel), passes_of (by decide +kernel), by decide +kernel⟩,
    ⟨D, (half2 58 ++ half2 4 ++ [1,2,3,4]), (isl 3 rdy), clear_of (by decide +kernel), passes_of (by decide +kernel)⟩,
    ⟨D, blankCheck, comm rdy, clear_of (by decide +kernel), commit_passes⟩,
    ⟨D, [], (isl 3 rdy), clear_of (by decide +kernel), passes_of (by decide +kernel)⟩⟩

/-- The hypotheses of `Obligations.UpdateAndPlateCommands` are met. -/
theorem wit_UpdateAndPlateCommands :
    (∃ (h : Hdr) (p : Bytes) (s : State), Clear h p s ∧ s.paired = false ∧ Passes opUpdateBegin 3841 h p s)
    ∧ (∃ (h : Hdr) (p : Bytes) (s : State) (u : Update), Clear h p s ∧ s.paired = false ∧ Passes opUpdateData 3842 h p s ∧ s.inn.update = some u ∧ u.dest = 0)
    ∧ (∃ (h : Hdr) (p : Bytes) (s : State) (u : Update), Clear h p s ∧ s.paired = false ∧ Passes opUpdateCommit 3843 h p s ∧ s.inn.update = some u ∧ u.dest = 0)
    ∧ (∃ (h : Hdr) (p : Bytes) (s : State) (u : Update), Clear h p s ∧ s.paired = false ∧ Passes opUpdateData 3842 h p s ∧ s.inn.update = some u ∧ u.dest = 1)
    ∧ (∃ (h : Hdr) (p : Bytes) (s : State) (u : Update), Clear h p s ∧ s.paired = false ∧ Passes opUpdateCommit 3843 h p s ∧ s.inn.update = some u ∧ u.dest = 1 ∧ (sramRead (touchUnit 3843 s) sramOwn u.size).fst.snd = none ∧ imageStatus (touchUnit 3843 s) (sramRead (touchUnit 3843 s) sramOwn u.size).fst.fst = ST.ok)
    ∧ (∃ (h : Hdr) (p : Bytes) (s : State) (u : Update), Clear h p s ∧ s.paired = false ∧ Passes opUpdateActivate 3844 h p s ∧ s.inn.update = some u ∧ u.dest = 1)
    ∧ (∃ (h : Hdr) (s : State) (u : Update), Clear h [] s ∧ s.paired = false ∧ Passes opUpdateActivate 3844 h [] s ∧ s.inn.update = some u ∧ u.dest = 0)
    ∧ (∃ (h : Hdr) (p : Bytes) (s : State), Clear h p s ∧ Passes opNpBind 4098 h p s)
    ∧ (∃ (h : Hdr) (p : Bytes) (s : State), Clear h p s ∧ Passes opWearReplace 4100 h p s)
    ∧ (∃ (k : Nat) (x : Staged) (s : State), Ripe k x s ∧ x.pkt.op = 4098 ∧ x.pkt.n 3 1 = 1)
    ∧ (∃ (k : Nat) (x : Staged) (s : State), Ripe k x s ∧ x.pkt.op = 4098 ∧ x.pkt.n 3 1 ≠ 1 ∧ identityOk (s.plate (s.platePlace x.slot (x.pkt.n 1 1) (x.pkt.n 2 1))) = true)
    ∧ (∃ (k : Nat) (x : Staged) (s : State), Ripe k x s ∧ x.pkt.op = 4098 ∧ x.pkt.n 3 1 ≠ 1 ∧ identityOk (s.plate (s.platePlace x.slot (x.pkt.n 1 1) (x.pkt.n 2 1))) = false)
    ∧ (∃ (k : Nat) (x : Staged) (s : State), Ripe k x s ∧ x.pkt.op = 4100 ∧ s.axOff x.slot = true ∧ (s.wearOf x.slot (x.pkt.n 0 1)).state ≠ 0 ∧ identityOk (s.plate (s.platePlace x.slot (s.wearOf x.slot (x.pkt.n 0 1)).source (s.wearOf x.slot (x.pkt.n 0 1)).np)) = true) :=
  ⟨⟨D, ([0,0,0,0] ++ word 100), rdy, clear_of (by decide +kernel), by decide +kernel, passes_of (by decide +kernel)⟩,
    ⟨D, (word 0 ++ [1]), (upd {size := 100} rdy), ({size := 100} : Update), clear_of (by decide +kernel), by decide +kernel, passes_of (by decide +kernel), by decide +kernel⟩,
    ⟨D, [], (upd {size := 100, received := 100} rdy), ({size := 100, received := 100} : Update), clear_of (by decide +kernel), by decide +kernel, passes_of (by decide +kernel), by decide +kernel⟩,
    ⟨D, dat, datS, datU, clear_of (by decide +kernel), by decide +kernel, passes_of (by decide +kernel), by decide +kernel⟩,
    ⟨D, [], headS, headU, clear_of (by decide +kernel), by decide +kernel, passes_of (by decide +kernel), by decide +kernel⟩,
    ⟨D, [], headS, headU, clear_of (by decide +kernel), by decide +kernel, passes_of (by decide +kernel), by decide +kernel⟩,
    ⟨D, (upd {size := 100, received := 100, committed := true} rdy), (((upd {size := 100, received := 100, committed := true} rdy)).inn.update.getD {}), clear_of (by decide +kernel), by decide +kernel, passes_of (by decide +kernel), by decide +kernel⟩,
    ⟨A, ([1,1,2,0] ++ word 5), rdy, clear_of (by decide +kernel), passes_of (by decide +kernel)⟩,
    ⟨A, (word 1), (plated rdy), clear_of (by decide +kernel), passes_of (by decide +kernel)⟩,
    ⟨5, {entry 0x1002 A ([1,1,2,1] ++ word 5) (slotsAt ((opSpec 0x1002).getD opNop) 0x1002 A ([1,1,2,1] ++ word 5) ((plated rdy))) ((plated rdy)) with eff := 0}, (plated rdy), ripe_of (by decide +kernel), by decide +kernel⟩,
    ⟨5, {entry 0x1002 A ([1,1,2,0] ++ word 5) (slotsAt ((opSpec 0x1002).getD opNop) 0x1002 A ([1,1,2,0] ++ word 5) ((plated rdy))) ((plated rdy)) with eff := 0}, (plated rdy), ripe_of (by decide +kernel), by decide +kernel⟩,
    ⟨5, {entry 0x1002 A ([1,1,2,0] ++ word 5) (slotsAt ((opSpec 0x1002).getD opNop) 0x1002 A ([1,1,2,0] ++ word 5) (rdy)) (rdy) with eff := 0}, rdy, ripe_of (by decide +kernel), by decide +kernel⟩,
    ⟨5, {entry 0x1004 A (word 1) (slotsAt ((opSpec 0x1004).getD opNop) 0x1004 A (word 1) ((plated rdy))) ((plated rdy)) with eff := 0}, (plated rdy), ripe_of (by decide +kernel), by decide +kernel⟩⟩

end K

/-! ### Witnesses, M -/

namespace M

def up : State :=
  { State.reset with
    power := { State.reset.power with mode := .ready, phase := .idle, pcieUp := true, busMaster := true }
    regs := Map.set regReset State.reset.regs Reg.sysCapLive 0x3FFFFFF }
def run : State := { up with power := { up.power with mode := .run } }
def stdby : State := { up with power := { up.power with mode := .standby } }
def pw (g : Power → Power) (s : State) : State := s.onPower g
def sec : State := pw (fun p => { p with phase := .secondStage }) stdby
def boot (b : BitVec 14) (s : State) : State := pw (fun p => { p with straps := b }) s
def fwk : Machine.Task := { ses := 4 }
def rp (ph : Nat) (x : RingPort) (s : State) : State := (s.setReg (Reg.vlkState 0) (w32 ph)).setPort 0 x
def eng (s : State) : State := (s.setReg (Reg.ttbState 1) 2).onTmu fun t => { t with period := 9 }
def r0 : StopRec := { kernel := 1, slot := 0xFF, flags := 1, pred := 0xFFFF, deadline := 1000 }
def tab (r : StopRec) (s : State) : State := { eng s with active := [(512 + 4, r)] }
def ru : StopRec := { kernel := 1, slot := 0xFF, flags := 5, pred := 0xFFFF, earliest := 0, deadline := 1000, input := 0x22 }
def ur : StopRec := { kernel := 0x60, slot := 3, flags := 5, pred := 0xFFFF, earliest := 0, deadline := 1000, input := 0x22 }
def lat (s : State) : State := s.setLatch 2 { latest := some {} }
def ax (a : Axis) : State := { run.setAxis 3 a with params := [(3 * 65536, 1)] }
def par (l : List (Nat × BitVec 64)) (s : State) : State := l.foldl (fun s e => { s with params := Map.set paramUnlisted s.params (3 * 65536 + e.1) e.2 }) s
def chat : Switch := { recent := List.replicate 40 true }
def sh (s : State) : State := (s.setReg (Reg.chnShCfg 1) 0x00200001).setShaft 1 { misses := 5 }
def sta : Station := { channels := 2, west := 2, east := 2 }
def up4 : State := rp 4 { stations := [sta] } up
def hd (h : Head) : State := up4.setHead 0 { h with channels := 2 }
def isl (st : Nat) (img : List (Nat × Nat × Nat)) : State :=
  let m := img.foldl (fun m e => Map.setRun (fun _ => 0) m e.1 (leBytes e.2.1 e.2.2)) ([] : Map Byte)
  { up with island := { st := st, committed := m, valid := true } }
def noAx : List (Nat × Nat × Nat) := (List.range 32).map fun a => (0x40 + 48*a, 1, 0xFF)
def conn1 : State := (isl 2 (noAx ++ [(0x700+32*3, 1, 2), (0x700+32*3+10, 2, 4), (0x700+32*3+12, 1, 4)])).onIsland fun i => { i with conns := [(3, {age := 9, lost := false})] }
def fbs (c : FbkCh) : State := up.setFb 2 c
def q (b : Bool) : State := fbs { act := 1, a := b, rawA := b }
def crcOf (w p : Nat) : BitVec 6 := BitVec.ofNat 6 (63 - crc6 (bitsDown w p ++ [true, false]))
def ser (m : Word) (d : Bool) : State := (fbs { act := m + 25*1024, cur := { started := true, done := d } }).setReg (Reg.fbkChLineMax 2) 500
def late : State := (ser 2 false).onTmu fun t => { t with ns := t.ns + 10000000 }
def mtS : State := ((up.setReg (Reg.fbkMtCfg 2) 1).setMt 2 { seen := true }).setReg Reg.pwrClk 2
def adcS : State := up.setReg (Reg.adcInCfg 2) 1
def pwm (c : Word) (x : Pwm) : State := (up.setReg (Reg.pwmChCfg 3) c).setPw 3 x
def own : State := par [(0, 1), (4, 2), (8, 3)] (run.setAxis 3 { state := .enabled })
def fcan : CanFrame := ⟨5, false, false, false, false, false, 2, [1,2], 7⟩
def can (n : Nat) (v : Word) (x : CanCtl) (s : State) : State := ((s.setReg (Reg.canCfg 1) v).setReg (Reg.canState 1) (w32 n)).setCan 1 x
def filt (s : State) : State := s.setReg (Reg.canFiltId 1 0) 0x80000000
def det (s : State) : State := s.setReg (Reg.canDetNbt 1 0) 5
def idPlate (x : Nat) : Bytes :=
  let h := leBytes 4 0xB7A51E01 ++ leBytes 1 1 ++ zeros 35 ++ leBytes 1 x ++ zeros 83
  h ++ leBytes 4 (crc32 h) ++ zeros 64
def bound : State := up.setWear 0 1 { state := 1, ident := (idPlate 7).take 128 }
def plc (a : Nat) : Place := (decodeAddr a).getD ⟨0, 0, 0, false, none⟩
def rdf (a : Nat) : RegDef := (plc a).reg.getD ⟨0, 0, 0, .ro, 0, 0, 0, 0⟩
def sbk : State := ((up.setReg Reg.pairCfg 1).setReg Reg.pairState 8)
def gd : State := up.onBus fun b => { b with guard := [(1, some { inst := 0, off := (plc Reg.pwrReq).off, val := ~~~ 5 })] }
def qs : State := pw (fun p => {p with straps := 4}) up
def pr (s : State) : State := ((s.setReg Reg.pairCfg 1).setReg Reg.pairState (w32 2))
def prB (s : State) : State := ((s.setReg Reg.pairCfg 2).setReg Reg.pairState (w32 2))
def lk (s : State) : State := s.setReg Reg.pairLink 1
def prec (s : State) : PairingRec := { version := 1, sideB := !s.sideB, id := s.part.id, capLive := s.reg Reg.sysCapLive, capLiveX := s.reg Reg.sysCapLiveX, level := BitVec.ofNat 16 s.pairLevel, ticks := s.field Reg.tmuPeriod 15 0, unlocked := false, timeOfs := 0, dev := 0, lside := (List.range 4).map fun i => s.reg (Reg.pairLside i), inRun := false }
def ul (s : State) : State := s.setReg Reg.tmuState 1
def pq : State := lk (pr (ul up))
def rx (s : State) : State := s.setReg Reg.tmuCtrl 1
def m9 : PtpMsg := { port := 0, kind := 9, domain := 0, source := 77, portNo := 1, requester := (rx up).clockId, seqId := 5, twoStep := true, originNs := 10000, rxNs := 500, correction := 4, utcOfs := 37, utcValid := true }
def dl2 (t : Int) (s : State) : State := s.onTmu fun x => { x with gm := some 77, t1 := some t, t2 := some t, t3 := some t, armed := false, ns := 100000 }

/-- The hypotheses of `Obligations.RegisterAccesses` are met. -/
theorem wit_RegisterAccesses :
    (∃ (a : Nat) (p : Place) (r : RegDef) (s : State), s.serves = true ∧ a % 4 = 0 ∧ a < 4063232 ∧ decodeAddr a = some p ∧ p.compl = false ∧ p.reg = some r ∧ s.answers p.win p.inst = true ∧ r.acc = Acc.rw ∧ p.addr ≠ Reg.fioOutCmd ∧ p.win ∈ [1, 3, 5, 8, 9, 10, 14, 16, 17, 18, 19, 20, 22])
    ∧ (∃ (a : Nat) (p : Place) (r : RegDef) (s : State), s.serves = true ∧ a % 4 = 0 ∧ a < 4063232 ∧ decodeAddr a = some p ∧ p.compl = false ∧ p.reg = some r ∧ s.answers p.win p.inst = true ∧ r.acc = Acc.ro)
    ∧ (∃ (a : Nat) (p : Place) (r : RegDef) (s : State) (d : Bytes), s.serves = true ∧ a % 4 = 0 ∧ a < 4063232 ∧ decodeAddr a = some p ∧ p.compl = false ∧ p.reg = some r ∧ s.answers p.win p.inst = true ∧ r.acc = Acc.rw ∧ p.addr ≠ Reg.fioOutCmd ∧ p.win ∈ [1, 3, 5, 8, 9, 10, 14, 16, 17, 18, 19, 20, 22] ∧ (a + 4) / 65536 = p.win ∧ 1 ≤ List.length d ∧ List.length d ≤ 3)
    ∧ (∃ (a : Nat) (p : Place) (r : RegDef) (s : State) (b : Nat) (d : Bytes), s.serves = true ∧ a % 4 = 0 ∧ a < 4063232 ∧ decodeAddr a = some p ∧ p.compl = false ∧ p.reg = some r ∧ s.answers p.win p.inst = true ∧ b / 65536 = p.win ∧ (List.length d ≤ 4 ∨ List.length d = 8) ∧ (¬(List.length d = 4 ∧ b % 4 = 0)) ∧ (¬(List.length d = 8 ∧ b % 8 = 0)))
    ∧ (∃ (a : Nat) (p : Place) (r : RegDef) (s : State), s.serves = true ∧ a % 4 = 0 ∧ a < 4063232 ∧ decodeAddr a = some p ∧ p.compl = false ∧ p.reg = some r ∧ s.answers p.win p.inst = true ∧ r.acc = Acc.rc)
    ∧ (∃ (a : Nat) (p : Place) (r : RegDef) (s : State), s.serves = true ∧ a % 4 = 0 ∧ a < 4063232 ∧ decodeAddr a = some p ∧ p.compl = false ∧ p.reg = some r ∧ s.answers p.win p.inst = true ∧ (r.acc = Acc.ro ∨ r.acc = Acc.rw ∨ r.acc = Acc.gw) ∧ p.addr ≠ Reg.tmuNowNs ∧ notYetValid p.addr = false ∧ (p.addr = Reg.pwrClk → s.power.phase ≠ Phase.secondStage))
    ∧ (∃ (s : State), s.serves = false) :=
  ⟨⟨Reg.pwrWakeEn, plc Reg.pwrWakeEn, rdf Reg.pwrWakeEn, up, by decide +kernel⟩,
    ⟨Reg.sysId, plc Reg.sysId, rdf Reg.sysId, up, by decide +kernel⟩,
    ⟨Reg.pwrWakeEn, plc Reg.pwrWakeEn, rdf Reg.pwrWakeEn, up, ([1,2] : Bytes), by decide +kernel⟩,
    ⟨Reg.pwrWakeEn, plc Reg.pwrWakeEn, rdf Reg.pwrWakeEn, up, Reg.pwrWakeEn + 1, ([1,2] : Bytes), by decide +kernel⟩,
    ⟨Reg.sysStat, plc Reg.sysStat, rdf Reg.sysStat, up, by decide +kernel⟩,
    ⟨Reg.pwrWakeEn, plc Reg.pwrWakeEn, rdf Reg.pwrWakeEn, up, by decide +kernel⟩,
    ⟨pw (fun p => {p with mode := .dormant}) up, by decide +kernel⟩⟩

/-- The hypotheses of `Obligations.LatchedPairs` are met. -/
theorem wit_LatchedPairs :
    (∃ (a : Nat) (p : Place) (r : RegDef) (s : State), s.serves = true ∧ a % 4 = 0 ∧ decodeAddr a = some p ∧ p.compl = false ∧ p.reg = some r ∧ s.answers p.win p.inst = true ∧ r.acc = Acc.pairLo)
    ∧ (∃ (a : Nat) (p : Place) (r : RegDef) (s : State), s.serves = true ∧ a % 4 = 0 ∧ decodeAddr a = some p ∧ p.compl = false ∧ p.reg = some r ∧ s.answers p.win p.inst = true ∧ r.acc = Acc.pairHi)
    ∧ (∃ (a : Nat) (p : Place) (r : RegDef) (s : State), s.serves = true ∧ a % 4 = 0 ∧ decodeAddr a = some p ∧ p.compl = false ∧ p.reg = some r ∧ s.answers p.win p.inst = true ∧ (p.win = 2 → s.forwards = false) ∧ (p.win = 7 → firmwareCh (runOf p.addr 459008 32) = false) ∧ r.acc = Acc.pairLo)
    ∧ (∃ (a : Nat) (p : Place) (r : RegDef) (s : State), s.serves = true ∧ a % 4 = 0 ∧ decodeAddr a = some p ∧ p.compl = false ∧ p.reg = some r ∧ s.answers p.win p.inst = true ∧ (p.win = 2 → s.forwards = false) ∧ (p.win = 7 → firmwareCh (runOf p.addr 459008 32) = false) ∧ r.acc = Acc.pairHi)
    ∧ (∃ (a : Nat) (p : Place) (r : RegDef) (s : State), s.serves = true ∧ a % 4 = 0 ∧ decodeAddr a = some p ∧ p.compl = false ∧ p.reg = some r ∧ s.answers p.win p.inst = true ∧ p.win = 7 ∧ firmwareCh (runOf p.addr 459008 32) = true ∧ (r.acc = Acc.pairLo ∨ r.acc = Acc.pairHi))
    ∧ (∃ (a : Nat) (p : Place) (r : RegDef) (s : State), s.serves = true ∧ a % 4 = 0 ∧ decodeAddr a = some p ∧ p.compl = false ∧ p.reg = some r ∧ s.answers p.win p.inst = true ∧ p.win = 2 ∧ s.forwards = true ∧ r.acc = Acc.pairLo)
    ∧ (∃ (a : Nat) (p : Place) (r : RegDef) (s : State), s.serves = true ∧ a % 4 = 0 ∧ decodeAddr a = some p ∧ p.compl = false ∧ p.reg = some r ∧ s.answers p.win p.inst = true ∧ p.win = 2 ∧ s.forwards = true ∧ r.acc = Acc.pairHi) :=
  ⟨⟨Reg.cmdSqBaseLo 1, plc (Reg.cmdSqBaseLo 1), rdf (Reg.cmdSqBaseLo 1), up, by decide +kernel⟩,
    ⟨Reg.cmdSqBaseLo 1 + 4, plc (Reg.cmdSqBaseLo 1 + 4), rdf (Reg.cmdSqBaseLo 1 + 4), up, by decide +kernel⟩,
    ⟨Reg.cmdSqBaseLo 1, plc (Reg.cmdSqBaseLo 1), rdf (Reg.cmdSqBaseLo 1), up, by decide +kernel⟩,
    ⟨Reg.cmdSqBaseLo 1 + 4, plc (Reg.cmdSqBaseLo 1 + 4), rdf (Reg.cmdSqBaseLo 1 + 4), up, by decide +kernel⟩,
    ⟨Reg.dmaChHeadLo 25, plc (Reg.dmaChHeadLo 25), rdf (Reg.dmaChHeadLo 25), up, by decide +kernel⟩,
    ⟨Reg.cmdSqBaseLo 1, plc (Reg.cmdSqBaseLo 1), rdf (Reg.cmdSqBaseLo 1), sbk, by decide +kernel⟩,
    ⟨Reg.cmdSqBaseLo 1 + 4, plc (Reg.cmdSqBaseLo 1 + 4), rdf (Reg.cmdSqBaseLo 1 + 4), sbk, by decide +kernel⟩⟩

/-- The hypotheses of `Obligations.GuardedWrites` are met. -/
theorem wit_GuardedWrites :
    (∃ (a : Nat) (p : Place) (s : State) (r : RegDef), s.serves = true ∧ a % 4 = 0 ∧ a < 4063232 ∧ decodeAddr a = some p ∧ p.compl = false ∧ p.reg = some r ∧ r.acc = Acc.gw ∧ s.answers p.win p.inst = true)
    ∧ (∃ (a : Nat) (v : Word) (p : Place) (s : State), s.serves = true ∧ a % 4 = 0 ∧ a < 4063232 ∧ decodeAddr a = some p ∧ p.compl = true ∧ s.answers p.win p.inst = true ∧ Map.get (fun x => none) s.bus.guard p.win = some { inst := p.inst, off := p.off, val := ~~~v })
    ∧ (∃ (a : Nat) (v : Word) (p : Place) (s : State), s.serves = true ∧ a % 4 = 0 ∧ a < 4063232 ∧ decodeAddr a = some p ∧ p.compl = true ∧ Map.get (fun x => none) s.bus.guard p.win ≠ some { inst := p.inst, off := p.off, val := ~~~v })
    ∧ (∃ (a : Nat) (p : Place) (s : State), s.serves = true ∧ a % 4 = 0 ∧ a < 4063232 ∧ decodeAddr a = some p ∧ p.compl = true)
    ∧ (∃ (s : State), s.power.clockHold = true ∧ s.power.mainOk = true)
    ∧ (∃ (s : State), s.power.mainOk = false)
    ∧ (∃ (s : State), s.power.mainOk = true)
    ∧ (∃ (rails : BitVec 3) (s : State), rails ≠ 0 ∧ s.up = true)
    ∧ (∃ (s : State), s.serves = true)
    ∧ (∃ (n : Nat) (s : State), s.coreSilent n = true)
    ∧ (∃ (n : Nat) (s : State), s.up = true ∧ n < 3) :=
  ⟨⟨Reg.pwrReq, plc Reg.pwrReq, up, rdf Reg.pwrReq, by decide +kernel⟩,
    ⟨Reg.pwrReq + 0x800, 5, plc (Reg.pwrReq + 0x800), gd, by decide +kernel⟩,
    ⟨Reg.pwrReq + 0x800, 5, plc (Reg.pwrReq + 0x800), up, by decide +kernel⟩,
    ⟨Reg.pwrReq + 0x800, plc (Reg.pwrReq + 0x800), gd, by decide +kernel⟩,
    ⟨pw (fun p => {p with clockHold := true}) up, by decide +kernel⟩,
    ⟨pw (fun p => {p with mainOk := false}) up, by decide +kernel⟩,
    ⟨up, by decide +kernel⟩,
    ⟨1, up, by decide +kernel⟩,
    ⟨up, by decide +kernel⟩,
    ⟨0, up, by decide +kernel⟩,
    ⟨0, up, by decide +kernel⟩⟩

/-- The hypotheses of `Obligations.SystemRegisters` are met. -/
theorem wit_SystemRegisters :
    (∃ (v : Word) (s : State), s.serves = true ∧ bit v 0 = true)
    ∧ (∃ (v : Word) (s : State), s.serves = true ∧ bit v 0 = false)
    ∧ (∃ (v : Word) (s : State), s.serves = true ∧ bits v 4 0 < 28)
    ∧ (∃ (v : Word) (s : State), s.serves = true ∧ 28 ≤ bits v 4 0)
    ∧ (∃ (s : State), s.serves = true ∧ s.power.phase ≠ Phase.firstStage) :=
  ⟨⟨1, up, by decide +kernel⟩,
    ⟨2, up, by decide +kernel⟩,
    ⟨1, up, by decide +kernel⟩,
    ⟨28, up, by decide +kernel⟩,
    ⟨up, by decide +kernel⟩⟩

/-- The hypotheses of `Obligations.QuadSpi` are met. -/
theorem wit_QuadSpi :
    (∃ (s : State), s.qspi = false)
    ∧ (∃ (s : State), s.qspi = true ∧ s.serves = true)
    ∧ (∃ (a : Nat) (s : State) (p : Place) (r : RegDef), s.qspi = true ∧ s.serves = true ∧ a % 4 = 0 ∧ a < 4063232 ∧ decodeAddr a = some p ∧ p.compl = false ∧ p.reg = some r ∧ s.answers p.win p.inst = true ∧ r.acc = Acc.ro)
    ∧ (∃ (a : Nat) (s : State) (p : Place) (r : RegDef), s.qspi = true ∧ s.serves = true ∧ a % 4 = 0 ∧ a < 4063232 ∧ decodeAddr a = some p ∧ p.compl = false ∧ p.reg = some r ∧ s.answers p.win p.inst = true ∧ r.acc = Acc.ro ∧ p.addr ≠ Reg.tmuNowNs ∧ notYetValid p.addr = false ∧ (p.addr = Reg.pwrClk → s.power.phase ≠ Phase.secondStage))
    ∧ (∃ (a : Nat) (s : State), s.qspi = true ∧ s.serves = true ∧ 16777216 ≤ a ∧ a < 29360128 ∧ a % 4 = 0) :=
  ⟨⟨up, by decide +kernel⟩,
    ⟨qs, by decide +kernel⟩,
    ⟨Reg.sysId, qs, plc Reg.sysId, rdf Reg.sysId, by decide +kernel⟩,
    ⟨Reg.sysId, qs, plc Reg.sysId, rdf Reg.sysId, by decide +kernel⟩,
    ⟨0x1000000, qs, by decide +kernel⟩⟩

/-- The hypotheses of `Obligations.Resets` are met. -/
theorem wit_Resets :
    (∃ (s : State), s.power.clockHold = true)
    ∧ (∃ (s : State), s.power.clockHold = true ∧ s.power.mainOk = false)
    ∧ (∃ (rails : BitVec 3) (s : State), rails ≠ 0 ∧ s.up = true)
    ∧ (∃ (s : State), s.serves = true)
    ∧ (∃ (n : Nat) (s : State), s.coreSilent n = true)
    ∧ (∃ (n : Nat) (s : State), s.up = true ∧ n < 3) :=
  ⟨⟨pw (fun p => { p with clockHold := true, mainOk := false }) up, by decide +kernel⟩,
    ⟨pw (fun p => { p with clockHold := true, mainOk := false }) up, by decide +kernel⟩,
    ⟨1, pw (fun p => { p with clockHold := true, mainOk := false }) up, by decide +kernel⟩,
    ⟨pw (fun p => { p with clockHold := true, mainOk := false }) up, by decide +kernel⟩,
    ⟨0, pw (fun p => { p with clockHold := true, mainOk := false }) up, by decide +kernel⟩,
    ⟨0, pw (fun p => { p with clockHold := true, mainOk := false }) up, by decide +kernel⟩⟩

/-- The hypotheses of `Obligations.PowerStates` are met. -/
theorem wit_PowerStates :
    (∃ (s : State), s.power.phase = Phase.secondStage ∧ s.power.mode = Mode.standby ∧ s.power.imageGiven = false ∧ s.power.secondFailed = [] ∧ s.power.firstFailed = [] ∧ (s.bootSource.fst = 1 ∨ s.bootSource.fst = 2))
    ∧ (∃ (s : State), s.power.phase = Phase.secondStage ∧ s.power.mode = Mode.standby ∧ s.bootSource.fst = 3 ∧ s.power.firstFailed = [] ∧ s.power.secondFailed = []) :=
  ⟨⟨boot 1 sec, by decide +kernel⟩,
    ⟨boot 3 sec, by decide +kernel⟩⟩

/-- The hypotheses of `Obligations.CommandPath` are met. -/
theorem wit_CommandPath :
    (∃ (n : Nat) (s : State), s.cmdUp n = true)
    ∧ (∃ (n : Nat) (s : State) (c : Nat) (x : Machine.Task), s.cmdUp n = true ∧ c < 4 ∧ s.coreTask c = some x ∧ 4 ≤ x.ses)
    ∧ (∃ (n : Nat) (s : State) (c : Nat) (x : Machine.Task), s.cmdUp n = true ∧ s.coreTask c = some x) :=
  ⟨⟨1, up.setCore 2 (some fwk), by decide +kernel⟩,
    ⟨1, up.setCore 2 (some fwk), (2 : Nat), fwk, by decide +kernel⟩,
    ⟨1, up.setCore 2 (some fwk), (2 : Nat), fwk, by decide +kernel⟩⟩

/-- The hypotheses of `Obligations.PeriodInstants` are met. -/
theorem wit_PeriodInstants :
    (∃ (s : State), s.counts = true ∧ s.up = true)
    ∧ (∃ (s : State), s.counts = true ∧ s.up = false)
    ∧ (∃ (s : State), s.counts = true ∧ s.up = true ∧ s.tmu.sealed = false) :=
  ⟨⟨rp 4 {} up, by decide +kernel⟩,
    ⟨stdby, by decide +kernel⟩,
    ⟨rp 4 {} up, by decide +kernel⟩⟩

/-- The hypotheses of `Obligations.SequencerVisits` are met. -/
theorem wit_SequencerVisits :
    (∃ (le : Nat) (s : State), s.engineRuns le = true ∧ (s.eng le).main = none ∧ (s.eng le).urgent = none ∧ (s.eng le).ended = false ∧ List.find? (fun x => !x.snd.urgent && decide ((s.eng le).index ≤ x.fst)) (tableOf s.active le) = none ∧ (s.eng le).bg = none ∧ (s.eng le).work = 0)
    ∧ (∃ (le : Nat) (s : State), s.engineRuns le = true ∧ (s.eng le).main = none ∧ (s.eng le).urgent = none ∧ (s.eng le).ended = false ∧ List.find? (fun x => !x.snd.urgent && decide ((s.eng le).index ≤ x.fst)) (tableOf s.active le) = none ∧ (s.eng le).bg = none ∧ (s.eng le).work ≠ 0)
    ∧ (∃ (le : Nat) (s : State) (b : Nat), s.engineRuns le = true ∧ (s.eng le).main = none ∧ (s.eng le).urgent = none ∧ (s.eng le).ended = false ∧ List.find? (fun x => !x.snd.urgent && decide ((s.eng le).index ≤ x.fst)) (tableOf s.active le) = none ∧ (s.eng le).bg = some b ∧ s.sealNs * 4 / 5 < b + (s.eng le).work)
    ∧ (∃ (le : Nat) (s : State) (b : Nat), s.engineRuns le = true ∧ (s.eng le).main = none ∧ (s.eng le).urgent = none ∧ (s.eng le).ended = false ∧ List.find? (fun x => !x.snd.urgent && decide ((s.eng le).index ≤ x.fst)) (tableOf s.active le) = none ∧ (s.eng le).bg = some b ∧ b + (s.eng le).work ≤ s.sealNs * 4 / 5)
    ∧ (∃ (le : Nat) (i : Nat) (r : StopRec) (s : State), s.engineRuns le = true ∧ (s.eng le).main = none ∧ (s.eng le).urgent = none ∧ (s.eng le).ended = false ∧ List.find? (fun x => !x.snd.urgent && decide ((s.eng le).index ≤ x.fst)) (tableOf s.active le) = some (i, r) ∧ s.stopRuns r = false) :=
  ⟨⟨1, ((tab ur (par [(0, 1)] (lat run))).setAxis 3 {state := .enabled}).setEng 1 {fired := [4]}, by decide +kernel⟩,
    ⟨1, eng ((eng run).setEng 1 { bgTele := 5 }), by decide +kernel⟩,
    ⟨1, (eng run).setEng 1 { bg := some 5, bgJobs := 100000 }, (5 : Nat), by decide +kernel⟩,
    ⟨1, (eng run).setEng 1 { bg := some 5, bgJobs := 10 }, (5 : Nat), by decide +kernel⟩,
    ⟨1, 4, {r0 with flags := 2, slot := 3}, tab {r0 with flags := 2, slot := 3} run, by decide +kernel⟩⟩

/-- The hypotheses of `Obligations.DropsAreCounted` are met. -/
theorem wit_DropsAreCounted :
    (∃ (reason : Nat), reason < 3)
    ∧ (∃ (le : Nat) (i : Nat) (reason : Nat) (m : Nat), reason < 3 ∧ m ≠ le * 512 + i)
    ∧ (∃ (le : Nat) (reason : Nat) (m : Nat), reason < 3 ∧ m ≠ le) :=
  ⟨⟨0, by decide +kernel⟩,
    ⟨1, 4, 0, (0 : Nat), by decide +kernel⟩,
    ⟨1, 0, (0 : Nat), by decide +kernel⟩⟩

/-- The hypotheses of `Obligations.AxisEvents` are met. -/
theorem wit_AxisEvents :
    (∃ (n : Nat) (s : State), s.running = true ∧ n < s.part.slots ∧ s.axisType n ≠ 0 ∧ bit (s.axWord n 152) 4 = true)
    ∧ (∃ (n : Nat) (s : State), (s.axis n).homing.outcome = 1 ∧ (s.axis n).homing.method ≠ 6 ∧ ((s.homeSwitches n).any fun x => x.chatters (s.debounce n) (s.pn n 1800)) = true)
    ∧ (∃ (n : Nat) (s : State), (s.axis n).homing.outcome = 1 ∧ (s.axis n).homing.method ≠ 6 ∧ (s.axis n).homing.halting = false ∧ (s.axis n).homing.phase < 5 ∧ s.pn n 1799 ≠ 0 ∧ s.pn n 1799 * 2 ^ 24 < (wrap64 (s.ax64 n 16 - (s.axis n).homing.start)).natAbs)
    ∧ (∃ (n : Nat) (s : State), (s.axis n).homing.outcome = 1 ∧ (s.axis n).homing.method = 6 ∧ (s.axis n).homing.phase = 4 ∧ (s.axis n).homing.back = 0 ∧ s.pn n 1802 ≤ (s.axis n).homing.satRun)
    ∧ (∃ (n : Nat) (s : State), n < 4 ∧ s.shOn n = true ∧ 0 < s.shMissMax n ∧ s.shMissMax n ≤ (s.shaft n).misses ∧ bit (s.reg (Reg.chnShState n)) 1 = false) :=
  ⟨⟨3, ((ax {}).setLe ((ax {}).slotLe 3) (axbAt 3 0x98) [16,0,0,0]), by decide +kernel⟩,
    ⟨3, par [(0x902, 100), (0x708, 3)] (ax {state := .moving, homing := {outcome := 1, method := 5, phase := 1}, swPos := chat}), by decide +kernel⟩,
    ⟨3, par [(0x707, 1)] (ax {state := .moving, homing := {outcome := 1, method := 1, phase := 1, start := 2^40}}), by decide +kernel⟩,
    ⟨3, par [(0x70A, 3)] (ax {state := .moving, homing := {outcome := 1, method := 6, phase := 4, satRun := 5}}), by decide +kernel⟩,
    ⟨1, sh up, by decide +kernel⟩⟩

/-- The hypotheses of `Obligations.DriveHeads` are met. -/
theorem wit_DriveHeads :
    (∃ (p : Nat) (i : Nat) (c : Nat) (b : Bool) (s : State), s.hasHead (s.westOf p) i = true ∧ c < s.headChans (s.westOf p) i ∧ (if b = true then (s.head (32 * s.westOf p + i)).loopW else (s.head (32 * s.westOf p + i)).loopE) = false)
    ∧ (∃ (p : Nat) (i : Nat) (c : Nat) (s : State), s.hasHead (s.westOf p) i = true ∧ c < s.headChans (s.westOf p) i) :=
  ⟨⟨0, 0, 0, true, hd {chans := [(0, {kind := 0}), (1, {kind := 0})]}, by decide +kernel⟩,
    ⟨0, 0, 0, hd {chans := [(0, {kind := 0}), (1, {kind := 0})]}, by decide +kernel⟩⟩

/-- The hypotheses of `Obligations.PairingAndRoles` are met. -/
theorem wit_PairingAndRoles :
    (∃ (s : State), s.up = true ∧ s.paired = true ∧ bit (s.reg Reg.pairLink) 0 = false)
    ∧ (∃ (r : PairingRec) (s : State), s.up = true ∧ s.paired = true ∧ s.pairUp = true ∧ s.pair.partner = none ∧ s.pairCause r ≠ 0)
    ∧ (∃ (r : PairingRec) (s : State), s.up = true ∧ s.paired = true ∧ s.pairUp = true ∧ s.pair.partner = none ∧ s.pairCause r = 0 ∧ s.running = false ∧ r.inRun = false ∧ s.sideB = false)
    ∧ (∃ (r : PairingRec) (s : State), s.up = true ∧ s.paired = true ∧ s.pairUp = true ∧ s.pair.partner = none ∧ s.pairCause r = 0 ∧ s.running = false ∧ r.inRun = false ∧ s.sideB = true)
    ∧ (∃ (r : PairingRec) (s : State), s.up = true ∧ s.paired = true ∧ s.pairUp = true ∧ s.pair.partner = none ∧ s.pairCause r = 0 ∧ s.running = true ∧ r.inRun = false)
    ∧ (∃ (r : PairingRec) (s : State), s.up = true ∧ s.paired = true ∧ s.pairUp = true ∧ s.pair.partner = none ∧ s.pairCause r = 0 ∧ s.running = false ∧ r.inRun = true)
    ∧ (∃ (s : State), s.up = true ∧ s.paired = true ∧ s.answers 17 0 = true ∧ s.power.mode = Mode.ready ∧ s.active? = false) :=
  ⟨⟨pr (ul up), by decide +kernel⟩,
    ⟨{prec pq with dev := 4}, pq, by decide +kernel⟩,
    ⟨prec pq, pq, by decide +kernel⟩,
    ⟨prec (lk (prB (ul up))), lk (prB (ul up)), by decide +kernel⟩,
    ⟨prec pq, lk (pr (ul run)), by decide +kernel⟩,
    ⟨{prec pq with inRun := true}, pq, by decide +kernel⟩,
    ⟨pr (ul up), by decide +kernel⟩⟩

/-- The hypotheses of `Obligations.IslandEvents` are met. -/
theorem wit_IslandEvents :
    (∃ (s : State), s.operates = true) :=
  ⟨conn1, by decide +kernel⟩

/-- The hypotheses of `Obligations.FeedbackCounts` are met. -/
theorem wit_FeedbackCounts :
    (∃ (n : Nat) (a : Bool) (b : Bool) (smp : Nat) (s : State), s.power.mode ≠ Mode.dormant ∧ n < 16 ∧ (s.fb n).mode = 1 ∧ (s.fb n).rawA = (s.fb n).a ∧ (s.fb n).rawB = (s.fb n).b ∧ bits (s.fb n).act 9 6 < smp ∧ (quadPlace a b + 4 - quadPlace (s.fb n).a (s.fb n).b) % 4 = 1)
    ∧ (∃ (n : Nat) (a : Bool) (b : Bool) (smp : Nat) (s : State), s.power.mode ≠ Mode.dormant ∧ n < 16 ∧ (s.fb n).mode = 1 ∧ (s.fb n).rawA = (s.fb n).a ∧ (s.fb n).rawB = (s.fb n).b ∧ bits (s.fb n).act 9 6 < smp ∧ (quadPlace a b + 4 - quadPlace (s.fb n).a (s.fb n).b) % 4 = 3)
    ∧ (∃ (n : Nat) (a : Bool) (b : Bool) (smp : Nat) (s : State), s.power.mode ≠ Mode.dormant ∧ n < 16 ∧ (s.fb n).mode = 1 ∧ (s.fb n).rawA = (s.fb n).a ∧ (s.fb n).rawB = (s.fb n).b ∧ bits (s.fb n).act 9 6 < smp ∧ (quadPlace a b + 4 - quadPlace (s.fb n).a (s.fb n).b) % 4 = 2)
    ∧ (∃ (n : Nat) (a : Bool) (b : Bool) (smp : Nat) (s : State), s.power.mode ≠ Mode.dormant ∧ n < 16 ∧ (s.fb n).mode = 1 ∧ (s.fb n).rawA = (s.fb n).a ∧ (s.fb n).rawB = (s.fb n).b ∧ bits (s.fb n).act 9 6 < smp ∧ (quadPlace a b + 4 - quadPlace (s.fb n).a (s.fb n).b) % 4 = 0)
    ∧ (∃ (n : Nat) (smp : Nat) (s : State), s.power.mode ≠ Mode.dormant ∧ n < 16 ∧ (s.fb n).mode = 1 ∧ (s.fb n).rawA = (s.fb n).a ∧ (s.fb n).rawB = (s.fb n).b ∧ smp ≤ bits (s.fb n).act 9 6)
    ∧ (∃ (n : Nat) (s : State), s.power.mode ≠ Mode.dormant ∧ n < 16 ∧ (s.fb n).mode = 1 ∧ bit (s.fb n).act 4 = false)
    ∧ (∃ (n : Nat) (err : Bool) (warn : Bool) (pos : BitVec 64) (crc : BitVec 6) (start : Nat) (dly : Nat) (s : State), s.up = true ∧ n < 16 ∧ (s.fb n).transfer = true ∧ s.pastLocal (s.chanBound n (s.fb n)) = false ∧ (s.fb n).mode = 2 ∧ crc.toNat = 63 - crc6 (bitsDown (s.fb n).width (pos.toNat % 2 ^ (s.fb n).width) ++ [err, warn]) ∧ (start ≤ s.field (Reg.fbkChLineMax n) 9 0 * 5 + 20 * (s.fb n).clk ∧ dly ≤ s.field (Reg.fbkChLineMax n) 9 0) ∧ err = true)
    ∧ (∃ (n : Nat) (err : Bool) (warn : Bool) (pos : BitVec 64) (crc : BitVec 6) (start : Nat) (dly : Nat) (s : State), s.up = true ∧ n < 16 ∧ (s.fb n).transfer = true ∧ s.pastLocal (s.chanBound n (s.fb n)) = false ∧ (s.fb n).mode = 2 ∧ (¬(crc.toNat = 63 - crc6 (bitsDown (s.fb n).width (pos.toNat % 2 ^ (s.fb n).width) ++ [err, warn]) ∧ (start ≤ s.field (Reg.fbkChLineMax n) 9 0 * 5 + 20 * (s.fb n).clk ∧ dly ≤ s.field (Reg.fbkChLineMax n) 9 0) ∧ err = true)))
    ∧ (∃ (n : Nat) (further : Bool) (s : State), s.up = true ∧ n < 16 ∧ (s.fb n).transfer = true ∧ s.pastLocal (s.chanBound n (s.fb n)) = false ∧ (s.fb n).mode = 3 ∧ further = false)
    ∧ (∃ (n : Nat) (further : Bool) (s : State), s.up = true ∧ n < 16 ∧ (s.fb n).transfer = true ∧ s.pastLocal (s.chanBound n (s.fb n)) = false ∧ (s.fb n).mode = 3 ∧ further = true)
    ∧ (∃ (n : Nat) (s : State), s.up = true ∧ n < 16 ∧ (s.fb n).cur.started = true ∧ (s.fb n).cur.done = false ∧ (s.fb n).nxt.started = false ∧ s.pastLocal (s.chanBound n (s.fb n)) = true)
    ∧ (∃ (n : Nat) (code : BitVec 16) (s : State), s.answers 23 0 = true ∧ n < 32 ∧ s.field (Reg.adcInCfg n) 1 0 = 1 ∧ code ≠ 32768 ∧ code ≠ 32767)
    ∧ (∃ (n : Nat) (s : State), s.answers 12 0 = true ∧ n < 16 ∧ s.up = true)
    ∧ (∃ (n : Nat) (s : State), s.answers 12 0 = true ∧ n < 8)
    ∧ (∃ (s : State), s.answers 15 0 = true) :=
  ⟨⟨2, true, false, 5, q false, by decide +kernel⟩,
    ⟨2, false, true, 5, q false, by decide +kernel⟩,
    ⟨2, true, true, 5, q false, by decide +kernel⟩,
    ⟨2, false, false, 5, q false, by decide +kernel⟩,
    ⟨2, 0, q false, by decide +kernel⟩,
    ⟨2, q false, by decide +kernel⟩,
    ⟨2, true, false, 5, crcOf 25 5, 100, 10, ser 2 false, by decide +kernel⟩,
    ⟨2, true, false, 5, 0, 100, 10, ser 2 false, by decide +kernel⟩,
    ⟨2, false, ser 3 false, by decide +kernel⟩,
    ⟨2, true, ser 3 false, by decide +kernel⟩,
    ⟨2, late, by decide +kernel⟩,
    ⟨2, 3, adcS, by decide +kernel⟩,
    ⟨2, q false, by decide +kernel⟩,
    ⟨2, q false, by decide +kernel⟩,
    ⟨q false, by decide +kernel⟩⟩

/-- The hypotheses of `Obligations.PwmOutputs` are met. -/
theorem wit_PwmOutputs :
    (∃ (ch : Nat) (s : State), s.answers 11 0 = true ∧ ch < 32 ∧ s.pwmOwned ch = false)
    ∧ (∃ (ch : Nat) (k : Nat) (s : State), s.answers 11 0 = true ∧ ch < 32 ∧ s.pwmOwned ch = true ∧ k < 4)
    ∧ (∃ (ch : Nat) (at_ : Nat) (cut : Bool) (s : State), s.answers 11 0 = true ∧ ch < 32 ∧ s.pwmNext ch = some (at_, cut) ∧ at_ < 64 * ((s.tmu.period + 1) * s.tBase))
    ∧ (∃ (k : Nat) (s : State), s.answers 11 0 = true ∧ k < 4 ∧ bit (s.reg Reg.pwmTripCfg) k = true ∧ bit (s.reg Reg.pwmTripLevel) (4 + k) = false)
    ∧ (∃ (k : Nat) (s : State), s.answers 11 0 = true ∧ k < 4)
    ∧ (∃ (k : Nat) (s : State), s.answers 11 0 = true ∧ k < 4 ∧ bit (s.reg Reg.pwmTripCfg) k = false)
    ∧ (∃ (k : Nat) (s : State), s.answers 11 0 = true ∧ k < 4 ∧ bit (s.reg Reg.pwmTripLevel) (4 + k) = false)
    ∧ (∃ (k : Nat) (s : State), s.answers 11 0 = true ∧ k < 4 ∧ bit (s.reg Reg.pwmTripLevel) (4 + k) = true) :=
  ⟨⟨3, up, by decide +kernel⟩,
    ⟨3, 1, own, by decide +kernel⟩,
    ⟨3, 480000, false, pwm 1 {start := some 0, per := 3000}, by decide +kernel⟩,
    ⟨1, up.setReg Reg.pwmTripCfg 2, by decide +kernel⟩,
    ⟨1, up, by decide +kernel⟩,
    ⟨1, up, by decide +kernel⟩,
    ⟨1, up, by decide +kernel⟩,
    ⟨1, up.setReg Reg.pwmTripLevel 0x22, by decide +kernel⟩⟩

/-- The hypotheses of `Obligations.PwmLevels` are met. -/
theorem wit_PwmLevels :
    (∃ (n : Nat) (s : State), s.up = true ∧ bit (s.reg (Reg.pwmChCfg n)) 0 = true ∧ ((s.pwmLevels n).fst != bit (s.reg (Reg.pwmChCfg n)) 4) = true)
    ∧ (∃ (n : Nat) (s : State), s.up = true ∧ bit (s.reg (Reg.pwmChCfg n)) 0 = true ∧ s.pwmTripped n = true)
    ∧ (∃ (n : Nat) (s : State), s.up = true ∧ bit (s.reg (Reg.pwmChCfg n)) 0 = true ∧ s.pwmTripped n = false ∧ (s.pw n).force = 1)
    ∧ (∃ (n : Nat) (s : State), s.up = true ∧ bit (s.reg (Reg.pwmChCfg n)) 0 = true ∧ s.pwmTripped n = false ∧ (s.pw n).force = 2)
    ∧ (∃ (n : Nat) (t0 : Nat) (s : State), s.up = true ∧ bit (s.reg (Reg.pwmChCfg n)) 0 = true ∧ (s.pw n).force = 0 ∧ (s.pw n).start = some t0 ∧ ((s.pw n).refAt (bit (s.reg (Reg.pwmChCfg n)) 1) (64 * s.tmu.ns)).fst = false)
    ∧ (∃ (n : Nat) (t0 : Nat) (s : State), s.up = true ∧ bit (s.reg (Reg.pwmChCfg n)) 0 = true ∧ (s.pw n).force = 0 ∧ (s.pw n).start = some t0 ∧ ((s.pw n).refAt (bit (s.reg (Reg.pwmChCfg n)) 1) (64 * s.tmu.ns)).fst = true)
    ∧ (∃ (n : Nat) (t0 : Nat) (s : State), (s.pw n).start = some t0 ∧ t0 ≤ 64 * s.tmu.ns ∧ (s.pw n).cmp = 0)
    ∧ (∃ (n : Nat) (t0 : Nat) (s : State), (s.pw n).start = some t0 ∧ t0 ≤ 64 * s.tmu.ns ∧ (s.pw n).cmp ≠ 0 ∧ (s.pw n).steps ≤ (s.pw n).cmp)
    ∧ (∃ (n : Nat) (t0 : Nat) (s : State), (s.pw n).start = some t0 ∧ t0 ≤ 64 * s.tmu.ns ∧ (s.pw n).cmp ≠ 0 ∧ (s.pw n).cmp < (s.pw n).steps)
    ∧ (∃ (n : Nat) (s : State), (s.up = false ∨ bit (s.reg (Reg.pwmChCfg n)) 0 = false)) :=
  ⟨⟨3, (pwm 1 {start := some 0, cmp := 640000}).onTmu fun t => {t with ns := 500}, by decide +kernel⟩,
    ⟨3, (pwm 0x101 {start := some 0, cmp := 640000}).setReg Reg.pwmTripLevel 1, by decide +kernel⟩,
    ⟨3, pwm 0x41 {start := some 0, force := 1}, by decide +kernel⟩,
    ⟨3, pwm 0x41 {start := some 0, force := 2}, by decide +kernel⟩,
    ⟨3, 0, pwm 1 {start := some 0, cmp := 0}, by decide +kernel⟩,
    ⟨3, 0, pwm 1 {start := some 0, cmp := 64}, by decide +kernel⟩,
    ⟨3, 0, pwm 1 {start := some 0, cmp := 0}, by decide +kernel⟩,
    ⟨3, 0, pwm 3 {start := some 0, cmp := 640000}, by decide +kernel⟩,
    ⟨3, 0, pwm 1 {start := some 0, cmp := 64}, by decide +kernel⟩,
    ⟨3, stdby, by decide +kernel⟩⟩

/-- The hypotheses of `Obligations.MemoryAccesses` are met. -/
theorem wit_MemoryAccesses :
    ∃ (le : Nat) (o : Nat) (s : State), s.serves = true ∧ s.up = true ∧ s.engineThere le = true ∧ o < 163840 ∧ o % 4 = 0 ∧ s.tableActive le = true ∧ o < 131072 ∧ 64 ≤ (s.eng le).writeQ.length :=
  ⟨1, 8, (run.setReg (Reg.ttbState 1) 3).setEng 1 {writeQ := List.replicate 64 (0, 0)}, by decide +kernel⟩

/-- The hypotheses of `Obligations.NetworkTime` are met. -/
theorem wit_NetworkTime :
    (∃ (s : State), s.counts = true ∧ -200000 ≤ s.rho ∧ s.rho ≤ 200000)
    ∧ (∃ (s : State), s.tmu.gm.isSome = true ∧ s.transmits = false)
    ∧ (∃ (s : State), s.answers 4 0 = true)
    ∧ (∃ (s : State), s.answers 4 0 = true ∧ s.ptpEnabled = true)
    ∧ (∃ (s : State), s.answers 4 0 = true ∧ s.running = false) :=
  ⟨⟨(dl2 8000 (rx up)).setReg Reg.tmuThr 10, by decide +kernel⟩,
    ⟨(dl2 8000 (rx up)).setReg Reg.tmuThr 10, by decide +kernel⟩,
    ⟨(dl2 8000 (rx up)).setReg Reg.tmuThr 10, by decide +kernel⟩,
    ⟨(dl2 8000 (rx up)).setReg Reg.tmuThr 10, by decide +kernel⟩,
    ⟨(dl2 8000 (rx up)).setReg Reg.tmuThr 10, by decide +kernel⟩⟩

/-- The hypotheses of `Obligations.CanControllers` are met. -/
theorem wit_CanControllers :
    (∃ (c : Nat) (s : State), s.answers 6 c = true)
    ∧ (∃ (c : Nat) (s : State), s.answers 6 c = true ∧ s.canConf c = 2)
    ∧ (∃ (c : Nat) (s : State), s.answers 6 c = true ∧ s.canConf c ≠ 2)
    ∧ (∃ (c : Nat) (i : Nat) (s : State), s.answers 6 c = true ∧ s.detectNext c 0 = some i)
    ∧ (∃ (c : Nat) (s : State), s.answers 6 c = true ∧ s.detectNext c 0 = none)
    ∧ (∃ (c : Nat) (i : Nat) (s : State), s.answers 6 c = true ∧ s.canDetecting c = true ∧ s.detectNext c ((s.can c).cand + 1) = some i)
    ∧ (∃ (c : Nat) (s : State), s.answers 6 c = true ∧ s.canDetecting c = true ∧ s.detectNext c ((s.can c).cand + 1) = none)
    ∧ (∃ (c : Nat) (s : State), s.answers 6 c = true ∧ s.canOn c = true)
    ∧ (∃ (c : Nat) (s : State), s.answers 6 c = true ∧ s.canConf c = 2 ∧ bit (s.reg (Reg.canState c)) 3 = true) :=
  ⟨⟨1, can 2 1 {} up, by decide +kernel⟩,
    ⟨1, can 2 1 {} up, by decide +kernel⟩,
    ⟨1, det (can 0 0 {} up), by decide +kernel⟩,
    ⟨1, 0, det (can 0 0 {} up), by decide +kernel⟩,
    ⟨1, can 2 1 {} up, by decide +kernel⟩,
    ⟨1, 1, (can 4 1 {} up).setReg (Reg.canDetNbt 1 1) 5, by decide +kernel⟩,
    ⟨1, can 4 1 {} up, by decide +kernel⟩,
    ⟨1, (can 4 1 {} up).setReg (Reg.canDetNbt 1 1) 5, by decide +kernel⟩,
    ⟨1, can 0xA 1 {} up, by decide +kernel⟩⟩

/-- The hypotheses of `Obligations.InnkeeperEvents` are met. -/
theorem wit_InnkeeperEvents :
    (∃ (core : Nat) (s : State), s.serves = true ∧ core < 4 ∧ s.capX (16 + core) = true)
    ∧ (∃ (s : State), s.serves = true ∧ s.inn.flashOk = false)
    ∧ (∃ (s : State), s.serves = true ∧ s.inn.flashOk = true ∧ 131072 < (s.inn.ledger ++ s.inn.buffer).length ∧ s.inn.buffer ≠ [])
    ∧ (∃ (slot : Nat) (part : Nat) (s : State), s.serves = true ∧ part < 4 ∧ ((s.wearOf slot part).state ≠ 1 ∨ s.writesPlates = false))
    ∧ (∃ (slot : Nat) (part : Nat) (np : Bytes) (s : State), s.serves = true ∧ (s.wearOf slot part).state = 1 ∧ identityOk np = true ∧ List.take 16 (List.drop 40 np) ≠ List.take 16 (List.drop 40 (s.wearOf slot part).ident))
    ∧ (∃ (slot : Nat) (part : Nat) (np : Bytes) (s : State), s.serves = true ∧ ((s.wearOf slot part).state ≠ 1 ∨ identityOk np = true ∧ List.take 16 (List.drop 40 np) = List.take 16 (List.drop 40 (s.wearOf slot part).ident)))
    ∧ (∃ (page : Nat) (s : State), s.serves = true ∧ s.inn.flashOk = true ∧ s.hasCopy page = true)
    ∧ (∃ (block : Nat) (s : State), s.serves = true ∧ s.inn.flashOk = true ∧ (block * 65536 < bankBase s.inn.runBank ∨ bankBase s.inn.runBank + 8388608 ≤ block * 65536))
    ∧ (∃ (s : State), s.serves = true ∧ (s.inn.update = none ∨ ∃ u, s.inn.update = some u ∧ u.waiting.isSome = true)) :=
  ⟨⟨0, bound, by decide +kernel⟩,
    ⟨bound, by decide +kernel⟩,
    ⟨up.onInn fun i => {i with flashOk := true, buffer := [{}], ledger := List.replicate 131072 {}}, by decide +kernel⟩,
    ⟨0, 1, up.onInn fun i => {i with flashOk := true, buffer := [{}], ledger := List.replicate 131072 {}}, by decide +kernel⟩,
    ⟨0, 1, idPlate 9, bound, by decide +kernel⟩,
    ⟨0, 1, zeros 192, up.onInn fun i => {i with flashOk := true, buffer := [{}], ledger := List.replicate 131072 {}}, by decide +kernel⟩,
    ⟨5, up.onInn fun i => {i with flashOk := true, buffer := [{}], ledger := List.replicate 131072 {}}, by decide +kernel⟩,
    ⟨300, up.onInn fun i => {i with flashOk := true, buffer := [{}], ledger := List.replicate 131072 {}}, by decide +kernel⟩,
    ⟨bound, by decide +kernel⟩⟩

end M

/-! ### Witnesses, D1 -/

namespace D1

/-- A device in READY with its host link. -/
def up : State := { State.reset with power := { State.reset.power with mode := .ready, phase := .idle, pcieUp := true, busMaster := true } }
def run : State := { up with power := { up.power with mode := .run } }
def stdby : State := { up with power := { up.power with mode := .standby } }
def ret (s : State) : State := (((s.setReg (Reg.fbkMtCount 1) 5).setMt 1 {a := true}).onInn fun n => {n with uptime := 50000}).setJrn 1 { accepted := 4 }

/-- The hypotheses of `Obligations.Resets` are met. -/
theorem wit_Resets :
    (∃ (s : State), s.power.clockHold = false)
    ∧ (∃ (s : State), s.power.clockHold = false ∧ s.power.mainOk = false)
    ∧ (∃ (s : State), s.power.clockHold = false ∧ s.power.mainOk = true)
    ∧ (∃ (s : State), s.power.clockHold = true ∧ s.power.mainOk = true) :=
  ⟨⟨ret up, by decide +kernel⟩,
    ⟨(ret up).onPower fun p => { p with mainOk := false, mode := .dormant }, by decide +kernel⟩,
    ⟨ret up, by decide +kernel⟩,
    ⟨(ret stdby).onPower fun p => { p with clockHold := true, phase := .held }, by decide +kernel⟩⟩

/-- The hypotheses of `Obligations.Losses` are met. -/
theorem wit_Losses :
    (∃ (rails : BitVec 3) (s : State), rails ≠ 0 ∧ s.power.mode ≠ Mode.dormant)
    ∧ (∃ (s : State) (i : Instr), (i = Instr.referenceStopped ∨ i = Instr.referenceOutOfWindow) ∧ s.power.mode ≠ Mode.dormant ∧ s.power.clockHold = false)
    ∧ (∃ (s : State), bit (s.reg Reg.pwrClk) 1 = true ∧ s.power.mode ≠ Mode.dormant)
    ∧ (∃ (n : Nat) (up : Bool) (s : State), (n = 2 ∨ n = 4 ∨ n = 5) ∧ s.serves = true ∧ bit (s.reg Reg.pwrSupply) n ≠ up ∧ (up = true ∨ s.up = false))
    ∧ (∃ (s : State) (i : Instr), s.qspi = false ∧ (i = Instr.pcieClockLoss ∨ i = Instr.pcieLinkDown))
    ∧ (∃ (s : State), s.qspi = false ∧ s.serves = true)
    ∧ (∃ (s : State), s.qspi = false ∧ s.power.pcieUp = true) :=
  ⟨⟨3, ret up, by decide +kernel⟩,
    ⟨ret up, Instr.referenceStopped, by decide +kernel⟩,
    ⟨ret up, by decide +kernel⟩,
    ⟨2, false, ret stdby, by decide +kernel⟩,
    ⟨ret up, Instr.pcieClockLoss, by decide +kernel⟩,
    ⟨ret up, by decide +kernel⟩,
    ⟨ret up, by decide +kernel⟩⟩

end D1

/-! ### Witnesses, D2 -/

namespace D2

/-- A device in READY with its host link. -/
def up : State := { State.reset with power := { State.reset.power with mode := .ready, phase := .idle, pcieUp := true, busMaster := true } }
def run : State := { up with power := { up.power with mode := .run } }
def stdby : State := { up with power := { up.power with mode := .standby } }

/-- The hypotheses of `Obligations.PowerStates` are met. -/
theorem wit_PowerStates :
    (∃ (s : State), s.serves = true ∧ s.power.mode = Mode.standby ∧ s.power.phase = Phase.idle ∧ bit (s.reg Reg.pwrBist) 16 = false ∧ s.runSuppliesOk = true)
    ∧ (∃ (s : State), s.serves = true ∧ s.power.mode = Mode.standby ∧ s.power.phase = Phase.idle ∧ (bit (s.reg Reg.pwrBist) 16 = true ∨ s.runSuppliesOk = false))
    ∧ (∃ (s : State), s.serves = true ∧ s.power.mode = Mode.standby ∧ s.power.phase = Phase.hostLoad)
    ∧ (∃ (s : State), s.serves = true ∧ s.power.mode = Mode.ready ∧ s.power.phase = Phase.idle)
    ∧ (∃ (s : State), s.serves = true ∧ s.power.mode = Mode.standby ∧ s.power.phase = Phase.idle)
    ∧ (∃ (s : State), s.serves = true ∧ s.power.mode = Mode.run)
    ∧ (∃ (n : Nat) (edge : Bool) (s : State), s.power.mode = Mode.standby ∧ s.power.phase = Phase.idle ∧ bit (s.reg Reg.pwrBist) 16 = false ∧ s.runSuppliesOk = true ∧ s.cap 4 = true ∧ n < 32 ∧ s.die.linkUp = true ∧ bit (s.reg (if edge = true then Reg.fioWakeRise else Reg.fioWakeFall)) n = true)
    ∧ (∃ (n : Nat) (s : State), s.power.mode = Mode.standby ∧ s.power.phase = Phase.idle ∧ bit (s.reg Reg.pwrBist) 16 = false ∧ s.runSuppliesOk = true ∧ n < 4 ∧ s.cap (14 + n) = true ∧ bit (s.reg Reg.pwrWakeEn) (1 + n) = true)
    ∧ (∃ (n : Nat) (s : State), s.power.mode = Mode.standby ∧ s.power.phase = Phase.idle ∧ bit (s.reg Reg.pwrBist) 16 = false ∧ s.runSuppliesOk = true ∧ n < 4 ∧ s.cap (14 + n) = true ∧ bit (s.reg Reg.pwrWakeEn) (1 + n) = false)
    ∧ (∃ (s : State), s.power.mode = Mode.standby ∧ s.power.phase = Phase.idle ∧ bit (s.reg Reg.pwrBist) 16 = false ∧ s.runSuppliesOk = true ∧ s.counts = true ∧ bit (s.reg Reg.tmuAlarmSecHi) 31 = true)
    ∧ (∃ (s : State), s.power.phase = Phase.firstStage ∧ s.power.mode = Mode.standby)
    ∧ (∃ (s : State), s.power.phase = Phase.hostLoad)
    ∧ (∃ (ok : Bool) (s : State), s.power.phase = Phase.drain ∧ s.power.mode = Mode.ready ∧ s.dmaBusy = false ∧ (s.drained = true ∨ ok = true) ∧ s.power.wakeHeld = 0) :=
  ⟨⟨stdby, by decide +kernel⟩,
    ⟨stdby.setReg Reg.pwrBist 0x10000, by decide +kernel⟩,
    ⟨stdby.onPower fun p => { p with phase := .hostLoad }, by decide +kernel⟩,
    ⟨up, by decide +kernel⟩,
    ⟨stdby, by decide +kernel⟩,
    ⟨run, by decide +kernel⟩,
    ⟨1, true, (((stdby.setReg Reg.sysCapLive 0x3FFFFFF).setReg Reg.pwrWakeEn 0x3F).onDie fun d => {d with linkUp := true}).setReg Reg.fioWakeRise 2, by decide +kernel⟩,
    ⟨1, stdby.setReg Reg.pwrWakeEn 0x3F, by decide +kernel⟩,
    ⟨1, stdby, by decide +kernel⟩,
    ⟨(stdby.setReg Reg.pwrWakeEn 0x3F).setReg Reg.tmuAlarmSecHi 0x80000000, by decide +kernel⟩,
    ⟨stdby.onPower fun p => { p with phase := .firstStage }, by decide +kernel⟩,
    ⟨(stdby.onPower fun p => { p with phase := .hostLoad }).setReg Reg.pwrBoot 1, by decide +kernel⟩,
    ⟨true, up.onPower fun p => { p with phase := .drain }, by decide +kernel⟩⟩

end D2

/-! ### Witnesses, E1 -/

namespace E1

/-- A device in READY with its host link. -/
def up : State := { State.reset with power := { State.reset.power with mode := .ready, phase := .idle, pcieUp := true, busMaster := true } }
def run : State := { up with power := { up.power with mode := .run } }
def stdby : State := { up with power := { up.power with mode := .standby } }
def opn (s : State) : State := (s.setReg (Reg.cmdState 1) 0x0102).setSes 1 { opened := { cfg := 0x40041, sqBase := 0x1000, cqBase := 0x2000 } }
def nq (s : State) : State := (((s.setReg (Reg.cmdNextSeq 1) 5).setReg (Reg.cmdAcceptedSeq 1) 4).setReg (Reg.cmdRetiredSeq 1) 4)
def doorb (s : State) : State := s.setReg (Reg.cmdSqTail 1) 3
def pk (op seq len : Nat) : Bytes := leBytes 2 op ++ leBytes 2 len ++ leBytes 4 seq ++ leBytes 8 0xFFFF
def hd : Hdr := { ses := 1, seq := 5, target := 0xFFFF }
def fl (ph : TaskPhase) (r : Option Reply) (d : Option (Nat × Word) := none) : Flight := { pkt := { op := 0x101, hdr := hd }, phase := ph, reply := r, dep := d }
def wf (f : Flight) : State := (nq (opn up)).onSes 1 fun x => { x with flights := [f] }
def s0 : State := nq (opn up)

/-- The hypotheses of `Obligations.SessionLife` are met. -/
theorem wit_SessionLife :
    (∃ (n : Nat) (lo : Byte) (hi : Byte) (s : State), s.cmdUp n = true ∧ s.answers 2 n = true ∧ s.forwards = false ∧ s.sesState n = 0 ∧ s.paired = false ∧ (¬(lo ≤ 16 ∧ 16 ≤ hi)))
    ∧ (∃ (n : Nat) (lo : Byte) (hi : Byte) (s : State), s.cmdUp n = true ∧ s.answers 2 n = true ∧ s.forwards = false ∧ s.sesState n = 0 ∧ s.paired = false ∧ lo ≤ 16 ∧ 16 ≤ hi ∧ s.ringsFit { cfg := s.reg (Reg.cmdCfg n), sqBase := BitVec.ofNat 64 (s.reg64 (Reg.cmdSqBaseLo n) (Reg.cmdSqBaseHi n)), cqBase := BitVec.ofNat 64 (s.reg64 (Reg.cmdCqBaseLo n) (Reg.cmdCqBaseHi n)) } = false)
    ∧ (∃ (n : Nat) (lo : Byte) (hi : Byte) (s : State), s.cmdUp n = true ∧ s.answers 2 n = true ∧ s.forwards = false ∧ s.sesState n = 0 ∧ s.paired = false ∧ lo ≤ 16 ∧ 16 ≤ hi ∧ s.ringsFit { cfg := s.reg (Reg.cmdCfg n), sqBase := BitVec.ofNat 64 (s.reg64 (Reg.cmdSqBaseLo n) (Reg.cmdSqBaseHi n)), cqBase := BitVec.ofNat 64 (s.reg64 (Reg.cmdCqBaseLo n) (Reg.cmdCqBaseHi n)) } = true)
    ∧ (∃ (n : Nat) (s : State), s.cmdUp n = true ∧ s.answers 2 n = true ∧ s.forwards = false ∧ s.sesState n ≠ 0)
    ∧ (∃ (n : Nat) (s : State), s.cmdUp n = true ∧ s.answers 2 n = true ∧ s.forwards = false ∧ s.sesState n = 3)
    ∧ (∃ (n : Nat) (s : State), s.cmdUp n = true ∧ s.answers 2 n = true ∧ s.forwards = false ∧ (s.sesState n = 2 ∨ s.sesState n = 3))
    ∧ (∃ (n : Nat) (s : State), s.cmdUp n = true ∧ s.answers 2 n = true ∧ s.forwards = false ∧ s.sesState n = 4 ∧ (s.ses n).flights = [] ∧ (s.ses n).replies = [])
    ∧ (∃ (n : Nat) (v : Word) (s : State), s.cmdUp n = true ∧ s.answers 2 n = true ∧ s.forwards = false ∧ s.sesState n ≠ 0 ∧ BitVec.toNat (v - s.reg (Reg.cmdSqHead n)) ≤ (s.ses n).opened.depth)
    ∧ (∃ (n : Nat) (v : Word) (s : State), s.cmdUp n = true ∧ s.answers 2 n = true ∧ s.forwards = false ∧ s.sesState n ≠ 0 ∧ (s.ses n).opened.depth < BitVec.toNat (v - s.reg (Reg.cmdSqHead n)))
    ∧ (∃ (n : Nat) (v : Word) (s : State), s.cmdUp n = true ∧ s.answers 2 n = true ∧ s.forwards = false ∧ s.sesState n ≠ 0 ∧ BitVec.toNat (v - s.reg (Reg.cmdCqHead n)) ≤ BitVec.toNat (s.reg (Reg.cmdCqTail n) - s.reg (Reg.cmdCqHead n)))
    ∧ (∃ (n : Nat) (v : Word) (s : State), s.cmdUp n = true ∧ s.answers 2 n = true ∧ s.forwards = false ∧ s.sesState n ≠ 0 ∧ BitVec.toNat (s.reg (Reg.cmdCqTail n) - s.reg (Reg.cmdCqHead n)) < BitVec.toNat (v - s.reg (Reg.cmdCqHead n))) :=
  ⟨⟨1, 0x11, 0x20, up, by decide +kernel⟩,
    ⟨1, 0x10, 0x10, up.setReg (Reg.cmdCfg 1) 0, by decide +kernel⟩,
    ⟨1, 0x00, 0x10, up, by decide +kernel⟩,
    ⟨1, s0, by decide +kernel⟩,
    ⟨1, s0.setReg (Reg.cmdState 1) 3, by decide +kernel⟩,
    ⟨1, s0, by decide +kernel⟩,
    ⟨1, s0.setReg (Reg.cmdState 1) 4, by decide +kernel⟩,
    ⟨1, 5, s0, by decide +kernel⟩,
    ⟨1, 50, s0, by decide +kernel⟩,
    ⟨1, 0, s0.setReg (Reg.cmdCqTail 1) 2, by decide +kernel⟩,
    ⟨1, 5, s0, by decide +kernel⟩⟩

/-- The hypotheses of `Obligations.BadPacketsHalt` are met. -/
theorem wit_BadPacketsHalt :
    (∃ (n : Nat) (slot : Bytes) (s : State), s.mayFetch n = true ∧ s.reg (Reg.cmdSqHead n) ≠ s.reg (Reg.cmdSqTail n) ∧ ((s.ses n).opened.sqSram = true → (sramRead s (sramBase (s.ses n).opened.sqBase + BitVec.toNat (s.reg (Reg.cmdSqHead n)) % (s.ses n).opened.depth * 512) 512).fst.snd = none) ∧ (packetOf n (if (s.ses n).opened.sqSram = true then (sramRead s (sramBase (s.ses n).opened.sqBase + BitVec.toNat (s.reg (Reg.cmdSqHead n)) % (s.ses n).opened.depth * 512) 512).fst.fst else padTo 512 slot)).fst.hdr.seq ≠ s.reg (Reg.cmdNextSeq n))
    ∧ (∃ (n : Nat) (slot : Bytes) (s : State), s.mayFetch n = true ∧ s.reg (Reg.cmdSqHead n) ≠ s.reg (Reg.cmdSqTail n) ∧ ((s.ses n).opened.sqSram = true → (sramRead s (sramBase (s.ses n).opened.sqBase + BitVec.toNat (s.reg (Reg.cmdSqHead n)) % (s.ses n).opened.depth * 512) 512).fst.snd = none) ∧ (packetOf n (if (s.ses n).opened.sqSram = true then (sramRead s (sramBase (s.ses n).opened.sqBase + BitVec.toNat (s.reg (Reg.cmdSqHead n)) % (s.ses n).opened.depth * 512) 512).fst.fst else padTo 512 slot)).fst.hdr.seq = s.reg (Reg.cmdNextSeq n) ∧ 496 < (packetOf n (if (s.ses n).opened.sqSram = true then (sramRead s (sramBase (s.ses n).opened.sqBase + BitVec.toNat (s.reg (Reg.cmdSqHead n)) % (s.ses n).opened.depth * 512) 512).fst.fst else padTo 512 slot)).snd)
    ∧ (∃ (n : Nat) (slot : Bytes) (s : State), s.mayFetch n = true ∧ s.reg (Reg.cmdSqHead n) ≠ s.reg (Reg.cmdSqTail n) ∧ ((s.ses n).opened.sqSram = true → (sramRead s (sramBase (s.ses n).opened.sqBase + BitVec.toNat (s.reg (Reg.cmdSqHead n)) % (s.ses n).opened.depth * 512) 512).fst.snd = none) ∧ (packetOf n (if (s.ses n).opened.sqSram = true then (sramRead s (sramBase (s.ses n).opened.sqBase + BitVec.toNat (s.reg (Reg.cmdSqHead n)) % (s.ses n).opened.depth * 512) 512).fst.fst else padTo 512 slot)).fst.hdr.seq = s.reg (Reg.cmdNextSeq n) ∧ (packetOf n (if (s.ses n).opened.sqSram = true then (sramRead s (sramBase (s.ses n).opened.sqBase + BitVec.toNat (s.reg (Reg.cmdSqHead n)) % (s.ses n).opened.depth * 512) 512).fst.fst else padTo 512 slot)).snd ≤ 496 ∧ s.inStep = false) :=
  ⟨⟨1, pk 0x101 6 0, doorb s0, by decide +kernel⟩,
    ⟨1, pk 0x101 5 500, doorb s0, by decide +kernel⟩,
    ⟨1, pk 0x999 5 0, doorb s0, by decide +kernel⟩⟩

/-- The hypotheses of `Obligations.CommandPath` are met. -/
theorem wit_CommandPath :
    (∃ (n : Nat) (slot : Bytes) (s : State), s.cmdUp n = true ∧ s.mayFetch n = true ∧ s.reg (Reg.cmdSqHead n) ≠ s.reg (Reg.cmdSqTail n) ∧ (s.ses n).opened.sqSram = false ∧ (packetOf n (padTo 512 slot)).fst.hdr.seq = s.reg (Reg.cmdNextSeq n) ∧ (packetOf n (padTo 512 slot)).snd ≤ 496 ∧ s.inStep = false)
    ∧ (∃ (n : Nat) (s : State) (c : Nat) (p : Nat) (x : Machine.Task) (r : List Machine.Task), s.cmdUp n = true ∧ s.coreIdle c = true ∧ s.nextReady = some p ∧ s.readyList p = x :: r)
    ∧ (∃ (n : Nat) (s : State) (c : Nat) (x : Machine.Task) (f : Flight), s.cmdUp n = true ∧ c < 4 ∧ s.coreTask c = some x ∧ x.ses < 4 ∧ List.find? (fun g => decide (g.seq = x.seq)) (s.ses x.ses).flights = some f ∧ f.phase = TaskPhase.running)
    ∧ (∃ (n : Nat) (q : Word) (s : State) (f : Flight), s.cmdUp n = true ∧ List.find? (fun g => decide (g.seq = q)) (s.ses n).flights = some f ∧ f.phase = TaskPhase.parked ∧ s.depState f = 1)
    ∧ (∃ (n : Nat) (s : State) (f : Flight) (r : Reply) (rest : List Flight), s.cmdUp n = true ∧ (s.ses n).flights = f :: rest ∧ f.phase = TaskPhase.finished ∧ f.reply = some r ∧ r.status ≠ 0 ∧ s.mayRetire n f r = true)
    ∧ (∃ (n : Nat) (s : State) (r : StoredReply), s.cmdUp n = true ∧ (s.ses n).ready = some r ∧ s.mayReply n = true ∧ s.inStep = false ∧ s.byProxy n = false ∧ (s.ses n).opened.cqSram = false ∧ s.inn.resetDue = none)
    ∧ (∃ (n : Nat) (s : State), s.cmdUp n = true ∧ s.mayFetch n = true ∧ (s.ses n).opened.sqSram = false ∧ s.reg (Reg.cmdSqHead n) ≠ s.reg (Reg.cmdSqTail n))
    ∧ (∃ (n : Nat) (s : State) (w : Word) (r : List Word), s.cmdUp n = true ∧ (s.ses n).waiting = w :: r ∧ s.field (Reg.cmdCqCoal n) 31 16 ≠ 0 ∧ seqLe (w + w32 (s.field (Reg.cmdCqCoal n) 31 16)) (s.reg Reg.ptrTick) = true) :=
  ⟨⟨1, pk 0x101 5 0, doorb s0, by decide +kernel⟩,
    ⟨1, s0.setReady 0 [{ses := 1, seq := 5}], (0 : Nat), (0 : Nat), ({ses := 1, seq := 5} : Task), ([] : List Task), by decide +kernel⟩,
    ⟨1, (wf (fl .running none)).setCore 0 (some {ses := 1, seq := 5}), (0 : Nat), ({ses := 1, seq := 5} : Task), fl .running none, by decide +kernel⟩,
    ⟨1, 5, (wf (fl .parked none (some (2, 7)))).setReg (Reg.cmdState 2) 2, fl .parked none (some (2, 7)), by decide +kernel⟩,
    ⟨1, (wf (fl .finished (some {status := 5}))), fl .finished (some {status := 5}), ({status := 5} : Reply), ([] : List Flight), by decide +kernel⟩,
    ⟨1, s0.onSes 1 fun x => { x with replies := [{due := true, reply := {}}] }, ({due := true, reply := {}} : StoredReply), by decide +kernel⟩,
    ⟨1, doorb s0, by decide +kernel⟩,
    ⟨1, (s0.onSes 1 fun x => { x with waiting := [0] }).setReg (Reg.cmdCqCoal 1) 0x10000 |>.setReg Reg.ptrTick 9, (0 : Word), ([] : List Word), by decide +kernel⟩⟩

end E1

/-! ### Witnesses, F1 -/

namespace F1

/-- A device in READY with its host link. -/
def up : State := { State.reset with power := { State.reset.power with mode := .ready, phase := .idle, pcieUp := true, busMaster := true } }
def run : State := { up with power := { up.power with mode := .run } }
def stdby : State := { up with power := { up.power with mode := .standby } }
def eng (s : State) : State := (s.setReg (Reg.ttbState 1) 2).onTmu fun t => { t with period := 9 }
def r0 : StopRec := { kernel := 1, slot := 0xFF, flags := 1, pred := 0xFFFF, deadline := 1000 }
def tab (r : StopRec) (s : State) : State := { eng s with active := [(512 + 4, r)] }
def rl : StopRec := { r0 with deadline := 1 }
def rp : StopRec := { r0 with pred := 3 }
def ri : StopRec := { r0 with input := 1 }
def ru : StopRec := { kernel := 1, slot := 0xFF, flags := 5, pred := 0xFFFF, earliest := 0, deadline := 1000, input := 0x22 }
def lat (s : State) : State := s.setLatch 2 { latest := some {} }
def ax (a : Axis) : State := { run.setAxis 3 a with params := [(3 * 65536, 1)] }

/-- The hypotheses of `Obligations.PeriodInstants` are met. -/
theorem wit_PeriodInstants :
    (∃ (s : State), s.counts = false) :=
  ⟨up.onTmu fun t => {t with boundaries := false}, by decide +kernel⟩

/-- The hypotheses of `Obligations.SequencerVisits` are met. -/
theorem wit_SequencerVisits :
    (∃ (le : Nat) (i : Nat) (r : StopRec) (s : State), s.engineRuns le = true ∧ (s.eng le).main = none ∧ (s.eng le).urgent = none ∧ (s.eng le).ended = false ∧ List.find? (fun x => !x.snd.urgent && decide ((s.eng le).index ≤ x.fst)) (tableOf s.active le) = some (i, r) ∧ s.stopRuns r = true ∧ r.pred ≠ 65535 ∧ r.pred ∈ (s.eng le).dropped)
    ∧ (∃ (le : Nat) (i : Nat) (r : StopRec) (s : State), s.engineRuns le = true ∧ (s.eng le).main = none ∧ (s.eng le).urgent = none ∧ (s.eng le).ended = false ∧ List.find? (fun x => !x.snd.urgent && decide ((s.eng le).index ≤ x.fst)) (tableOf s.active le) = some (i, r) ∧ s.stopRuns r = true ∧ (r.pred = 65535 ∨ ¬r.pred ∈ (s.eng le).dropped) ∧ (if r.input = 9 then fbkExpire ((s.advanceTo (s.cycleNs (max (s.eng le).now (r.earliest * 32)))).fbkCh r.slot) (s.advanceTo (s.cycleNs (max (s.eng le).now (r.earliest * 32)))) else s.advanceTo (s.cycleNs (max (s.eng le).now (r.earliest * 32)))).inputsOf r = none)
    ∧ (∃ (le : Nat) (s : State) (m : Running), s.engineRuns le = true ∧ (s.eng le).main = some m ∧ (s.eng le).preempted = false ∧ m.fin ≤ (s.act (le * 512 + m.stop)).deadline * 32)
    ∧ (∃ (le : Nat) (s : State) (m : Running), s.engineRuns le = true ∧ (s.eng le).main = some m ∧ (s.act (le * 512 + m.stop)).deadline * 32 < m.fin)
    ∧ (∃ (le : Nat) (s : State) (m : Running), s.engineRuns le = true ∧ (s.eng le).urgent = some m ∧ (s.eng le).waiting = [])
    ∧ (∃ (le : Nat) (s : State), s.engineRuns le = true ∧ (s.eng le).ended = true ∧ s.field (Reg.ttbState le) 25 16 ≠ 0) :=
  ⟨⟨1, 4, rp, (tab rp run).setEng 1 {dropped := [3]}, by decide +kernel⟩,
    ⟨1, 4, ri, tab ri run, by decide +kernel⟩,
    ⟨1, (tab r0 run).setEng 1 {main := some ⟨4, 0, 60⟩}, (⟨4, 0, 60⟩ : Running), by decide +kernel⟩,
    ⟨1, (tab rl run).setEng 1 {main := some ⟨4, 0, 60⟩}, (⟨4, 0, 60⟩ : Running), by decide +kernel⟩,
    ⟨1, (tab r0 run).setEng 1 {urgent := some ⟨4, 0, 60⟩}, (⟨4, 0, 60⟩ : Running), by decide +kernel⟩,
    ⟨1, ((tab r0 run).setEng 1 {ended := true}).setReg (Reg.ttbState 1) 0x50006, by decide +kernel⟩⟩

/-- The hypotheses of `Obligations.DropsAreCounted` are met. -/
theorem wit_DropsAreCounted :
    ∃ (le : Nat) (i : Nat) (reason : Nat) (s : State), reason < 3 ∧ (s.act (le * 512 + i)).noSlot = false :=
  ⟨1, 4, 2, tab {r0 with slot := 5} run, by decide +kernel⟩

/-- The hypotheses of `Obligations.AxisEvents` are met. -/
theorem wit_AxisEvents :
    ∃ (n : Nat) (s : State), s.running = true ∧ (s.axis n).state.on = true ∧ 2 ≤ (s.axis n).stale ∧ s.groupOf n = none :=
  ⟨3, (ax {state := .enabled, stale := 2}), by decide +kernel⟩

end F1

/-! ### Witnesses, G1b -/

namespace G1b

def up : State := { State.reset with power := { State.reset.power with mode := .ready, phase := .idle, pcieUp := true, busMaster := true } }
def run : State := { up with power := { up.power with mode := .run } }
def rp (ph : Nat) (x : RingPort) (s : State) : State := (s.setReg (Reg.vlkState 0) (w32 ph)).setPort 0 x
def rp1 (ph : Nat) (x : RingPort) (s : State) : State := (s.setReg (Reg.vlkState 1) (w32 ph)).setPort 1 x
def noIs (s : State) : State := s.setReg Reg.sysCapLive 0x3FFFFEE
def sta : Station := { channels := 2, west := 2, east := 2 }
def up4 : State := rp 4 { stations := [sta] } up
def cls (ph ph1 : Nat) (x y : RingPort) : State := rp1 ph1 { y with cfg := y.cfg ||| 8 } (rp ph { x with cfg := x.cfg ||| 0x14 } up)
def ds : List (Nat × Nat × Nat × Nat) := [(2, 0x22, 1, 2)]
def mkSeg (st ch per : Nat) (ok : Bool) : Bytes := let a := leBytes 2 (st + 32 * ch) ++ zeros 20 ++ (List.replicate 32 7); a ++ leBytes 4 (crc32 (a.take 2 ++ (a.drop 22).take 32) + (if ok then 0 else 1)) ++ leBytes 2 per
def mkFrame (type flags per : Nat) (segs : List Bytes) : Bytes :=
  let h := leBytes 1 type ++ leBytes 1 flags ++ leBytes 2 0 ++ leBytes 4 per ++ zeros 20
  let t := zeros 12
  h ++ leBytes 4 (crc32 h) ++ zeros 224 ++ segs.flatten ++ t ++ leBytes 4 (crc32 t)
def fr (ok : Bool) : Bytes := mkFrame 1 0 0 [mkSeg 0 0 0 true, mkSeg 0 1 0 ok]
def shared : State := (rp 4 { cfg := 0xC, stations := [sta] } up).setReg Reg.pairCfg 1
def bud (s : State) : State := (s.setReg (Reg.vlkBudget 0) 500).setReg (Reg.vlkBudget 1) 500
def hd (h : Head) : State := up4.setHead 0 { h with channels := 2 }
def wa (k : Nat) : HeadCh := { wordA := some (k, [1,2,3,4]), kind := 0, on := true, run := 1 }
def wb (k : Nat) : HeadCh := { wordB := some (k, [1,2,3,4]), kind := 0, on := true, run := 1 }
def ow (k : Nat) : Bytes := let a := leBytes 2 (k * 128) ++ (List.replicate 16 3); a ++ leBytes 4 (crc32 a) ++ zeros 38
def of (fl : Nat) : Bytes := mkFrame 1 fl 9 [ow 0, ow 3]

/-- The hypotheses of `Obligations.RingTraffic` are met. -/
theorem wit_RingTraffic :
    (∃ (p : Nat) (hop : Nat) (a : Byte) (b : Byte) (deskew : Bool) (s : State), s.ringsOn = true ∧ s.ringThere p = true ∧ s.ringPhase p = 1 ∧ hopVersion (if hop = 0 then (BitVec.toNat a).land (if bit (s.port p).cfg 1 = true then 2 else 6) else BitVec.toNat a) (BitVec.toNat b) deskew ≠ 0)
    ∧ (∃ (p : Nat) (hop : Nat) (a : Byte) (b : Byte) (deskew : Bool) (s : State), s.ringsOn = true ∧ s.ringThere p = true ∧ s.ringPhase p = 1 ∧ hopVersion (if hop = 0 then (BitVec.toNat a).land (if bit (s.port p).cfg 1 = true then 2 else 6) else BitVec.toNat a) (BitVec.toNat b) deskew = 0)
    ∧ (∃ (p : Nat) (hop : Nat) (a : Byte) (b : Byte) (deskew : Bool) (s : State), s.ringsOn = true ∧ s.ringThere p = true ∧ s.ringPhase p = 4 ∧ hopVersion (if hop = 0 then (BitVec.toNat a).land (if bit (s.port p).cfg 1 = true then 2 else 6) else BitVec.toNat a) (BitVec.toNat b) deskew ≠ 0 ∧ hop ≤ (s.stationsOf (s.westOf p)).length ∧ p ∈ s.ringPorts (s.westOf p))
    ∧ (∃ (p : Nat) (wrong : Bool) (at_ : Nat) (s : State), s.ringsOn = true ∧ s.ringThere p = true ∧ (s.ringPhase p = 1 ∨ s.ringPhase p = 2) ∧ s.miswired p at_ wrong = true)
    ∧ (∃ (p : Nat) (wrong : Bool) (at_ : Nat) (s : State), s.ringsOn = true ∧ s.ringThere p = true ∧ (s.ringPhase p = 1 ∨ s.ringPhase p = 2) ∧ s.miswired p at_ wrong = false)
    ∧ (∃ (p : Nat) (s : State), s.ringsOn = true ∧ s.ringThere p = true ∧ s.ringPhase p = 3 ∧ (s.stationsOf (s.westOf p)).length ≤ 32)
    ∧ (∃ (p : Nat) (hop : Nat) (s : State), s.ringsOn = true ∧ s.ringThere p = true ∧ hop < 32)
    ∧ (∃ (p : Nat) (s : State), s.ringsOn = true ∧ s.ringThere p = true ∧ 1 ≤ s.ringPhase p ∧ s.ringPhase p ≤ 3)
    ∧ (∃ (p : Nat) (s : State), s.answers 16 p = true ∧ s.power.mode = Mode.ready)
    ∧ (∃ (p : Nat) (s : State), s.answers 16 p = true ∧ s.ringPhase p = 4)
    ∧ (∃ (p : Nat) (ns : Nat) (frame : Bytes) (s : State), s.ringUp p = true ∧ (List.length frame = 272 + 60 * (s.ringChans (s.westOf p)).length ∧ Bytes.num (List.drop (List.length frame - 16) frame) 12 4 = crc32 (List.take 12 (List.drop (List.length frame - 16) frame))) ∧ ns ≤ s.field (Reg.vlkBudget p) 15 0 * 40 ∧ (s.port p).closed = false ∧ (s.port p).arrived = false ∧ (∀ (st : Station), st ∈ s.stationsOf (s.westOf p) → st.channels ≤ 4))
    ∧ (∃ (p : Nat) (ns : Nat) (frame : Bytes) (s : State), s.ringUp p = true ∧ (¬((List.length frame = 272 + 60 * (s.ringChans (s.westOf p)).length ∧ Bytes.num (List.drop (List.length frame - 16) frame) 12 4 = crc32 (List.take 12 (List.drop (List.length frame - 16) frame))) ∧ ns ≤ s.field (Reg.vlkBudget p) 15 0 * 40 ∧ (s.port p).closed = false ∧ (s.port p).arrived = false)))
    ∧ (∃ (p : Nat) (s : State), s.ringUp p = true ∧ (s.port p).closed = false ∧ (s.port p).arrived = false)
    ∧ (∃ (p : Nat) (s : State), s.ringUp p = true ∧ (s.port p).closed = false ∧ (s.port p).arrived = true)
    ∧ (∃ (p : Nat) (i : Nat) (c : Nat) (seg : Bytes) (s : State), s.ringUp p = true ∧ (s.port p).topo = 3 ∧ s.paired = true ∧ (i, c) ∈ s.ringChans p ∧ (s.port p).closed = false ∧ s.segGood seg (i, c) = true ∧ (s.port p).good.find? (4 * i + c) = none)
    ∧ (∃ (p : Nat) (i : Nat) (s : State) (st : Station), s.ringUp p = true ∧ (s.stationsOf (s.westOf p))[i]? = some st ∧ Nat.max 1 (bits (s.port (s.westOf p)).cfg 15 8) ≤ st.bad ∧ i < 32 ∧ bit (s.reg (Reg.vlkLostMap (s.westOf p))) i = false)
    ∧ (∃ (p : Nat) (s : State), s.ringUp p = true ∧ s.inn.update = none ∧ (s.port p).side.busy = true ∧ 64 ≤ (s.port p).side.age)
    ∧ (∃ (p : Nat) (s : State), s.ringUp p = true ∧ (s.port p).side.busy = false ∧ (s.port p).plate.busy = true ∧ 64 ≤ (s.port p).plate.age) :=
  ⟨⟨0, 0, 6, 6, true, rp 1 {} up, by decide +kernel⟩,
    ⟨0, 0, 6, 0, true, rp 1 {} up, by decide +kernel⟩,
    ⟨0, 0, 6, 2, true, up4, by decide +kernel⟩,
    ⟨0, true, 0, rp 2 {} up, by decide +kernel⟩,
    ⟨0, false, 0, rp 1 {} up, by decide +kernel⟩,
    ⟨0, rp 3 {stations := [sta]} up, by decide +kernel⟩,
    ⟨0, 0, rp 1 {} up, by decide +kernel⟩,
    ⟨0, rp 1 {} up, by decide +kernel⟩,
    ⟨0, rp 1 {} up, by decide +kernel⟩,
    ⟨0, up4, by decide +kernel⟩,
    ⟨0, 500, fr true, bud up4, by decide +kernel⟩,
    ⟨0, 500, zeros 100, noIs up4, by decide +kernel⟩,
    ⟨0, noIs up4, by decide +kernel⟩,
    ⟨0, rp 4 { stations := [sta], arrived := true } up, by decide +kernel⟩,
    ⟨0, 0, 0, mkSeg 0 0 0 true, shared, by decide +kernel⟩,
    ⟨0, 0, rp 4 { stations := [{sta with bad := 3}] } up, {sta with bad := 3}, by decide +kernel⟩,
    ⟨0, rp 4 { stations := [sta], side := { busy := true, age := 64, reqs := [zeros 224] } } up, by decide +kernel⟩,
    ⟨0, rp 4 { stations := [sta], plate := { busy := true, age := 64, reqs := [zeros 224] } } up, by decide +kernel⟩⟩

/-- The hypotheses of `Obligations.DriveHeads` are met. -/
theorem wit_DriveHeads :
    (∃ (p : Nat) (i : Nat) (c : Nat) (b : Bool) (frame : Bytes) (s : State), s.hasHead (s.westOf p) i = true ∧ c < s.headChans (s.westOf p) i ∧ (if b = true then (s.head (32 * s.westOf p + i)).loopW else (s.head (32 * s.westOf p + i)).loopE) = true ∧ (¬((frame.num 28 4 = crc32 (List.take 28 frame) ∧ (frame.num 0 1 = 1 ∨ frame.num 0 1 = 2)) ∧ (frame.num 1 1).testBit 2 = true)))
    ∧ (∃ (p : Nat) (i : Nat) (c : Nat) (s : State), s.hasHead (s.westOf p) i = true ∧ c < s.headChans (s.westOf p) i ∧ 2 ≤ ((s.head (32 * s.westOf p + i)).ch c).run)
    ∧ (∃ (p : Nat) (i : Nat) (c : Nat) (s : State), s.hasHead (s.westOf p) i = true ∧ c < s.headChans (s.westOf p) i ∧ 2 ≤ (s.head (32 * s.westOf p + i)).missed)
    ∧ (∃ (p : Nat) (i : Nat) (c : Nat) (s : State), s.hasHead (s.westOf p) i = true ∧ c < s.headChans (s.westOf p) i ∧ (∀ (m : Nat), m < s.headChans (s.westOf p) i → ((s.head (32 * s.westOf p + i)).ch m).kind = 3)) :=
  ⟨⟨0, 0, 0, true, of 1, hd {loopW := true}, by decide +kernel⟩,
    ⟨0, 0, 0, hd {missed := 2, chans := [(0, {wa 1 with run := 2, on := true})]}, by decide +kernel⟩,
    ⟨0, 0, 0, hd {missed := 2, chans := [(0, {wa 1 with run := 2, on := true})]}, by decide +kernel⟩,
    ⟨0, 0, 0, hd {delayW := some 3}, by decide +kernel⟩⟩

end G1b

/-! ### Witnesses, G3q -/

namespace G3q

/-- A device in READY with its host link. -/
def up : State := { State.reset with power := { State.reset.power with mode := .ready, phase := .idle, pcieUp := true, busMaster := true } }
def run : State := { up with power := { up.power with mode := .run } }
def stdby : State := { up with power := { up.power with mode := .standby } }
def lkd (ps : Nat) (s : State) : State := ((s.setReg Reg.pairCfg 1).setReg Reg.pairState (w32 ps)).setReg Reg.pairLink 1
def sb : State := lkd 8 up
def ac : State := lkd 9 up
def opn (s : State) : State := (((s.setReg (Reg.cmdState 1) 0x0102).setSes 1 { opened := { cfg := 0x40041, sqBase := 0x1000, cqBase := 0x2000 } }).setReg (Reg.cmdNextSeq 1) 5).setReg (Reg.cmdRetiredSeq 1) 4
def pk (op seq len : Nat) : Bytes := leBytes 2 op ++ leBytes 2 len ++ leBytes 4 seq ++ leBytes 8 0xFFFF
def hd : Hdr := { ses := 1, seq := 5, target := 0xFFFF }
def fm : Flight := { pkt := { op := 0x101, hdr := hd }, phase := .mirror }
def sr : StoredReply := { seq := 4, op := 0x101, due := true, intent := 1 }
def st1 : Staged := { ses := 1, pkt := { op := 0x401, hdr := hd }, eff := 3 }

/-- The hypotheses of `Obligations.Mirroring` are met. -/
theorem wit_Mirroring :
    (∃ (n : Nat) (slot : Bytes) (s : State), s.cmdUp n = true ∧ bit (s.reg Reg.pairLink) 0 = true ∧ s.standby = true ∧ s.sesState n ≠ 0 ∧ (packetOf n slot).fst.hdr.seq = s.reg (Reg.cmdNextSeq n))
    ∧ (∃ (n : Nat) (seq : Word) (s : State) (f : Flight), s.cmdUp n = true ∧ bit (s.reg Reg.pairLink) 0 = true ∧ s.paired = true ∧ List.find? (fun g => decide (g.seq = seq)) (s.ses n).flights = some f ∧ f.phase = TaskPhase.mirror)
    ∧ (∃ (n : Nat) (seq : Word) (s : State) (f : Flight), s.cmdUp n = true ∧ bit (s.reg Reg.pairLink) 0 = true ∧ s.active? = true ∧ s.inStep = true ∧ s.autoResync = false ∧ (List.find? (fun g => decide (g.seq = seq ∧ g.phase = TaskPhase.mirror)) (s.ses n).flights = some f))
    ∧ (∃ (n : Nat) (s : State), s.cmdUp n = true ∧ bit (s.reg Reg.pairLink) 0 = true ∧ s.standby = true)
    ∧ (∃ (n : Nat) (s : State), s.cmdUp n = true ∧ bit (s.reg Reg.pairLink) 0 = true ∧ s.active? = true)
    ∧ (∃ (n : Nat) (s : State) (r : StoredReply), s.cmdUp n = true ∧ bit (s.reg Reg.pairLink) 0 = true ∧ s.active? = true ∧ s.inStep = true ∧ s.inn.resetDue = none ∧ s.sesState n ≠ 0 ∧ (s.ses n).stuck = false ∧ s.byProxy n = false ∧ (s.ses n).paused = false ∧ (s.ses n).opened.cqSram = false ∧ s.masters = true ∧ s.cqFull n = false ∧ (s.ses n).replies = [r] ∧ r.due = true ∧ r.intent = 1)
    ∧ (∃ (n : Nat) (ver : Byte) (s : State), s.cmdUp n = true ∧ bit (s.reg Reg.pairLink) 0 = true ∧ s.paired = true ∧ s.active? = false ∧ ver ≠ 0)
    ∧ (∃ (n : Nat) (s : State), s.cmdUp n = true ∧ bit (s.reg Reg.pairLink) 0 = true ∧ s.paired = true ∧ s.active? = true)
    ∧ (∃ (n : Nat) (s : State), s.cmdUp n = true ∧ bit (s.reg Reg.pairLink) 0 = true ∧ s.standby = true ∧ s.sesState n ≠ 0 ∧ s.masters = true) :=
  ⟨⟨1, pk 0x101 5 0, opn sb, by decide +kernel⟩,
    ⟨1, 5, (opn ac).onSes 1 fun x => {x with flights := [fm]}, fm, by decide +kernel⟩,
    ⟨1, 5, (opn ac).onSes 1 fun x => {x with flights := [fm]}, fm, by decide +kernel⟩,
    ⟨1, opn sb, by decide +kernel⟩,
    ⟨1, (opn ac).onSes 1 fun x => {x with flights := [fm]}, by decide +kernel⟩,
    ⟨1, (opn ac).onSes 1 fun x => {x with replies := [sr]}, sr, by decide +kernel⟩,
    ⟨1, 0x10, opn sb, by decide +kernel⟩,
    ⟨1, (opn ac).onSes 1 fun x => {x with flights := [fm]}, by decide +kernel⟩,
    ⟨1, opn sb, by decide +kernel⟩⟩

end G3q

/-! ### Witnesses, H1 -/

namespace H1

/-- A device in READY with its host link. -/
def up : State := { State.reset with power := { State.reset.power with mode := .ready, phase := .idle, pcieUp := true, busMaster := true } }
def run : State := { up with power := { up.power with mode := .run } }
def stdby : State := { up with power := { up.power with mode := .standby } }
def lkd (ps : Nat) (s : State) : State := ((s.setReg Reg.pairCfg 1).setReg Reg.pairState (w32 ps)).setReg Reg.pairLink 1
def prec (s : State) : PairingRec := { version := 1, sideB := !s.sideB, id := s.part.id, capLive := s.reg Reg.sysCapLive, capLiveX := s.reg Reg.sysCapLiveX, level := BitVec.ofNat 16 s.pairLevel, ticks := s.field Reg.tmuPeriod 15 0, unlocked := false, timeOfs := 0, dev := 0, lside := (List.range 4).map fun i => s.reg (Reg.pairLside i), inRun := false }
def sb : State := lkd 8 up
def ac : State := lkd 9 up
def prt (s : State) : State := s.onPair fun p => { p with partner := some (prec up) }
def dg (s : State) : State := s.onPair fun p => { p with digest := some (7, 3, [1]) }
def rs (ph k : Nat) (s : State) : State := (s.setReg Reg.pairState (w32 ph)).setReg Reg.pairResync (w32 (256*k))
def dropd (s : State) : State := s.setAxis 3 { dropped := true }
def img : Bytes := leBytes 2 5 ++ zeros 274
def sh : RingPort := { cfg := 0xC, closed := true, stations := [{}] }
def fo (b : Bool) : State := (((sb.setReg (Reg.vlkState 0) 4).setPort 0 { sh with activeSeen := b }).onPair fun p => {p with lostAt := some 3}).onTmu fun t => {t with period := 4}
def clk (s : State) : State := (s.onTmu fun t => {t with ns := 100})
def msg (c f : Nat) : Bytes := let b := leBytes 1 c ++ [0] ++ leBytes 1 0 ++ [0] ++ zeros 4 ++ leBytes 2 250 ++ zeros 22; let m := leBytes 1 1 ++ leBytes 1 32 ++ b; m ++ leBytes 4 (crc32 m + f)
def cap4 (s : State) : State := s.setReg Reg.sysCapLive 0x3FFFFFF
def dieU : State := { cap4 up with die := { up.die with started := true, linkUp := true, lplusOk := true, rearm := true, cmd := 0xFFF7 } }
def lt (l : Latch) (s : State) : State := s.setLatch 2 l
def stp : Stamp := {}

/-- The hypotheses of `Obligations.PairPeriods` are met. -/
theorem wit_PairPeriods :
    (∃ (s : State), s.pairUp = true ∧ s.active? = false)
    ∧ (∃ (per : Word) (dig : Word) (s : State) (o : List (BitVec 16)), s.pairUp = true ∧ s.pair.partner.isSome = true ∧ s.pair.digest = some (per, dig, o))
    ∧ (∃ (per : Word) (dig : Word) (s : State) (o : List (BitVec 16)) (d : Word), s.pairUp = true ∧ s.pair.partner.isSome = true ∧ s.standby = true ∧ s.pair.digest = some (per, d, o) ∧ d ≠ dig)
    ∧ (∃ (n : Nat) (s : State), s.pairUp = true ∧ s.pairPhase = 4 ∧ n < s.part.slots ∧ s.slotDone n = false ∧ s.pair.asked < max 1 (min 16 (s.field Reg.pairCfg 28 24)))
    ∧ (∃ (image : Bytes) (s : State), s.pairUp = true ∧ s.pairPhase = 4 ∧ List.length image = 276 ∧ image.num 0 2 < s.part.slots ∧ s.tmu.ns + 100 ≤ s.tmu.period * s.tBase + s.sealNs)
    ∧ (∃ (s : State), s.pairUp = true ∧ s.active? = true ∧ s.inStep = false)
    ∧ (∃ (s : State), s.pairUp = true ∧ s.standby = true)
    ∧ (∃ (s : State) (o : Word × Word × List (BitVec 16)), s.pairUp = true ∧ s.pair.digest = some o ∧ s.pair.received = false ∧ s.inStep = true ∧ s.pair.missing = 0)
    ∧ (∃ (s : State), s.pairUp = true ∧ s.active? = true ∧ s.resyncPhase = 1 ∧ s.drained = true ∧ s.staged = [])
    ∧ (∃ (s : State), s.pairUp = true ∧ s.active? = true ∧ s.resyncPhase = 2)
    ∧ (∃ (s : State), s.pairUp = true ∧ s.active? = false ∧ s.pairPhase = 3 ∧ s.resyncPhase = 1)
    ∧ (∃ (s : State), s.pairUp = true ∧ s.matched = true)
    ∧ (∃ (s : State), s.pairUp = true ∧ s.pairPhase = 3 ∧ s.resyncPhase ≠ 0)
    ∧ (∃ (k : Nat) (s : State), s.up = true ∧ s.standby = true ∧ s.pair.lostAt = some k ∧ k < s.tmu.period ∧ s.pairPorts ≠ [] ∧ (∀ (p : Nat), p ∈ s.pairPorts → (s.port p).closed = true) ∧ s.activeFrame = true)
    ∧ (∃ (k : Nat) (s : State), s.up = true ∧ s.standby = true ∧ s.pair.lostAt = some k ∧ k < s.tmu.period ∧ s.pairPorts ≠ [] ∧ (∀ (p : Nat), p ∈ s.pairPorts → (s.port p).closed = true) ∧ s.activeFrame = false) :=
  ⟨⟨sb, by decide +kernel⟩,
    ⟨7, 3, dg (prt sb), ([(1 : BitVec 16)]), by decide +kernel⟩,
    ⟨7, 4, dg (prt sb), ([(1 : BitVec 16)]), (3 : Word), by decide +kernel⟩,
    ⟨3, dropd sb, by decide +kernel⟩,
    ⟨img, sb, by decide +kernel⟩,
    ⟨lkd 5 up, by decide +kernel⟩,
    ⟨sb, by decide +kernel⟩,
    ⟨dg (prt sb), ((7 : Word), (3 : Word), [(1 : BitVec 16)]), by decide +kernel⟩,
    ⟨rs 7 1 ac, by decide +kernel⟩,
    ⟨rs 7 2 ac, by decide +kernel⟩,
    ⟨rs 6 1 ac, by decide +kernel⟩,
    ⟨(rs 6 4 ac).onPair fun p => {p with matching := 40}, by decide +kernel⟩,
    ⟨rs 7 1 ac, by decide +kernel⟩,
    ⟨3, fo true, by decide +kernel⟩,
    ⟨3, fo false, by decide +kernel⟩⟩

/-- The hypotheses of `Obligations.ChainPorts` are met. -/
theorem wit_ChainPorts :
    (∃ (msg : Bytes) (s : State), s.answers 18 0 = true ∧ msg.num (msg.num 1 1 + 2) 4 ≠ crc32 (List.take (msg.num 1 1 + 2) msg))
    ∧ (∃ (msg : Bytes) (s : State), s.answers 18 0 = true ∧ List.length msg = 38 ∧ msg.num 1 1 = 32 ∧ msg.num 0 1 = 1 ∧ msg.num 34 4 = crc32 (List.take 34 msg) ∧ s.paired = false ∧ s.shOn (Bytes.num (List.take (msg.num 1 1) (List.drop 2 msg)) 0 1 % 4) = true ∧ s.shOrigin (Bytes.num (List.take (msg.num 1 1) (List.drop 2 msg)) 0 1 % 4) = true ∧ Bytes.num (List.take (msg.num 1 1) (List.drop 2 msg)) 2 1 % 16 = s.dev)
    ∧ (∃ (msg : Bytes) (s : State), s.answers 18 0 = true ∧ List.length msg = 38 ∧ msg.num 1 1 = 32 ∧ msg.num 0 1 = 1 ∧ msg.num 34 4 = crc32 (List.take 34 msg) ∧ s.paired = false ∧ s.shOn (Bytes.num (List.take (msg.num 1 1) (List.drop 2 msg)) 0 1 % 4) = true ∧ s.shOrigin (Bytes.num (List.take (msg.num 1 1) (List.drop 2 msg)) 0 1 % 4) = false ∧ Bytes.num (List.take (msg.num 1 1) (List.drop 2 msg)) 8 2 = s.field Reg.tmuPeriod 15 0 ∧ (s.shaft (Bytes.num (List.take (msg.num 1 1) (List.drop 2 msg)) 0 1 % 4)).held = [])
    ∧ (∃ (up : Bool) (on : Bool) (s : State), s.answers 18 0 = true ∧ bit (s.reg Reg.chnLink) (if up = true then 0 else 1) ≠ on) :=
  ⟨⟨msg 1 1, up, by decide +kernel⟩,
    ⟨msg 1 0, up.setReg (Reg.chnShCfg 1) 3, by decide +kernel⟩,
    ⟨msg 1 0, up.setReg (Reg.chnShCfg 1) 1, by decide +kernel⟩,
    ⟨true, true, up, by decide +kernel⟩⟩

/-- The hypotheses of `Obligations.FieldInputs` are met. -/
theorem wit_FieldInputs :
    (∃ (s : State), s.fieldLinked = true)
    ∧ (∃ (s : State), s.die.linkUp = true)
    ∧ (∃ (s : State), s.die.started = true)
    ∧ (∃ (n : Nat) (s : State), n < 16 ∧ s.die.started = true)
    ∧ (∃ (n : Nat) (s : State), n < 16 ∧ s.die.cmd.getLsbD n = false)
    ∧ (∃ (mv : Nat) (s : State), s.die.started = true ∧ s.die.lplusOk = true ∧ mv < 1750)
    ∧ (∃ (mv : Nat) (s : State), s.die.started = true ∧ s.die.lplusOk = false ∧ 1850 ≤ mv ∧ mv < 65536)
    ∧ (∃ (s : State), s.answers 20 0 = true ∧ s.die.lplusOk = true ∧ s.die.linkUp = true)
    ∧ (∃ (s : State), s.answers 20 0 = true ∧ (s.die.lplusOk = false ∨ s.die.linkUp = false))
    ∧ (∃ (s : State), s.answers 20 0 = true)
    ∧ (∃ (n : Nat) (level : Bool) (s : State), n < 32 ∧ s.answers 14 0 = true ∧ (s.latch n).level = level)
    ∧ (∃ (n : Nat) (level : Bool) (t : Stamp) (s : State), n < 32 ∧ s.answers 14 0 = true ∧ (s.latch n).level ≠ level ∧ s.leads = true ∧ (∀ (a : Nat), (s.latch n).last = some a → a + bits (s.reg (Reg.latChCfg n)) 7 0 * 160 ≤ stampTime t / 2 ^ 30))
    ∧ (∃ (n : Nat) (level : Bool) (t : Stamp) (s : State), n < 32 ∧ s.answers 14 0 = true ∧ (s.latch n).level ≠ level ∧ (∃ a, (s.latch n).last = some a ∧ stampTime t / 2 ^ 30 < a + bits (s.reg (Reg.latChCfg n)) 7 0 * 160))
    ∧ (∃ (n : Nat) (falling : Bool) (slot : Nat) (s : State), n < 32 ∧ s.answers 14 0 = true ∧ s.paired = true ∧ s.active? = false ∧ (s.latch n).slot = some slot ∧ (s.latch n).bound = none ∧ BitVec.getLsbD (s.latch n).mode (if falling = true then 1 else 0) = true ∧ (s.latch n).host.length < 32)
    ∧ (∃ (n : Nat) (falling : Bool) (slot : Nat) (s : State), n < 32 ∧ s.answers 14 0 = true ∧ s.paired = true ∧ s.active? = false ∧ (s.latch n).slot = some slot ∧ (s.latch n).bound = none ∧ BitVec.getLsbD (s.latch n).mode (if falling = true then 1 else 0) = true ∧ 32 ≤ (s.latch n).host.length) :=
  ⟨⟨dieU, by decide +kernel⟩,
    ⟨dieU, by decide +kernel⟩,
    ⟨dieU, by decide +kernel⟩,
    ⟨3, dieU, by decide +kernel⟩,
    ⟨3, dieU, by decide +kernel⟩,
    ⟨1000, dieU, by decide +kernel⟩,
    ⟨1900, {dieU with die := {dieU.die with lplusOk := false}}, by decide +kernel⟩,
    ⟨dieU, by decide +kernel⟩,
    ⟨{dieU with die := {dieU.die with lplusOk := false}}, by decide +kernel⟩,
    ⟨dieU, by decide +kernel⟩,
    ⟨2, false, lt {slot := some 3, mode := 3} sb, by decide +kernel⟩,
    ⟨2, true, stp, up, by decide +kernel⟩,
    ⟨2, true, stp, lt {last := some 7} (up.setReg (Reg.latChCfg 2) 0xFF), by decide +kernel⟩,
    ⟨2, true, 3, lt {slot := some 3, mode := 3} sb, by decide +kernel⟩,
    ⟨2, true, 3, lt {slot := some 3, mode := 3, host := List.replicate 32 {}} sb, by decide +kernel⟩⟩

end H1

/-! ### Witnesses, H2x -/

namespace H2x

/-- A device in READY with its host link. -/
def up : State := { State.reset with power := { State.reset.power with mode := .ready, phase := .idle, pcieUp := true, busMaster := true } }
def run : State := { up with power := { up.power with mode := .run } }
def stdby : State := { up with power := { up.power with mode := .standby } }
def isl (st : Nat) (img : List (Nat × Nat × Nat)) : State :=
  let m := img.foldl (fun m e => Map.setRun (fun _ => 0) m e.1 (leBytes e.2.1 e.2.2)) ([] : Map Byte)
  { up with island := { st := st, committed := m, valid := true } }
/-- A flash whose first copy of the safety image is good. -/
def fl : State :=
  up.onInn fun i => { i with
    flashOk := true
    flash := [(0x1010000, 0xC1), (0x1010001, 0xB7), (0x1010002, 0xFE), (0x1010003, 0x5A)]
      ++ (leBytes 4 3758611630).zipIdx.map fun e => (0x1010000 + 60 + e.2, e.1) }
theorem fl_image : fl.flashImage 0 = some (fl.flashRun 0x1010000 2048) := by decide +kernel
def o1 : State := isl 2 [(0x6C0 + 16 * 1, 1, 1)]
def so (k : Nat) (x : SafeOut) (s : State) : State := s.onIsland fun i => { i with outs := Map.set (fun _ => {}) i.outs k x }
def dieU : State := { up with die := { up.die with started := true } }
def noAx : List (Nat × Nat × Nat) := (List.range 32).map fun a => (0x40 + 48*a, 1, 0xFF)
def ax1 : List (Nat × Nat × Nat) := noAx ++ [(0x40 + 48, 1, 3), (0x40+48+1, 1, 1), (0x40+48+36, 2, 3), (0x40+48+28, 2, 2), (0x40+48+2, 2, 5)]
def sa (x : SafeAx) (s : State) : State := s.setSax 1 x
def oth : State := isl 2 (noAx ++ [(0x640 + 8*2 + 4, 2, 1), (0x6C0+16*2, 1, 2), (0x6C0+16*2+6, 1, 1), (0x6C0+16*2+8, 2, 1), (0x700+32*3, 1, 2), (0x700+32*3+10, 2, 4), (0x700+32*3+12, 1, 4)])
def x1 : State := (oth.onIsland fun i => { i with ins := [(2, {diff := 9})], conns := [(3, {age := 9})], writing := some (1, 5) })
def tel (s : State) (q : Nat) (bad : Nat) : Bytes := let b := leBytes 1 1 ++ [0] ++ leBytes 2 0 ++ leBytes 4 q ++ leBytes 8 5 ++ leBytes 8 (2^64-1-5) ++ zeros 4; b ++ leBytes 4 (s.telCheck 3 b + bad)
def pr : State := isl 2 (noAx ++ [(0x700+32*3, 1, 1), (0x700+32*3+8, 2, 4)])

/-- The hypotheses of `Obligations.IslandLife` are met. -/
theorem wit_IslandLife :
    (∃ (s : State), s.islandOn = true ∧ s.island.st = 0 ∧ s.flashImage 0 = none ∧ s.flashImage 1 = none)
    ∧ (∃ (s : State) (p : Bytes), s.islandOn = true ∧ s.island.st = 0 ∧ s.flashImage 0 = some p)
    ∧ (∃ (s : State), s.islandOn = true ∧ s.island.st = 0)
    ∧ (∃ (res : Bool) (s : State), s.islandOn = true ∧ s.island.st ≠ 0 ∧ s.island.st ≠ 4 ∧ res = true)
    ∧ (∃ (s : State), s.islandOn = true ∧ s.island.st = 1 ∧ s.island.closeAt < 7200000)
    ∧ (∃ (s : State), s.islandOn = true ∧ s.island.st = 4)
    ∧ (∃ (low : Bool) (k : Nat) (s : State), s.islandOn = true ∧ k < 4 ∧ s.island.st = 2 ∧ s.outImg k 0 1 = 1 ∧ (s.sout k).fault = true ∧ (s.sout k).on = false ∧ (s.sout k).low ≠ low)
    ∧ (∃ (s : State), s.islandOn = true ∧ s.die.started = true) :=
  ⟨⟨up, by decide +kernel⟩,
    ⟨fl, _, by decide +kernel, by decide +kernel, fl_image⟩,
    ⟨fl, by decide +kernel⟩,
    ⟨true, o1, by decide +kernel⟩,
    ⟨isl 1 [], by decide +kernel⟩,
    ⟨isl 4 [], by decide +kernel⟩,
    ⟨false, 1, so 1 {fault := true, low := true} o1, by decide +kernel⟩,
    ⟨dieU, by decide +kernel⟩⟩

/-- The hypotheses of `Obligations.IslandEvents` are met. -/
theorem wit_IslandEvents :
    (∃ (n : Nat) (s : State), s.operates = true ∧ n < 16 ∧ 4 * s.inImg n 4 2 < (s.sin n).diff ∧ (s.sin n).disc = false)
    ∧ (∃ (a : Nat) (s : State), s.operates = true ∧ a ∈ s.safeAxes ∧ s.axImg a 2 2 ≠ 65535 ∧ s.axImg a 36 2 ≤ (s.sax a).age1 ∧ (s.sax a).fbFault = false)
    ∧ (∃ (a : Nat) (s : State), s.operates = true ∧ a ∈ s.safeAxes ∧ (s.sax a).stopping = 1 ∧ 4 * s.axImg a 28 2 ≤ (s.sax a).stopT)
    ∧ (∃ (a : Nat) (s : State), s.operates = true ∧ a ∈ s.safeAxes ∧ (s.sax a).stopping = 2 ∧ 4 * s.axImg a 28 2 ≤ (s.sax a).stopT)
    ∧ (∃ (a : Nat) (s : State), s.operates = true ∧ a ∈ s.safeAxes ∧ (s.sax a).stopping = 1 ∧ 4 ≤ (s.sax a).still)
    ∧ (∃ (s : State) (m : Nat) (q : Word), s.operates = true ∧ s.island.writing = some (m, q))
    ∧ (∃ (c : Nat) (s : State), s.operates = true ∧ c < 8 ∧ s.connImg c 0 1 = 1 ∧ ((s.sconn c).first = true ∨ s.connImg c 8 2 ≤ (s.sconn c).age))
    ∧ (∃ (c : Nat) (tel : Bytes) (s : State), s.operates = true ∧ c < 8 ∧ s.connImg c 0 1 = 2 ∧ tel.num 28 4 ≠ s.telCheck c (List.take 28 tel))
    ∧ (∃ (c : Nat) (tel : Bytes) (s : State), s.operates = true ∧ c < 8 ∧ s.connImg c 0 1 = 2 ∧ List.length tel = 32 ∧ tel.num 0 1 = 1 ∧ tel.num 2 2 = s.connImg c 2 2 ∧ tel.num 28 4 = s.telCheck c (List.take 28 tel) ∧ tel.num 16 8 = 2 ^ 64 - 1 - tel.num 8 8 ∧ 1 ≤ BitVec.toNat (tel.word 4 - (s.sconn c).seq) ∧ BitVec.toNat (tel.word 4 - (s.sconn c).seq) ≤ s.connImg c 12 1) :=
  ⟨⟨2, x1, by decide +kernel⟩,
    ⟨1, sa {age1 := 9} (isl 2 ax1), by decide +kernel⟩,
    ⟨1, sa {stopping := 1, stopT := 100, still := 5} (isl 2 ax1), by decide +kernel⟩,
    ⟨1, sa {stopping := 2, stopT := 100, still := 5} (isl 2 ax1), by decide +kernel⟩,
    ⟨1, sa {stopping := 1, stopT := 100, still := 5} (isl 2 ax1), by decide +kernel⟩,
    ⟨x1, (1 : Nat), (5 : Word), by decide +kernel⟩,
    ⟨3, pr, by decide +kernel⟩,
    ⟨3, tel x1 2 1, x1, by decide +kernel⟩,
    ⟨3, tel x1 2 0, x1, by decide +kernel⟩⟩

end H2x

/-! ### Witnesses, T7m -/

namespace T7m

/-- A device in READY with its host link. -/
def up : State := { State.reset with power := { State.reset.power with mode := .ready, phase := .idle, pcieUp := true, busMaster := true } }
def run : State := { up with power := { up.power with mode := .run } }
def stdby : State := { up with power := { up.power with mode := .standby } }
def q (s : State) (b : Bool) : State := s.setFb 2 { act := 1, a := b }
def ser (s : State) (d : Bool) : State := s.setFb 2 { act := 2 + 25*1024, cur := { started := true, done := d } }
def mt0 (s : State) : State := (s.setReg (Reg.fbkMtCfg 2) 1).setMt 2 { seen := true }
def pwm (s : State) : State := s.setReg (Reg.pwmChCfg 3) 1
def ownedS : State := { run with params := [] }

/-- The hypotheses of `Obligations.MemoryAccesses` are met. -/
theorem wit_MemoryAccesses :
    (∃ (le : Nat) (o : Nat) (s : State), s.serves = true ∧ s.up = true ∧ s.engineThere le = true ∧ o < 163840 ∧ o % 4 = 0 ∧ s.tableActive le = false)
    ∧ (∃ (le : Nat) (o : Nat) (s : State), s.serves = true ∧ s.up = true ∧ s.engineThere le = true ∧ o < 163840 ∧ o % 4 = 0 ∧ s.tableActive le = true ∧ o < 131072 ∧ (s.eng le).writeQ.length < 64)
    ∧ (∃ (le : Nat) (o : Nat) (s : State), s.serves = true ∧ s.up = true ∧ s.engineThere le = true ∧ o < 163840 ∧ o % 4 = 0 ∧ s.tableActive le = true ∧ 131072 ≤ o)
    ∧ (∃ (o : Nat) (d : Bytes) (s : State), s.serves = true ∧ s.sramOn = true ∧ s.qspi = false ∧ o % 8 = 0 ∧ o + 8 ≤ sramOwn ∧ List.length d = 8)
    ∧ (∃ (o : Nat) (s : State), s.serves = true ∧ s.sramOn = true ∧ s.qspi = false ∧ o % 8 = 0 ∧ o + 8 ≤ sramOwn ∧ s.sramErr (o / 8) = 0)
    ∧ (∃ (o : Nat) (d : Bytes) (s : State), s.serves = true ∧ s.sramOn = true ∧ s.qspi = false ∧ sramOwn ≤ o ∧ o + List.length d ≤ sramSize ∧ d ≠ [])
    ∧ (∃ (s : State), s.serves = true ∧ s.sramOn = true ∧ s.qspi = false ∧ s.up = true ∧ s.sramFlip = []) :=
  ⟨⟨1, 8, up, by decide +kernel⟩,
    ⟨1, 8, run.setReg (Reg.ttbState 1) 3, by decide +kernel⟩,
    ⟨1, 0x20008, run.setReg (Reg.ttbState 1) 3, by decide +kernel⟩,
    ⟨8, [1,2,3,4,5,6,7,8], up, by decide +kernel⟩,
    ⟨8, up, by decide +kernel⟩,
    ⟨sramOwn, [1,2], up, by decide +kernel⟩,
    ⟨up, by decide +kernel⟩⟩

end T7m

/-! ### Witnesses, T4a -/

namespace T4a

/-- A device in READY with its host link. -/
def up : State := { State.reset with power := { State.reset.power with mode := .ready, phase := .idle, pcieUp := true, busMaster := true } }
def run : State := { up with power := { up.power with mode := .run } }
def stdby : State := { up with power := { up.power with mode := .standby } }
def m : PtpMsg := { port := 0, kind := 11, domain := 0, source := 77, portNo := 1, requester := 0, seqId := 5, twoStep := true, originNs := 10000, rxNs := 500, correction := 4, utcOfs := 37, utcValid := true }
def rx (s : State) : State := s.setReg Reg.tmuCtrl 1
def tx (s : State) : State := (rx s).setReg Reg.tmuPtpCfg (s.reg Reg.tmuPtpCfg ||| 2)
def m9 : PtpMsg := { m with kind := 9, requester := (rx up).clockId }
def dl (t1 : Int) (s : State) : State := s.onTmu fun t => { t with gm := some 77, t1 := some t1, t2 := some 9000, t3 := some 9500, armed := false, ns := 100000 }

/-- The hypotheses of `Obligations.NetworkTime` are met. -/
theorem wit_NetworkTime :
    (∃ (s : State), s.counts = false)
    ∧ (∃ (s : State), bit (s.reg Reg.tmuState) 2 = true)
    ∧ (∃ (s : State), 8 ≤ s.tmu.inRun)
    ∧ (∃ (s : State), s.tmu.inRun < 8 ∧ 8 ≤ s.tmu.outRun)
    ∧ (∃ (s : State), s.ptpRuns = true ∧ s.transmits = true ∧ s.up = true)
    ∧ (∃ (m : PtpMsg) (s : State), s.ptpRuns = true ∧ s.transmits = true ∧ s.up = true ∧ m.port = s.ptpPort ∧ m.domain = s.ptpDomain ∧ m.kind = 1)
    ∧ (∃ (m : PtpMsg) (s : State), (s.ptpRuns = false ∨ m.port ≠ s.ptpPort ∨ m.domain ≠ s.ptpDomain))
    ∧ (∃ (m : PtpMsg) (s : State), s.ptpRuns = true ∧ s.transmits = false ∧ m.port = s.ptpPort ∧ m.domain = s.ptpDomain ∧ m.kind = 11 ∧ s.tmu.gm = none)
    ∧ (∃ (s : State), s.answers 4 0 = true ∧ s.ptpEnabled = false)
    ∧ (∃ (s : State), s.answers 4 0 = true ∧ s.running = true) :=
  ⟨⟨up.onTmu fun t => {t with rho := -200000, boundaries := false}, by decide +kernel⟩,
    ⟨up.setReg Reg.tmuState 4, by decide +kernel⟩,
    ⟨up.onTmu fun t => {t with inRun := 8}, by decide +kernel⟩,
    ⟨(up.onTmu fun t => {t with outRun := 8}).setReg Reg.tmuState 1, by decide +kernel⟩,
    ⟨tx up, by decide +kernel⟩,
    ⟨{m with kind := 1}, tx up, by decide +kernel⟩,
    ⟨m, up, by decide +kernel⟩,
    ⟨m, (rx up).onTmu fun t => {t with rho := -200000, frac := 2^32-1}, by decide +kernel⟩,
    ⟨up, by decide +kernel⟩,
    ⟨run, by decide +kernel⟩⟩

end T4a

/-! ### Witnesses, T4b -/

namespace T4b

/-- A device in READY with its host link. -/
def up : State := { State.reset with power := { State.reset.power with mode := .ready, phase := .idle, pcieUp := true, busMaster := true } }
def run : State := { up with power := { up.power with mode := .run } }
def stdby : State := { up with power := { up.power with mode := .standby } }
def m : PtpMsg := { port := 0, kind := 11, domain := 0, source := 77, portNo := 1, requester := 0, seqId := 5, twoStep := true, originNs := 10000, rxNs := 500, correction := 4, utcOfs := 37, utcValid := true }
def rx (s : State) : State := s.setReg Reg.tmuCtrl 1
def tx (s : State) : State := (rx s).setReg Reg.tmuPtpCfg (s.reg Reg.tmuPtpCfg ||| 2)
def m9 : PtpMsg := { m with kind := 9, requester := (rx up).clockId }
def dl (t1 : Int) (s : State) : State := s.onTmu fun t => { t with gm := some 77, t1 := some t1, t2 := some 9000, t3 := some 9500, armed := false, ns := 100000 }
def dl2 (t : Int) (s : State) : State := s.onTmu fun x => { x with gm := some 77, t1 := some t, t2 := some t, t3 := some t, armed := false, ns := 100000 }


end T4b

/-! ### Witnesses, T3 -/

namespace T3

/-- A device in READY with its host link. -/
def up : State := { State.reset with power := { State.reset.power with mode := .ready, phase := .idle, pcieUp := true, busMaster := true } }
def run : State := { up with power := { up.power with mode := .run } }
def stdby : State := { up with power := { up.power with mode := .standby } }
def fr : CanFrame := ⟨5, false, false, false, false, false, 2, [1,2], 7⟩
def f : EthFrame := { data := [1,2,3], launch := 1000, ch := 20 }
def bc : Bytes := List.replicate 6 0xFF ++ List.replicate 60 7
def eth (s : State) : State := s.setReg (Reg.ethCfg 0) 1
def dsc : Bytes := [5,0,0,0] ++ leBytes 4 2000 ++ leBytes 8 0 ++ leBytes 8 0x123450000 ++ leBytes 8 0x100 ++ zeros 16

/-- The hypotheses of `Obligations.EthernetMacs` are met. -/
theorem wit_EthernetMacs :
    (∃ (m : Nat) (frame : Bytes) (fcs : Bool) (s : State), m < 2 ∧ s.macOn m = true ∧ (fcs = false ∨ ¬(60 ≤ List.length frame ∧ List.length frame ≤ if tagged frame = true then 1518 else 1514)))
    ∧ (∃ (m : Nat) (frame : Bytes) (s : State), m < 2 ∧ s.macOn m = true ∧ (60 ≤ List.length frame ∧ List.length frame ≤ if tagged frame = true then 1518 else 1514) ∧ (¬(etherType frame = [136, 247] ∧ s.ptpPort = m)) ∧ etherType frame ≠ [136, 181] ∧ pauseFrame frame = false ∧ s.ethToHost m frame = true ∧ (s.dch (16 + m)).desc = none)
    ∧ (∃ (m : Nat) (f : EthFrame) (r : List EthFrame) (s : State), m < 2 ∧ s.macOn m = true ∧ (s.mac m).ptp = f :: r)
    ∧ (∃ (m : Nat) (f : EthFrame) (r : List EthFrame) (s : State), m < 2 ∧ s.macOn m = true ∧ (s.mac m).timed = f :: r ∧ s.latestAt m f < s.tmu.ns)
    ∧ (∃ (m : Nat) (up : Bool) (s : State), m < 2 ∧ s.macOn m = true ∧ bit (s.reg (Reg.ethLink m)) 0 ≠ up)
    ∧ (∃ (m : Nat) (up : Bool) (s : State), m < 2 ∧ s.macOn m = true ∧ bit (s.reg (Reg.ethLink m)) 0 = up) :=
  ⟨⟨0, [1], true, eth up, by decide +kernel⟩,
    ⟨0, bc, eth up, by decide +kernel⟩,
    ⟨0, f, [], (eth up).setMac 0 {ptp := [f]}, by decide +kernel⟩,
    ⟨0, f, [], (((eth up).setMac 0 {timed := [f]}).setDch 20 {desc := some dsc, queued := true}).onTmu fun t => {t with ns := 2000}, by decide +kernel⟩,
    ⟨0, true, eth up, by decide +kernel⟩,
    ⟨0, false, eth up, by decide +kernel⟩⟩


end T3

/-! ### Witnesses, T5 -/

namespace T5

/-- A device in READY with its host link. -/
def up : State := { State.reset with power := { State.reset.power with mode := .ready, phase := .idle, pcieUp := true, busMaster := true } }
def run : State := { up with power := { up.power with mode := .run } }
def stdby : State := { up with power := { up.power with mode := .standby } }
def dsc (fl : Nat) (st : Nat) : Bytes := leBytes 1 0 ++ leBytes 1 fl ++ leBytes 1 st ++ leBytes 1 0 ++ leBytes 4 4 ++ leBytes 8 0x1000 ++ leBytes 8 0x123450000 ++ leBytes 8 0x100 ++ zeros 16
def st (ch n : Nat) (s : State) : State := s.setReg (Reg.dmaChState ch) (w32 n)
def bud (s : State) : State := (s.setReg (Reg.dmaChCfg 2) 0x20000)
def fl (d : Bytes) (s : State) : State := s.setDch 2 { desc := some d }
def acq (s : State) : State := (s.setReg Reg.acqState 0x23).onAcq fun a => { a with trigEn := 1, flags := 6, dec := 3 }

/-- The hypotheses of `Obligations.TransferEngines` are met. -/
theorem wit_TransferEngines :
    (∃ (ch : Nat) (s : State), ch < 32 ∧ s.answers 7 0 = true ∧ ch < 22 ∧ (s.dmaState ch = 0 ∨ s.dmaState ch = 4))
    ∧ (∃ (ch : Nat) (s : State), ch < 32 ∧ s.answers 7 0 = true ∧ ch < 22 ∧ s.dmaState ch ≠ 0 ∧ s.dmaState ch ≠ 4)
    ∧ (∃ (ch : Nat) (s : State), ch < 32 ∧ s.answers 7 0 = true ∧ ch < 22 ∧ s.dmaState ch = 1 ∧ (s.dch ch).desc.isSome = true)
    ∧ (∃ (ch : Nat) (s : State), ch < 32 ∧ s.answers 7 0 = true ∧ ch < 22 ∧ (s.dmaState ch = 1 ∧ (s.dch ch).desc = none ∨ s.dmaState ch = 2 ∨ s.dmaState ch = 3))
    ∧ (∃ (ch : Nat) (s : State), ch < 32 ∧ s.answers 7 0 = true ∧ ch < 22 ∧ (s.dmaState ch = 0 ∨ s.dmaState ch = 4 ∨ s.dmaState ch = 5))
    ∧ (∃ (ch : Nat) (s : State), ch < 32 ∧ s.answers 7 0 = true ∧ ch < 22 ∧ s.dmaState ch = 2)
    ∧ (∃ (ch : Nat) (s : State), ch < 32 ∧ s.answers 7 0 = true ∧ ch < 22 ∧ s.dmaState ch ≠ 2)
    ∧ (∃ (ch : Nat) (s : State), ch < 32 ∧ s.answers 7 0 = true ∧ 22 ≤ ch)
    ∧ (∃ (ch : Nat) (s : State), ch < 32 ∧ s.up = true ∧ s.dmaState ch = 2)
    ∧ (∃ (ch : Nat) (d : Bytes) (host : Bytes) (s : State), ch < 32 ∧ s.up = true ∧ (s.dch ch).desc = some d ∧ (s.dch ch).queued = false ∧ dOp d = 0 ∧ dSrcDev d = false ∧ dDstDev d = false ∧ s.masters = true ∧ s.chainDev ch = false ∧ dLen d ≤ List.length host ∧ 0 < dLen d)
    ∧ (∃ (ch : Nat) (s : State), ch < 32 ∧ (s.dch ch).desc = none)
    ∧ (∃ (v : Word) (s : State), s.answers 21 0 = true ∧ BitVec.toNat (v - s.reg Reg.acqRd) ≤ s.acqFill)
    ∧ (∃ (v : Word) (s : State), s.answers 21 0 = true ∧ s.acqFill < BitVec.toNat (v - s.reg Reg.acqRd))
    ∧ (∃ (s : State), s.answers 21 0 = true ∧ s.acqConfigured = false)
    ∧ (∃ (s : State), s.answers 21 0 = true ∧ s.acqConfigured = true ∧ s.acqRunning = true)
    ∧ (∃ (s : State), s.up = true ∧ s.cap 1 = true ∧ bit s.acq.trigEn 0 = true ∧ s.acq.muteEnd ≤ s.inn.uptime ∧ s.acqRunning = true)
    ∧ (∃ (s : State), (s.inn.uptime < s.acq.muteEnd ∨ bit s.acq.trigEn 0 = false))
    ∧ (∃ (s : State), s.acq.rateDue = 0)
    ∧ (∃ (s : State) (l : Nat), s.acq.rateDue ≠ 0 ∧ ↑s.acqLevel + s.acq.rateDue = ↑l ∧ l < 16) :=
  ⟨⟨2, st 2 0 up, by decide +kernel⟩,
    ⟨2, st 2 2 up, by decide +kernel⟩,
    ⟨2, fl (dsc 8 0) (st 2 1 up), by decide +kernel⟩,
    ⟨2, st 2 2 up, by decide +kernel⟩,
    ⟨2, st 2 0 up, by decide +kernel⟩,
    ⟨2, st 2 2 up, by decide +kernel⟩,
    ⟨2, st 2 0 up, by decide +kernel⟩,
    ⟨25, st 2 0 up, by decide +kernel⟩,
    ⟨2, st 2 2 up, by decide +kernel⟩,
    ⟨2, dsc 8 0, dsc 8 0, fl (dsc 8 0) (st 2 1 up), by decide +kernel⟩,
    ⟨2, st 2 0 up, by decide +kernel⟩,
    ⟨0x20, (acq up).setReg Reg.acqWr 0x20, by decide +kernel⟩,
    ⟨5, up, by decide +kernel⟩,
    ⟨up, by decide +kernel⟩,
    ⟨(acq up).setReg Reg.acqWr 0x20, by decide +kernel⟩,
    ⟨(acq up).setReg Reg.acqWr 0x20, by decide +kernel⟩,
    ⟨up, by decide +kernel⟩,
    ⟨up, by decide +kernel⟩,
    ⟨(acq up).onAcq fun a => { a with rateDue := 1 }, (3 : Nat), by decide +kernel⟩⟩

end T5

/-! ### Witnesses, T6 -/

namespace T6

/-- A device in READY with its host link. -/
def up : State := { State.reset with power := { State.reset.power with mode := .ready, phase := .idle, pcieUp := true, busMaster := true } }
def run : State := { up with power := { up.power with mode := .run } }
def stdby : State := { up with power := { up.power with mode := .standby } }
def plate : Bytes :=
  let h := leBytes 4 0xB7A51E01 ++ leBytes 1 1 ++ zeros 119
  h ++ leBytes 4 (crc32 h) ++ zeros 64
def inn (g : Innkeeper → Innkeeper) : State := up.onInn g
def e1 : Event := {}
def wear (w : Wear) : State := (up.onInn fun n => { n with plates := Map.set (fun _ => []) n.plates 0 plate }).setWear 0 1 w
def vs : List Int := [900,900,900,1800,1800,1800,1800,2500,300,300,300,2000]

/-- The hypotheses of `Obligations.InnkeeperEvents` are met. -/
theorem wit_InnkeeperEvents :
    (∃ (s : State), s.serves = false)
    ∧ (∃ (s : State), s.serves = true ∧ s.inn.flashOk = true)
    ∧ (∃ (s : State) (i : Nat) (values : List Int), s.serves = true ∧ values.length = 12 ∧ i < 12)
    ∧ (∃ (s : State), s.serves = true ∧ s.inn.flashOk = true ∧ (s.inn.ledger ++ s.inn.buffer).length ≤ 131072)
    ∧ (∃ (slot : Nat) (part : Nat) (s : State), s.serves = true ∧ part < 4 ∧ (s.wearOf slot part).state = 1 ∧ s.writesPlates = true ∧ identityOk (s.plate (s.platePlace slot (s.wearOf slot part).source (s.wearOf slot part).np)) = true)
    ∧ (∃ (slot : Nat) (part : Nat) (np : Bytes) (s : State), s.serves = true ∧ (s.wearOf slot part).state = 1 ∧ identityOk np = false)
    ∧ (∃ (page : Nat) (copyOk : Bool) (s : State), s.serves = true ∧ s.inn.flashOk = true ∧ (s.hasCopy page = false ∨ copyOk = false))
    ∧ (∃ (s : State) (u : Update), s.serves = true ∧ s.inn.update = some u ∧ u.waiting = none) :=
  ⟨⟨{ up with power := { up.power with mode := .dormant } }, by decide +kernel⟩,
    ⟨inn fun n => {n with flashOk := true}, by decide +kernel⟩,
    ⟨up, 3, vs, by decide +kernel⟩,
    ⟨up.onInn fun n => { n with excess := [(45, 2)], flashOk := true }, by decide +kernel⟩,
    ⟨0, 1, wear { state := 1, used := 77, wseq := 4, ident := plate.take 128 }, by decide +kernel⟩,
    ⟨0, 1, zeros 3, wear { state := 1, used := 77, wseq := 4, ident := zeros 128 }, by decide +kernel⟩,
    ⟨0x2000, false, inn fun n => {n with flashOk := true}, by decide +kernel⟩,
    ⟨inn fun n => {n with flashOk := true, update := some {}, runBank := 1}, ({} : Update), by decide +kernel⟩⟩

end T6

/-! ### Single rules on the numbers of the spec -/

/-- The state behind an access or a command, with nothing else looked at. -/
def after (i : Instr) (s : State) : State := match exec i s with | .next t => t | _ => s

/-- Where six host reads land, the spec's worked example behind R44, on a BX-7064 in `READY`. -/
def sixReads : State := State.setReg { M.up with part := { variant := .bx7064 } } Reg.sysStat 3
theorem test_alias_of_a_read_clear_register :
    let t := after (.readClearRead 0x240 4) sixReads
    t.bus.rdata = [3, 0, 0, 0] ∧ (after (.readClearRead 0x240 4) t).bus.rdata = zeros 4 := by decide +kernel
theorem test_peek_has_no_side_effect :
    let t := after (.readClearRead 0x1044 4) sixReads
    t.bus.rdata = [3, 0, 0, 0] ∧ (after (.readClearRead 0x240 4) t).bus.rdata = [3, 0, 0, 0] := by decide +kernel
theorem test_unaligned_read : (after (.readClearRead 0x42 4) sixReads).bus.rdata = zeros 4 := by decide +kernel
theorem test_absent_instances :
    (after (.readClearRead 0x25000 4) sixReads).bus.rdata = zeros 4 ∧ (after (.readClearRead 0x10D004 4) sixReads).bus.rdata = zeros 4 := by
  decide +kernel

/-- The straps of Wayfarer side A (R79) and the base period they choose. -/
theorem test_cold_start :
    let t := after (.powerOnReset 0x3108) State.reset
    t.reg Reg.sysStrap = 0x3108#32 ∧ t.field Reg.tmuPeriod 15 0 = 250 := by decide +kernel

/-- Channel 0 of the Drover's side guide (R335): r rises at 3.75 µs and falls at 16.25 µs. -/
theorem test_centred_reference :
    let p : Pwm := { per := 8000, cmp := 160000, start := some 0 }
    p.span true = (48000, 208000) ∧ (p.refAt true (64 * 3749)).1 = false ∧ (p.refAt true (64 * 3750)).1 = true
      ∧ (p.refAt true (64 * 16249)).1 = true ∧ (p.refAt true (64 * 16250)).1 = false := by decide +kernel

/-- R129: the low 16 bits of a dependency name the number nearest to the reference, before or after it. -/
theorem test_dependency_wraps :
    extendDep 0x00010002#32 0xFFFF#16 = 0x0000FFFF#32 ∧ extendDep 0x0000FFFE#32 0x0003#16 = 0x00010003#32 := by decide

/-! ### Hypotheses of the other statements -/

/-- The hypotheses of `Obligations.EmptyQueueIdles` are met. -/
theorem wit_EmptyQueueIdles : ∃ s : State, s.pending = [] := ⟨State.reset, rfl⟩

/-- The hypotheses of `Obligations.NoInterruptWaits` are met. -/
theorem wit_NoInterruptWaits : ∃ s t : State, Settled s ∧ step s = .next t :=
  ⟨{ State.reset with pending := [.swiSet 5] }, _, show ∀ n, n < 28 → _ by decide +kernel, rfl⟩

/-- The hypotheses of `Obligations.FailedChecksChangeNothing` are met: a distant effect period, and a reserved flag. -/
theorem wit_FailedChecksChangeNothing :
    (∃ (i : Instr) (op : Nat) (h : Hdr) (p : Bytes) (o : OpSpec) (s : State),
      commandOf i = some (op, h, p) ∧ opSpec op = some o ∧ Clear h p s ∧ (o.yes && s.tooFar h) = true)
    ∧ ∃ (i : Instr) (op : Nat) (h : Hdr) (p : Bytes) (o : OpSpec) (s : State) (st d : Nat),
      commandOf i = some (op, h, p) ∧ opSpec op = some o ∧ Clear h p s ∧ (o.yes && s.tooFar h) = false ∧ st ≠ 0
      ∧ checkCommand o (judged op h p s) { op := op, hdr := h, payload := p } = some (st, d) :=
  ⟨⟨.moveAbs { K.hd 3 with ep := true, effect := 0x200000 } [], _, _, _, opMove, K.rdy, rfl, rfl, clear_of (by decide +kernel), by decide +kernel⟩,
    ⟨.nop { K.hd 0xFFFF with flags := 1 } [], _, _, _, opNop, K.rdy, ST.badFlags, 0, rfl, rfl, clear_of (by decide +kernel),
      by decide +kernel, by decide +kernel, by decide +kernel⟩⟩

/-- The hypotheses of `Obligations.ChecksComeInOrder` are met. -/
theorem wit_ChecksComeInOrder :
    (∃ k : Packet, k.hdr.flags ≠ 0)
    ∧ (∃ (o : OpSpec) (k : Packet), k.hdr.flags = 0 ∧ o.targets k.hdr.target.toNat = false)
    ∧ (∃ (o : OpSpec) (s : State) (k : Packet), k.hdr.flags = 0 ∧ o.targets k.hdr.target.toNat = true ∧ s.part.slots ≤ k.hdr.target.toNat
      ∧ k.hdr.target.toNat < 128)
    ∧ ∃ (o : OpSpec) (s : State) (k : Packet), k.hdr.flags = 0 ∧ o.targets k.hdr.target.toNat = true
      ∧ (k.hdr.target.toNat < s.part.slots ∨ 128 ≤ k.hdr.target.toNat) ∧ ∃ c, o.cap = some c ∧ s.cap c = false :=
  ⟨⟨⟨0, { flags := 1 }, []⟩, by decide⟩,
    ⟨opMove, ⟨0x0401, { target := 0xFFFF }, []⟩, by decide +kernel, by decide +kernel⟩,
    ⟨opMove, { State.reset with part := { variant := .bx7064 } }, ⟨0x0401, { target := 64 }, []⟩, by decide +kernel⟩,
    ⟨opLatchArm, State.reset.setReg Reg.sysCapLive 0, ⟨0x0701, { target := 0 }, []⟩, rfl, by decide +kernel, by decide +kernel, 8, by decide +kernel⟩⟩

/-- The hypotheses of `Obligations.SramStaysCanonical` are met. -/
theorem wit_SramStaysCanonical : ∃ (s t : State), Memory.wf s.sram = true ∧ exec (.sharedSramAccess 8 [some 5] 0 []) s = .next t :=
  ⟨{ M.up with sram := [(3, 7)] }, _, by decide +kernel, rfl⟩

/-- The hypotheses of `Obligations.NetworkFrame` are met. -/
theorem wit_NetworkFrame :
    (∃ s t : State, exec .referenceTick s = .next t)
    ∧ ∃ (c j : Nat) (s t : State), j ≤ 8 ∧ (s.can c).next < 32 ∧ exec (.txDone c j) s = .next t :=
  ⟨⟨M.up, _, rfl⟩, ⟨1, 8, M.up, _, by decide, by decide +kernel, rfl⟩⟩

/-- The hypotheses of `Obligations.TransferFrame` are met. -/
theorem wit_TransferFrame : ∃ (m ch : Nat) (s t : State), ch < 32 ∧ (∀ f ∈ (s.mac m).timed, f.ch < 32) ∧ exec (.kick ch) s = .next t :=
  ⟨1, 31, M.up, _, by decide, by decide +kernel, rfl⟩

/-- The hypotheses of `Obligations.InstrumentFrame` are met. -/
theorem wit_InstrumentFrame :
    (∃ s t : State, exec (.indexEdge 15 true) s = .next t) ∧ (∃ s t : State, exec (.pwmReload 31 true) s = .next t)
    ∧ ∃ s t : State, exec (.pwmTrip 3 true) s = .next t :=
  ⟨⟨M.up, _, rfl⟩, ⟨M.up, _, rfl⟩, ⟨M.up, _, rfl⟩⟩

/-- The hypotheses of `Obligations.ServiceFrame` are met. -/
theorem wit_ServiceFrame : (∃ s t : State, exec (.monitorCrossing 11) s = .next t) ∧ ∃ s t : State, exec .trigSw s = .next t :=
  ⟨⟨M.up, _, rfl⟩, ⟨M.up, _, rfl⟩⟩

/-- A failed second stage, of `Obligations.PowerStates`. -/
theorem wit_PowerStates_failed : ∃ (failed : List Nat) (s : State), s.power.phase = .secondStage ∧ s.power.mode = .standby
    ∧ (s.bootSource.1 = 0 ∨ s.bootSource.1 = 3) ∧ s.power.firstFailed = [] ∧ s.power.secondFailed = []
    ∧ ∃ u, u ∈ failed ∧ 0x40 ≤ u ∧ s.secondUnit u = true :=
  ⟨[0x42], M.boot 0 M.sec, by decide +kernel, by decide +kernel, by decide +kernel, by decide +kernel, by decide +kernel, 0x42, by decide +kernel⟩

/-- A head with a channel that is none of its own kind's image, of `Obligations.DriveHeads`. -/
theorem wit_DriveHeads_kind : ∃ (p i c m : Nat) (s : State), s.hasHead (s.westOf p) i = true ∧ c < s.headChans (s.westOf p) i
    ∧ m < s.headChans (s.westOf p) i ∧ ((s.head (32 * s.westOf p + i)).ch m).kind ≠ 3 :=
  ⟨0, 0, 0, 0, M.hd { chans := [(0, { kind := 0 }), (1, { kind := 0 })] }, by decide +kernel⟩

namespace N

def acqOf (n : Nat) : Bytes := leBytes 1 n ++ K.acqB.drop 1
/-- The Active of a pair whose Standby is out of step. -/
def outStep : State := K.paird 11 K.rdy
def second : State := M.pw (fun p => { p with mode := .standby, phase := .secondStage }) M.up
def cutNow : State := (M.pw (fun p => { p with phase := .drain, cut := true }) M.up).setDch 0 { desc := some [] }
def halves : State := G1b.rp 19 { cfg := 0xC, stations := [G1b.sta], measured := true, cable := 60, hopVer := [(0, 2)] } G1b.up
/-- A device without a role that listens from period 0. -/
def listens (heard : Bool) : State := M.pq.onPair fun p => { p with listen := some 0, heard := heard }
def asked : State := (M.dl2 8000 (M.rx M.up)).onTmu fun t => { t with delaySeq := 5 }

/-- The hypotheses of further clauses of `Obligations.UnitAndTimeCommands` are met. -/
theorem wit_UnitAndTimeCommands :
    (∃ (h : Hdr) (p : Bytes) (s : State), (Clear h p s) ∧ (Passes opAcqConfig 2561 h p s) ∧ (p.num 0 1 ≠ s.sideNo) ∧ (s.acqThere { op := 2561, hdr := h, payload := p } = false))
    ∧ (∃ (h : Hdr) (p : Bytes) (s : State), (Clear h p s) ∧ (Passes opAcqConfig 2561 h p s) ∧ (s.acqThere { op := 2561, hdr := h, payload := p } = true)) :=
  ⟨⟨K.D, acqOf 1, K.rdy, clear_of (by decide +kernel), passes_of (by decide +kernel), by decide +kernel, by decide +kernel⟩,
    ⟨K.D, acqOf 2, outStep, clear_of (by decide +kernel), passes_of (by decide +kernel), by decide +kernel⟩⟩

/-- The hypotheses of further clauses of `Obligations.PowerStates` are met. -/
theorem wit_PowerStates :
    (∃ (failed : List Nat) (s : State), (s.power.phase = Phase.secondStage) ∧ (s.power.mode = Mode.standby) ∧ (s.bootSource.fst = 0 ∨ s.bootSource.fst = 3) ∧ (s.power.firstFailed = []) ∧ (s.power.secondFailed = []) ∧ (∃ u, u ∈ failed ∧ 64 ≤ u ∧ s.secondUnit u = true))
    ∧ (∃ (ok : Bool) (s : State), (s.power.phase = Phase.drain) ∧ (s.drained = true ∨ ok = true ∨ s.power.cut = true) ∧ (s.dmaBusy = true))
    ∧ (∃ (s : State) (ch : Nat), (s.power.phase = Phase.drain) ∧ (s.power.cut = true) ∧ (ch < 32)) :=
  ⟨⟨[0x42], second, by decide +kernel⟩,
    ⟨false, cutNow, by decide +kernel⟩,
    ⟨cutNow, (0 : Nat), by decide +kernel⟩⟩

/-- The hypotheses of further clauses of `Obligations.PeriodInstants` are met. -/
theorem wit_PeriodInstants :
    (∃ (s : State), (s.counts = false ∨ s.up = false ∨ s.tmu.sealed = true))
    ∧ (∃ (s : State), (s.pair.swDue = false))
    ∧ (∃ (i : Nat) (l : List Nat) (s : State), (s.serves = true) ∧ (s.sampleDue = i :: l))
    ∧ (∃ (i : Nat) (l : List Nat) (s : State), (s.serves = true) ∧ (s.sampleDue = i :: l))
    ∧ (∃ (s : State), (s.serves = true) ∧ (s.sampleDue = [8]))
    ∧ (∃ (s : State), (s.serves = false ∨ s.sampleDue = [])) :=
  ⟨⟨(M.run.onTmu fun t => { t with sealed := true }), by decide +kernel⟩,
    ⟨M.up, by decide +kernel⟩,
    ⟨0, [8], (M.rp 4 {} M.up), by decide +kernel⟩,
    ⟨0, [8], (M.rp 4 {} M.up), by decide +kernel⟩,
    ⟨M.stdby, by decide +kernel⟩,
    ⟨((M.rp 4 {} M.up).onTmu fun t => { t with sampled := [0, 8] }), by decide +kernel⟩⟩

/-- The hypotheses of further clauses of `Obligations.SequencerVisits` are met. -/
theorem wit_SequencerVisits :
    (∃ (le : Nat) (i : Nat) (r : StopRec) (s : State) (inp : List Word), (s.engineRuns le = true) ∧ ((s.eng le).main = none ∧ (s.eng le).urgent = none ∧ (s.eng le).ended = false) ∧ (List.find? (fun x => !x.snd.urgent && decide ((s.eng le).index ≤ x.fst)) (tableOf s.active le) = some (i, r)) ∧ (s.stopRuns r = true) ∧ (r.pred = 65535 ∨ ¬r.pred ∈ (s.eng le).dropped) ∧ ((if r.input = 9 then fbkExpire ((s.advanceTo (s.cycleNs (max (s.eng le).now (r.earliest * 32)))).fbkCh r.slot) (s.advanceTo (s.cycleNs (max (s.eng le).now (r.earliest * 32)))) else s.advanceTo (s.cycleNs (max (s.eng le).now (r.earliest * 32)))).inputsOf r = some inp) ∧ (r.deadline * 32 < max (s.eng le).now (r.earliest * 32) + (if r.input = 9 then fbkExpire ((s.advanceTo (s.cycleNs (max (s.eng le).now (r.earliest * 32)))).fbkCh r.slot) (s.advanceTo (s.cycleNs (max (s.eng le).now (r.earliest * 32)))) else s.advanceTo (s.cycleNs (max (s.eng le).now (r.earliest * 32)))).wcet le r))
    ∧ (∃ (le : Nat) (i : Nat) (r : StopRec) (s : State) (inp : List Word), (s.engineRuns le = true) ∧ ((s.eng le).main = none ∧ (s.eng le).urgent = none ∧ (s.eng le).ended = false) ∧ (List.find? (fun x => !x.snd.urgent && decide ((s.eng le).index ≤ x.fst)) (tableOf s.active le) = some (i, r)) ∧ (s.stopRuns r = true) ∧ (r.pred = 65535 ∨ ¬r.pred ∈ (s.eng le).dropped) ∧ ((if r.input = 9 then fbkExpire ((s.advanceTo (s.cycleNs (max (s.eng le).now (r.earliest * 32)))).fbkCh r.slot) (s.advanceTo (s.cycleNs (max (s.eng le).now (r.earliest * 32)))) else s.advanceTo (s.cycleNs (max (s.eng le).now (r.earliest * 32)))).inputsOf r = some inp) ∧ (max (s.eng le).now (r.earliest * 32) + (if r.input = 9 then fbkExpire ((s.advanceTo (s.cycleNs (max (s.eng le).now (r.earliest * 32)))).fbkCh r.slot) (s.advanceTo (s.cycleNs (max (s.eng le).now (r.earliest * 32)))) else s.advanceTo (s.cycleNs (max (s.eng le).now (r.earliest * 32)))).wcet le r ≤ r.deadline * 32))
    ∧ (∃ (le : Nat) (s : State), (s.engineRuns le = false ∨ ¬((s.eng le).main = none ∧ (s.eng le).urgent = none ∧ (s.eng le).ended = false)))
    ∧ (∃ (le : Nat) (i : Nat) (s : State), (s.engineRuns le = true) ∧ ((s.act (le * 512 + i)).urgent = true) ∧ (s.stopRuns (s.act (le * 512 + i)) = true) ∧ (¬((s.act (le * 512 + i)).kernel = 96 ∧ 32 ≤ (s.act (le * 512 + i)).input ∧ (s.act (le * 512 + i)).input < 64)) ∧ (i ∈ (s.eng le).fired ∨ (s.tmu.ns - s.tmu.period * s.tBase) * 4 / 5 < (s.act (le * 512 + i)).earliest * 32 ∨ (s.act (le * 512 + i)).deadline * 32 ≤ (s.tmu.ns - s.tmu.period * s.tBase) * 4 / 5))
    ∧ (∃ (le : Nat) (i : Nat) (s : State), (s.engineRuns le = true) ∧ ((s.act (le * 512 + i)).urgent = true) ∧ (s.stopRuns (s.act (le * 512 + i)) = true) ∧ ((s.act (le * 512 + i)).kernel = 96 ∧ 32 ≤ (s.act (le * 512 + i)).input ∧ (s.act (le * 512 + i)).input < 64) ∧ (i ∈ (s.eng le).fired))
    ∧ (∃ (le : Nat) (i : Nat) (s : State) (inp : List Word), (s.engineRuns le = true) ∧ ((s.act (le * 512 + i)).urgent = true) ∧ (s.stopRuns (s.act (le * 512 + i)) = true) ∧ (¬i ∈ (s.eng le).fired) ∧ ((s.act (le * 512 + i)).kernel = 96 ∧ 32 ≤ (s.act (le * 512 + i)).input ∧ (s.act (le * 512 + i)).input < 64 ∨ (s.act (le * 512 + i)).earliest * 32 ≤ (s.tmu.ns - s.tmu.period * s.tBase) * 4 / 5 ∧ (s.tmu.ns - s.tmu.period * s.tBase) * 4 / 5 < (s.act (le * 512 + i)).deadline * 32) ∧ ((if (s.act (le * 512 + i)).kernel = 96 ∧ 32 ≤ (s.act (le * 512 + i)).input ∧ (s.act (le * 512 + i)).input < 64 then (s.act (le * 512 + i)).earliest * 32 else (s.tmu.ns - s.tmu.period * s.tBase) * 4 / 5) + s.wcet le (s.act (le * 512 + i)) ≤ (s.act (le * 512 + i)).deadline * 32) ∧ ((s.act (le * 512 + i)).pred = 65535) ∧ ((s.eng le).urgent = none) ∧ ((s.eng le).main = none) ∧ ((urgentInputs (s.act (le * 512 + i)) s).fst = some inp)) :=
  ⟨⟨1, 4, F1.rl, (F1.tab F1.rl F1.run), (List.replicate 8 (0 : Word)), by decide +kernel⟩,
    ⟨1, 4, F1.r0, (F1.tab F1.r0 F1.run), (List.replicate 8 (0 : Word)), by decide +kernel⟩,
    ⟨1, F1.up, by decide +kernel⟩,
    ⟨1, 4, (((F1.tab F1.ru (F1.lat F1.run)).onTmu fun t => { t with ns := 90000 }).setEng 1 { fired := [4] }), by decide +kernel⟩,
    ⟨1, 4, (((M.tab M.ur (M.par [(0, 1)] (M.lat M.run))).setAxis 3 { state := .enabled }).setEng 1 { fired := [4] }), by decide +kernel⟩,
    ⟨1, 4, ((F1.tab F1.ru (F1.lat F1.run)).onTmu fun t => { t with ns := 90000 }), (({} : LatchRec).words 2), by decide +kernel⟩⟩

/-- The hypotheses of further clauses of `Obligations.RingTraffic` are met. -/
theorem wit_RingTraffic :
    (∃ (p : Nat) (s : State), (s.ringsOn = true) ∧ (s.ringThere p = true) ∧ (s.ringReady (s.westOf p) = true) ∧ (s.halvesJoin (s.westOf p) = false))
    ∧ (∃ (p : Nat) (s : State), (s.ringsOn = true) ∧ (s.ringThere p = true) ∧ (s.ringReady (s.westOf p) = true) ∧ (s.halvesJoin (s.westOf p) = true) ∧ (s.ringPhase (s.westOf p) ≠ 4)) :=
  ⟨⟨0, halves, by decide +kernel⟩,
    ⟨0, (G1b.rp 3 { stations := [G1b.sta], measured := true, cable := 60, hopVer := [(0, 2)] } G1b.up), by decide +kernel⟩⟩

/-- The hypotheses of further clauses of `Obligations.DriveHeads` are met. -/
theorem wit_DriveHeads :
    (∃ (p : Nat) (i : Nat) (c : Nat) (s : State), (s.hasHead (s.westOf p) i = true) ∧ (c < s.headChans (s.westOf p) i) ∧ (∃ m, m < s.headChans (s.westOf p) i ∧ ((s.head (32 * s.westOf p + i)).ch m).kind ≠ 3)) :=
  ⟨0, 0, 0, (M.hd { chans := [(0, { kind := 0 }), (1, { kind := 0 })] }), by decide +kernel⟩

/-- The hypotheses of further clauses of `Obligations.PairingAndRoles` are met. -/
theorem wit_PairingAndRoles :
    (∃ (s : State), (s.up = true) ∧ (s.paired = true) ∧ (s.answers 17 0 = true) ∧ (s.roleless = true))
    ∧ (∃ (s : State), (s.up = true) ∧ (s.paired = true) ∧ (s.answers 17 0 = true) ∧ (s.roleless = false))
    ∧ (∃ (s : State), (s.up = true) ∧ (s.paired = true) ∧ (s.power.mode = Mode.ready) ∧ (s.sideB = false) ∧ (bit (s.reg Reg.pairCfg) 2 = true) ∧ (s.roleless = true) ∧ (s.pairPhase ≠ 6) ∧ (s.pair.listen = none))
    ∧ (∃ (s : State) (k : Nat) (l : Nat), (s.up = true) ∧ (s.paired = true) ∧ (s.roleless = true) ∧ (s.pair.listen = some l) ∧ (k < l + 2))
    ∧ (∃ (s : State) (k : Nat) (l : Nat), (s.up = true) ∧ (s.paired = true) ∧ (s.roleless = true) ∧ (s.pair.listen = some l) ∧ (k < l + 2))
    ∧ (∃ (s : State) (k : Nat) (l : Nat), (s.up = true) ∧ (s.paired = true) ∧ (s.roleless = true) ∧ (s.pair.listen = some l) ∧ (k < l + 2))
    ∧ (∃ (s : State) (k : Nat) (l : Nat), (s.up = true) ∧ (s.paired = true) ∧ (s.roleless = true) ∧ (s.pair.listen = some l) ∧ (l + 2 ≤ k) ∧ (¬(s.pair.heard || s.activeFrame) = true))
    ∧ (∃ (s : State) (k : Nat) (l : Nat), (s.up = true) ∧ (s.paired = true) ∧ (s.roleless = true) ∧ (s.pair.listen = some l) ∧ (l + 2 ≤ k) ∧ (¬(s.pair.heard || s.activeFrame) = true))
    ∧ (∃ (s : State) (k : Nat) (l : Nat), (s.up = true) ∧ (s.paired = true) ∧ (s.roleless = true) ∧ (s.pair.listen = some l) ∧ (l + 2 ≤ k) ∧ (¬(s.pair.heard || s.activeFrame) = true))
    ∧ (∃ (s : State) (k : Nat) (l : Nat), (s.up = true) ∧ (s.paired = true) ∧ (s.roleless = true) ∧ (s.pair.listen = some l) ∧ (l + 2 ≤ k) ∧ ((s.pair.heard || s.activeFrame) = true))
    ∧ (∃ (s : State) (k : Nat) (l : Nat), (s.up = true) ∧ (s.paired = true) ∧ (s.roleless = true) ∧ (s.pair.listen = some l) ∧ (l + 2 ≤ k) ∧ ((s.pair.heard || s.activeFrame) = true))
    ∧ (∃ (s : State) (k : Nat) (l : Nat), (s.up = true) ∧ (s.paired = true) ∧ (s.roleless = true) ∧ (s.pair.listen = some l) ∧ (l + 2 ≤ k) ∧ ((s.pair.heard || s.activeFrame) = true))
    ∧ (∃ (s : State) (k : Nat) (l : Nat), (s.up = true) ∧ (s.paired = true) ∧ (s.roleless = true) ∧ (s.pair.listen = some l) ∧ (l + 2 ≤ k) ∧ ((s.pair.heard || s.activeFrame) = true)) :=
  ⟨⟨(M.pr M.up), by decide +kernel⟩,
    ⟨(M.sbk), by decide +kernel⟩,
    ⟨(M.pq.setField Reg.pairCfg 2 2 1), by decide +kernel⟩,
    ⟨(listens false), 1, 0, by decide +kernel⟩,
    ⟨(listens false), 1, 0, by decide +kernel⟩,
    ⟨(listens false), 1, 0, by decide +kernel⟩,
    ⟨(listens false), 2, 0, by decide +kernel⟩,
    ⟨(listens false), 2, 0, by decide +kernel⟩,
    ⟨(listens false), 2, 0, by decide +kernel⟩,
    ⟨(listens true), 2, 0, by decide +kernel⟩,
    ⟨(listens true), 2, 0, by decide +kernel⟩,
    ⟨(listens true), 2, 0, by decide +kernel⟩,
    ⟨(listens true), 2, 0, by decide +kernel⟩⟩

/-- The hypotheses of further clauses of `Obligations.Mirroring` are met. -/
theorem wit_Mirroring :
    (∃ (n : Nat) (slot : Bytes) (s : State), (s.cmdUp n = true) ∧ (bit (s.reg Reg.pairLink) 0 = true) ∧ (s.pairUp = true) ∧ (s.active? = false) ∧ (s.inStep = false) ∧ ((packetOf n slot).fst.op = 3331))
    ∧ (∃ (n : Nat) (slot : Bytes) (s : State) (o : OpSpec), (s.cmdUp n = true) ∧ (bit (s.reg Reg.pairLink) 0 = true) ∧ (s.pairUp = true) ∧ (s.active? = false) ∧ (s.inStep = false) ∧ (s.inn.resetDue = none) ∧ ((packetOf n slot).fst.op = 2561) ∧ (s.serves? 2561 = some o) ∧ ((interpret s { pkt := (packetOf n slot).fst }).status ≠ 0))
    ∧ (∃ (n : Nat) (slot : Bytes) (s : State) (o : OpSpec), (s.cmdUp n = true) ∧ (bit (s.reg Reg.pairLink) 0 = true) ∧ (s.pairUp = true) ∧ (s.active? = false) ∧ (s.inStep = false) ∧ (s.inn.resetDue = none) ∧ ((packetOf n slot).fst.op = 2561) ∧ (s.serves? 2561 = some o) ∧ ((interpret s { pkt := (packetOf n slot).fst }).status = 0) ∧ ((packetOf n slot).fst.payload.num 0 1 = s.sideNo))
    ∧ (∃ (n : Nat) (w : Intent) (s : State) (r : StoredReply), (s.cmdUp n = true) ∧ (bit (s.reg Reg.pairLink) 0 = true) ∧ (s.standby = true) ∧ (s.sesState n ≠ 0) ∧ (s.inn.resetDue = none) ∧ (List.find? (fun q => q.due && decide (q.seq = w.seq)) (s.ses n).replies = some r))
    ∧ (∃ (n : Nat) (w : Intent) (s : State), (s.cmdUp n = true) ∧ (bit (s.reg Reg.pairLink) 0 = true) ∧ (s.standby = true) ∧ (s.sesState n ≠ 0) ∧ (s.inn.resetDue = none) ∧ (∀ (r : StoredReply), r ∈ (s.ses n).replies → r.seq = w.seq → r.due = false))
    ∧ (∃ (n : Nat) (s : State), (s.cmdUp n = true) ∧ (bit (s.reg Reg.pairLink) 0 = true) ∧ (s.byProxy n = true) ∧ (s.mayTake n = true) ∧ (s.reg (Reg.cmdSqHead n) ≠ s.reg (Reg.cmdSqTail n))) :=
  ⟨⟨1, (G3q.pk 0xD03 5 0), (G3q.lkd 10 G3q.up), by decide +kernel⟩,
    ⟨1, (G3q.pk 0xA01 5 0), (G3q.lkd 10 G3q.up), _, by decide +kernel, by decide +kernel, by decide +kernel, by decide +kernel, by decide +kernel, by decide +kernel, by decide +kernel, rfl, by decide +kernel⟩,
    ⟨1, (G3q.pk 0xA01 5 48 ++ acqOf 1), (G3q.lkd 10 K.rdy), _, by decide +kernel, by decide +kernel, by decide +kernel, by decide +kernel, by decide +kernel, by decide +kernel, by decide +kernel, rfl, by decide +kernel, by decide +kernel⟩,
    ⟨1, ⟨0, 4⟩, ((G3q.opn G3q.sb).onSes 1 fun x => { x with replies := [G3q.sr] }), G3q.sr, by decide +kernel⟩,
    ⟨1, ⟨0, 5⟩, ((G3q.opn G3q.sb).onSes 1 fun x => { x with replies := [G3q.sr] }), by decide +kernel⟩,
    ⟨1, (((G3q.opn G3q.ac).onSes 1 fun x => { x with paused := true }).setReg (Reg.cmdSqTail 1) 1), by decide +kernel⟩⟩

/-- The hypotheses of further clauses of `Obligations.IslandLife` are met. -/
theorem wit_IslandLife :
    (∃ (s : State), (s.islandOn = true) ∧ (s.island.st = 1) ∧ (s.island.valid = false) ∧ (s.island.closeAt < 7200000))
    ∧ (∃ (low : Bool) (k : Nat) (s : State), (s.islandOn = true) ∧ (k < 4) ∧ (s.island.st = 2) ∧ (s.outImg k 0 1 = 1) ∧ ((s.sout k).fault = false) ∧ (s.pulseDue k low = true ∨ (s.sout k).on = false))
    ∧ (∃ (low : Bool) (k : Nat) (s : State), (s.islandOn = true) ∧ (k < 4) ∧ (s.island.st = 2) ∧ (s.outImg k 0 1 = 1) ∧ ((s.sout k).on = true) ∧ (s.pulseDue k low = true))
    ∧ (∃ (low : Bool) (k : Nat) (s : State), (s.islandOn = true) ∧ (k < 4) ∧ (s.island.st = 2) ∧ (s.outImg k 0 1 = 1) ∧ ((s.sout k).on = true) ∧ (s.pulseDue k low = false)) :=
  ⟨⟨((H2x.isl 1 []).onIsland fun i => { i with valid := false }), by decide +kernel⟩,
    ⟨false, 1, H2x.o1, by decide +kernel⟩,
    ⟨false, 1, (H2x.so 1 { hi := true, lo := true } (H2x.isl 2 [(0x6D0, 1, 1), (0x6D1, 1, 1)])), by decide +kernel⟩,
    ⟨false, 1, (H2x.so 1 { hi := true, lo := true } H2x.o1), by decide +kernel⟩⟩

/-- The hypotheses of further clauses of `Obligations.IslandEvents` are met. -/
theorem wit_IslandEvents :
    (∃ (a : Nat) (s : State), (s.operates = true) ∧ (a ∈ s.safeAxes) ∧ ((s.sax a).stopping = 2) ∧ (4 ≤ (s.sax a).still))
    ∧ (∃ (k : Nat) (s : State), (s.operates = true) ∧ (k < 4) ∧ ((s.sout k).braking = true) ∧ (∀ (j : Nat), j ∈ s.brakesOf k → 4 * s.outImg j 8 2 ≤ (s.sout k).brake))
    ∧ (∃ (c : Nat) (s : State), (s.operates = true) ∧ (c < 8) ∧ (s.connImg c 0 1 = 2) ∧ ((s.sconn c).told = false) ∧ (s.connImg c 10 2 ≤ (s.sconn c).age) ∧ (s.pairImage = false))
    ∧ (∃ (s : State) (m : Nat) (q : Word), (s.operates = true) ∧ (s.island.writing = some (m, q)) ∧ (s.island.commit = none))
    ∧ (∃ (s : State) (m : Nat) (q : Word) (p : Bytes), (s.operates = true) ∧ (s.island.writing = some (m, q)) ∧ (s.island.commit = some p)) :=
  ⟨⟨1, (H2x.sa { stopping := 2, stopT := 100, still := 5 } (H2x.isl 2 H2x.ax1)), by decide +kernel⟩,
    ⟨1, (H2x.so 1 { braking := true, brake := 9 } H2x.x1), by decide +kernel⟩,
    ⟨3, H2x.x1, by decide +kernel⟩,
    ⟨H2x.x1, 1, 5, by decide +kernel⟩,
    ⟨(H2x.x1.onIsland fun i => { i with commit := some [1] }), 1, 5, [1], by decide +kernel⟩⟩

/-- The hypotheses of further clauses of `Obligations.FeedbackCounts` are met. -/
theorem wit_FeedbackCounts :
    (∃ (n : Nat) (a : Bool) (b : Bool) (s : State), (n < 8) ∧ (bit (s.reg (Reg.fbkMtCfg n)) 0 = true) ∧ (bit (s.reg Reg.pwrClk) 1 = true) ∧ ((s.mt n).seen = true) ∧ ((quadPlace a (b != bit (s.reg (Reg.fbkMtCfg n)) 4) + 4 - quadPlace (s.mt n).a ((s.mt n).b != bit (s.reg (Reg.fbkMtCfg n)) 4)) % 4 = 1))
    ∧ (∃ (n : Nat) (a : Bool) (b : Bool) (s : State), (n < 8) ∧ (bit (s.reg (Reg.fbkMtCfg n)) 0 = true) ∧ (bit (s.reg Reg.pwrClk) 1 = true) ∧ ((s.mt n).seen = true) ∧ ((quadPlace a (b != bit (s.reg (Reg.fbkMtCfg n)) 4) + 4 - quadPlace (s.mt n).a ((s.mt n).b != bit (s.reg (Reg.fbkMtCfg n)) 4)) % 4 = 3))
    ∧ (∃ (n : Nat) (a : Bool) (b : Bool) (s : State), (n < 8) ∧ (bit (s.reg (Reg.fbkMtCfg n)) 0 = true) ∧ (bit (s.reg Reg.pwrClk) 1 = true) ∧ ((s.mt n).seen = true) ∧ ((quadPlace a (b != bit (s.reg (Reg.fbkMtCfg n)) 4) + 4 - quadPlace (s.mt n).a ((s.mt n).b != bit (s.reg (Reg.fbkMtCfg n)) 4)) % 4 = 2)) :=
  ⟨⟨2, true, false, M.mtS, by decide +kernel⟩,
    ⟨2, false, true, M.mtS, by decide +kernel⟩,
    ⟨2, true, true, M.mtS, by decide +kernel⟩⟩

/-- The hypotheses of further clauses of `Obligations.PwmOutputs` are met. -/
theorem wit_PwmOutputs :
    (∃ (ch : Nat) (cut : Bool) (s : State), (s.answers 11 0 = true) ∧ (ch < 32) ∧ (∀ (x : Nat × Bool), s.pwmNext ch = some x → x.snd ≠ cut ∨ 64 * ((s.tmu.period + 1) * s.tBase) ≤ x.fst)) :=
  ⟨3, true, (M.pwm 1 { start := some 0, per := 3000 }), by decide +kernel⟩

/-- The hypotheses of further clauses of `Obligations.NetworkTime` are met. -/
theorem wit_NetworkTime :
    (∃ (m : PtpMsg) (s : State) (t1 : Int) (t2 : Int) (t3 : Int), (s.ptpRuns = true) ∧ (s.transmits = false) ∧ (m.port = s.ptpPort) ∧ (m.domain = s.ptpDomain) ∧ (m.kind = 9) ∧ (s.tmu.gm = some m.source) ∧ (m.requester = s.clockId) ∧ (m.seqId = s.tmu.delaySeq) ∧ (s.tmu.t1 = some t1) ∧ (s.tmu.t2 = some t2) ∧ (s.tmu.t3 = some t3))
    ∧ (∃ (m : PtpMsg) (s : State) (t1 : Int) (t2 : Int) (t3 : Int), (s.ptpRuns = true) ∧ (s.transmits = false) ∧ (m.port = s.ptpPort) ∧ (m.domain = s.ptpDomain) ∧ (m.kind = 9) ∧ (s.tmu.gm = some m.source) ∧ (m.requester = s.clockId) ∧ (m.seqId = s.tmu.delaySeq) ∧ (s.tmu.t1 = some t1) ∧ (s.tmu.t2 = some t2) ∧ (s.tmu.t3 = some t3) ∧ (bit (s.reg Reg.tmuState) 2 = true) ∧ (s.tmu.armed = false ∨ s.running = true))
    ∧ (∃ (m : PtpMsg) (s : State) (t1 : Int) (t2 : Int) (t3 : Int), (s.ptpRuns = true) ∧ (s.transmits = false) ∧ (m.port = s.ptpPort) ∧ (m.domain = s.ptpDomain) ∧ (m.kind = 9) ∧ (s.tmu.gm = some m.source) ∧ (m.requester = s.clockId) ∧ (m.seqId = s.tmu.delaySeq) ∧ (s.tmu.t1 = some t1) ∧ (s.tmu.t2 = some t2) ∧ (s.tmu.t3 = some t3) ∧ (s.tmu.armed = true) ∧ (s.running = false))
    ∧ (∃ (m : PtpMsg) (s : State) (t1 : Int) (t2 : Int) (t3 : Int), (s.ptpRuns = true) ∧ (s.transmits = false) ∧ (m.port = s.ptpPort) ∧ (m.domain = s.ptpDomain) ∧ (m.kind = 9) ∧ (s.tmu.gm = some m.source) ∧ (m.requester = s.clockId) ∧ (m.seqId = s.tmu.delaySeq) ∧ (s.tmu.t1 = some t1) ∧ (s.tmu.t2 = some t2) ∧ (s.tmu.t3 = some t3) ∧ (s.tmu.armed = false) ∧ (bit (s.reg Reg.tmuState) 2 = false) ∧ ((t2 - t1 - half (t2 - t1 + (m.originNs - m.correction - t3))).natAbs ≤ s.field Reg.tmuThr 15 0))
    ∧ (∃ (m : PtpMsg) (s : State) (t1 : Int) (t2 : Int) (t3 : Int), (s.ptpRuns = true) ∧ (s.transmits = false) ∧ (m.port = s.ptpPort) ∧ (m.domain = s.ptpDomain) ∧ (m.kind = 9) ∧ (s.tmu.gm = some m.source) ∧ (m.requester = s.clockId) ∧ (m.seqId = s.tmu.delaySeq) ∧ (s.tmu.t1 = some t1) ∧ (s.tmu.t2 = some t2) ∧ (s.tmu.t3 = some t3) ∧ (s.tmu.armed = false) ∧ (bit (s.reg Reg.tmuState) 2 = false) ∧ (s.field Reg.tmuThr 15 0 < (t2 - t1 - half (t2 - t1 + (m.originNs - m.correction - t3))).natAbs)) :=
  ⟨⟨M.m9, asked, 8000, 8000, 8000, by decide +kernel⟩,
    ⟨M.m9, (asked.setReg Reg.tmuState 4), 8000, 8000, 8000, by decide +kernel⟩,
    ⟨M.m9, (asked.onTmu fun t => { t with armed := true }), 8000, 8000, 8000, by decide +kernel⟩,
    ⟨M.m9, asked, 8000, 8000, 8000, by decide +kernel⟩,
    ⟨M.m9, (asked.setReg Reg.tmuThr 10), 8000, 8000, 8000, by decide +kernel⟩⟩

/-- The hypotheses of further clauses of `Obligations.EthernetMacs` are met. -/
theorem wit_EthernetMacs :
    (∃ (m : Nat) (frame : Bytes) (s : State), (m < 2) ∧ (s.macOn m = true) ∧ (60 ≤ List.length frame ∧ List.length frame ≤ if tagged frame = true then 1518 else 1514) ∧ (etherType frame = [136, 247] ∧ s.ptpPort = m ∨ etherType frame ≠ [136, 181] ∧ (pauseFrame frame = true ∨ s.ethToHost m frame = false)))
    ∧ (∃ (m : Nat) (frame : Bytes) (s : State), (m < 2) ∧ (s.macOn m = true) ∧ (60 ≤ List.length frame ∧ List.length frame ≤ if tagged frame = true then 1518 else 1514) ∧ (etherType frame = [136, 181]))
    ∧ (∃ (m : Nat) (frame : Bytes) (s : State) (d : Bytes), (m < 2) ∧ (s.macOn m = true) ∧ (60 ≤ List.length frame ∧ List.length frame ≤ if tagged frame = true then 1518 else 1514) ∧ (¬(etherType frame = [136, 247] ∧ s.ptpPort = m)) ∧ (etherType frame ≠ [136, 181]) ∧ (pauseFrame frame = false) ∧ (s.ethToHost m frame = true) ∧ ((s.dch (16 + m)).desc = some d) ∧ (s.cap 11 = true) ∧ (s.dmaState (16 + m) = 1) ∧ (dOp d = 5) ∧ (dDstDev d = false) ∧ (s.masters = true) ∧ (List.length frame ≤ dLen d))
    ∧ (∃ (m : Nat) (f : EthFrame) (r : List EthFrame) (s : State), (m < 2) ∧ (s.macOn m = true) ∧ (f.ptp = none) ∧ ((s.mac m).ptp = []) ∧ ((s.mac m).safe = f :: r))
    ∧ (∃ (m : Nat) (f : EthFrame) (r : List EthFrame) (s : State), (m < 2) ∧ (s.macOn m = true) ∧ (f.ptp = none) ∧ ((s.mac m).ptp = []) ∧ ((s.mac m).safe = []) ∧ ((s.mac m).timed = []) ∧ ((s.mac m).best = f :: r))
    ∧ (∃ (m : Nat) (f : EthFrame) (r : List EthFrame) (s : State), (m < 2) ∧ (s.macOn m = true) ∧ (f.ptp = none) ∧ ((s.mac m).ptp = []) ∧ ((s.mac m).safe = []) ∧ ((s.mac m).timed = f :: r) ∧ (s.launchAt m f ≤ s.tmu.ns) ∧ (s.tmu.ns ≤ s.latestAt m f))
    ∧ (∃ (m : Nat) (f : EthFrame) (r : List EthFrame) (s : State), (m < 2) ∧ (s.macOn m = true) ∧ (f.ptp = none) ∧ ((s.mac m).ptp = []) ∧ ((s.mac m).safe = []) ∧ ((s.mac m).timed = f :: r) ∧ (s.tmu.ns ≤ s.latestAt m f)) :=
  ⟨⟨0, (zeros 60), ((T3.eth T3.up).setReg (Reg.ethMacLo 0) 5), by decide +kernel⟩,
    ⟨0, (zeros 12 ++ [0x88, 0xB5] ++ zeros 46), (T3.eth T3.up), by decide +kernel⟩,
    ⟨0, T3.bc, (((T3.eth T3.up).setDch 16 { desc := some T3.dsc }).setReg (Reg.dmaChState 16) 1), T3.dsc, by decide +kernel⟩,
    ⟨0, T3.f, [], ((T3.eth T3.up).setMac 0 { safe := [T3.f], best := [T3.f] }), by decide +kernel⟩,
    ⟨0, T3.f, [], ((T3.eth T3.up).setMac 0 { best := [T3.f] }), by decide +kernel⟩,
    ⟨0, T3.f, [], (((T3.eth T3.up).setMac 0 { timed := [T3.f] }).onTmu fun t => { t with ns := 1000 }), by decide +kernel⟩,
    ⟨0, T3.f, [], (((T3.eth T3.up).setMac 0 { timed := [T3.f] }).onTmu fun t => { t with ns := 1000 }), by decide +kernel⟩⟩

/-- The hypotheses of further clauses of `Obligations.CanControllers` are met. -/
theorem wit_CanControllers :
    (∃ (c : Nat) (i : Nat) (f : CanFrame) (s : State), (s.answers 6 c = true) ∧ (s.canOn c = true) ∧ (s.canHears c = true) ∧ (f.fdf = true → bit (s.reg (Reg.canCfg c)) 3 = true) ∧ (s.canDetecting c = false) ∧ (s.canFilter c f = some i) ∧ ((s.can c).next < 32) ∧ (bit (s.reg (Reg.canRxOwn c)) (s.can c).next = false))
    ∧ (∃ (c : Nat) (i : Nat) (f : CanFrame) (s : State), (s.answers 6 c = true) ∧ (s.canOn c = true) ∧ (s.canHears c = true) ∧ (f.fdf = true → bit (s.reg (Reg.canCfg c)) 3 = true) ∧ (s.canDetecting c = false) ∧ (s.canFilter c f = some i) ∧ ((s.can c).next < 32) ∧ (bit (s.reg (Reg.canRxOwn c)) (s.can c).next = true))
    ∧ (∃ (c : Nat) (f : CanFrame) (s : State), (s.answers 6 c = true) ∧ (s.canOn c = true) ∧ (s.canHears c = true) ∧ (f.fdf = true → bit (s.reg (Reg.canCfg c)) 3 = true) ∧ (s.canDetecting c = false) ∧ (s.canFilter c f = none))
    ∧ (∃ (c : Nat) (f : CanFrame) (s : State), (s.answers 6 c = true) ∧ (s.canOn c = true) ∧ (s.canHears c = true) ∧ (f.fdf = true → bit (s.reg (Reg.canCfg c)) 3 = true) ∧ (s.canDetecting c = true) ∧ ((s.can c).hits = 0))
    ∧ (∃ (c : Nat) (f : CanFrame) (s : State), (s.answers 6 c = true) ∧ (s.canOn c = true) ∧ (s.canHears c = true) ∧ (f.fdf = true → bit (s.reg (Reg.canCfg c)) 3 = true) ∧ (s.canDetecting c = true) ∧ ((s.can c).hits ≠ 0) ∧ ((s.can c).cand < 4))
    ∧ (∃ (c : Nat) (s : State), (s.answers 6 c = true) ∧ (s.canOn c = true) ∧ ((s.can c).above = false))
    ∧ (∃ (c : Nat) (s : State), (s.answers 6 c = true) ∧ (s.canOn c = true) ∧ ((s.can c).above = true))
    ∧ (∃ (c : Nat) (j : Nat) (s : State), (s.answers 6 c = true) ∧ (s.canSends c = true) ∧ ((s.can c).onBus = some j) ∧ (j < 8) ∧ (s.canMode c ≠ 2))
    ∧ (∃ (c : Nat) (i : Nat) (j : Nat) (s : State), (s.answers 6 c = true) ∧ (s.canSends c = true) ∧ ((s.can c).onBus = some j) ∧ (j < 8) ∧ (s.canMode c = 2) ∧ (s.canFilter c { id := (s.txFrame c j).id, ide := (s.txFrame c j).ide, rtr := (s.txFrame c j).rtr, fdf := (s.txFrame c j).fdf, brs := (s.txFrame c j).brs, esi := (s.txFrame c j).esi, dlc := (s.txFrame c j).dlc, data := if (s.txFrame c j).rtr = true then [] else List.take (dlcBytes (s.txFrame c j).fdf (s.txFrame c j).dlc.toNat) (s.txFrame c j).data, age := (s.txFrame c j).age } = some i) ∧ ((s.can c).next < 32) ∧ (bit (s.reg (Reg.canRxOwn c)) (s.can c).next = false))
    ∧ (∃ (c : Nat) (j : Nat) (s : State) (w : Word) (p : Bytes), (s.answers 6 c = true) ∧ (s.canSends c = true) ∧ ((s.can c).onBus = some j) ∧ (j = 8) ∧ ((s.can c).island = some (w, p)) ∧ (s.canMode c ≠ 2)) :=
  ⟨⟨1, 0, { M.fcan with id := 0 }, (M.filt (M.can 0 1 {} M.up)), by decide +kernel⟩,
    ⟨1, 0, { M.fcan with id := 0 }, ((M.filt (M.can 0 1 {} M.up)).setReg (Reg.canRxOwn 1) 1), by decide +kernel⟩,
    ⟨1, M.fcan, (M.can 0 1 { onBus := some 3 } M.up), by decide +kernel⟩,
    ⟨1, M.fcan, ((M.can 4 1 {} M.up).setReg (Reg.canDetNbt 1 1) 5), by decide +kernel⟩,
    ⟨1, M.fcan, (M.can 4 1 { hits := 1 } M.up), by decide +kernel⟩,
    ⟨1, (M.can 0 1 {} M.up), by decide +kernel⟩,
    ⟨1, (M.can 0 1 { above := true } M.up), by decide +kernel⟩,
    ⟨1, 3, (M.can 0 1 { onBus := some 3 } M.up), by decide +kernel⟩,
    ⟨1, 0, 3, (M.filt (M.can 0 5 { onBus := some 3 } M.up)), by decide +kernel⟩,
    ⟨1, 8, ((((M.up.setReg (Reg.canCfg 1) 1)).setReg (Reg.canTxReq 1) 5).setCan 1 { onBus := some 8, island := some (7, [1, 2]) }), (7 : Word), ([1, 2] : Bytes), by decide +kernel⟩⟩

/-- The hypotheses of further clauses of `Obligations.TransferEngines` are met. -/
theorem wit_TransferEngines :
    (∃ (ch : Nat) (s : State), (ch < 32) ∧ (s.up = true) ∧ (s.cap 11 = true) ∧ (s.power.cut = false) ∧ ((s.dch ch).desc = none) ∧ (s.dmaState ch = 1) ∧ (s.field (Reg.dmaChCfg ch) 31 16 ≠ 0) ∧ (s.field (Reg.dmaChCfg ch) 31 16 ≤ s.field (Reg.dmaChState ch) 31 16))
    ∧ (∃ (ch : Nat) (s : State), (ch < 32) ∧ (s.up = true) ∧ (s.cap 11 = true) ∧ (s.power.cut = false) ∧ ((s.dch ch).desc = none) ∧ (s.dmaState ch = 1) ∧ (s.field (Reg.dmaChCfg ch) 31 16 = 0 ∨ s.field (Reg.dmaChState ch) 31 16 < s.field (Reg.dmaChCfg ch) 31 16) ∧ (s.chainDev ch = false) ∧ (s.qspi = false) ∧ (s.masters = false))
    ∧ (∃ (ch : Nat) (s : State), (ch < 32) ∧ (s.up = true) ∧ (s.cap 11 = true) ∧ (s.power.cut = false) ∧ ((s.dch ch).desc = none) ∧ (s.dmaState ch = 1) ∧ (s.field (Reg.dmaChCfg ch) 31 16 = 0 ∨ s.field (Reg.dmaChState ch) 31 16 < s.field (Reg.dmaChCfg ch) 31 16) ∧ (s.chainDev ch = false) ∧ (s.qspi = false) ∧ (s.masters = true) ∧ (s.dmaCur ch % 16 ≠ 0))
    ∧ (∃ (ch : Nat) (s : State), (ch < 32) ∧ (s.up = true) ∧ (s.cap 11 = true) ∧ (s.power.cut = false) ∧ ((s.dch ch).desc = none) ∧ (s.dmaState ch = 1) ∧ (s.field (Reg.dmaChCfg ch) 31 16 = 0 ∨ s.field (Reg.dmaChState ch) 31 16 < s.field (Reg.dmaChCfg ch) 31 16) ∧ (s.chainDev ch = false) ∧ (s.qspi = false) ∧ (s.masters = true))
    ∧ (∃ (ch : Nat) (host : Bytes) (s : State), (ch < 32) ∧ (s.up = true) ∧ (s.cap 11 = true) ∧ (s.power.cut = false) ∧ ((s.dch ch).desc = none) ∧ (s.dmaState ch = 1) ∧ (s.field (Reg.dmaChCfg ch) 31 16 = 0 ∨ s.field (Reg.dmaChState ch) 31 16 < s.field (Reg.dmaChCfg ch) 31 16) ∧ (s.chainDev ch = false) ∧ (s.qspi = false) ∧ (s.masters = true) ∧ (s.dmaCur ch % 16 = 0) ∧ (List.length host = 48) ∧ (dFlag host 4 = false ∨ dStatus host = 0) ∧ (s.formatOk ch host = true))
    ∧ (∃ (ch : Nat) (host : Bytes) (s : State), (ch < 32) ∧ (s.up = true) ∧ (s.cap 11 = true) ∧ (s.power.cut = false) ∧ ((s.dch ch).desc = none) ∧ (s.dmaState ch = 1) ∧ (s.field (Reg.dmaChCfg ch) 31 16 = 0 ∨ s.field (Reg.dmaChState ch) 31 16 < s.field (Reg.dmaChCfg ch) 31 16) ∧ (s.chainDev ch = false) ∧ (s.qspi = false) ∧ (s.masters = true) ∧ (s.dmaCur ch % 16 = 0) ∧ (List.length host = 48) ∧ (dFlag host 4 = true) ∧ (dStatus host ≠ 0)) :=
  ⟨⟨2, (T5.bud (T5.st 2 0x20001 T5.up)), by decide +kernel⟩,
    ⟨2, ((T5.bud (T5.st 2 0x10001 T5.up)).onPower fun p => { p with busMaster := false }), by decide +kernel⟩,
    ⟨2, ((T5.bud (T5.st 2 0x10001 T5.up)).setCur 2 8), by decide +kernel⟩,
    ⟨2, (T5.st 2 1 T5.up), by decide +kernel⟩,
    ⟨2, (T5.dsc 8 0), (T5.st 2 1 T5.up), by decide +kernel⟩,
    ⟨2, (T5.dsc 24 1), (T5.bud (T5.st 2 0x10001 T5.up)), by decide +kernel⟩⟩

/-- The hypotheses of further clauses of `Obligations.InnkeeperEvents` are met. -/
theorem wit_InnkeeperEvents :
    (∃ (i : Nat) (s : State), s.serves = true ∧ (i < 12) ∧ (s.judged i = true) ∧ (bit (s.reg (Reg.mgtSense i)) (if false = true then 17 else 16) = false ∧ Map.get (fun _ => 0) s.inn.excess (4 * i + b2n false) < 3 ∨ bit (s.reg (Reg.mgtSense i)) (if false = true then 17 else 16) = true ∧ Map.get (fun _ => 0) s.inn.inside (4 * i + b2n false) < 3) ∧ (bit (s.reg (Reg.mgtSense i)) (if true = true then 17 else 16) = false ∧ Map.get (fun _ => 0) s.inn.excess (4 * i + b2n true) < 3 ∨ bit (s.reg (Reg.mgtSense i)) (if true = true then 17 else 16) = true ∧ Map.get (fun _ => 0) s.inn.inside (4 * i + b2n true) < 3))
    ∧ (∃ (i : Nat) (lim : Bool) (s : State), s.serves = true ∧ (i < 12) ∧ (s.judged i = true) ∧ (bit (s.reg (Reg.mgtSense i)) (if lim = true then 17 else 16) = false) ∧ (3 ≤ Map.get (fun _ => 0) s.inn.excess (4 * i + b2n lim)) ∧ (bit (s.reg (Reg.mgtSense i)) (if (!lim) = true then 17 else 16) = false ∧ Map.get (fun _ => 0) s.inn.excess (4 * i + b2n !lim) < 3 ∨ bit (s.reg (Reg.mgtSense i)) (if (!lim) = true then 17 else 16) = true ∧ Map.get (fun _ => 0) s.inn.inside (4 * i + b2n !lim) < 3))
    ∧ (∃ (i : Nat) (lim : Bool) (s : State), s.serves = true ∧ (i < 12) ∧ (s.judged i = true) ∧ (bit (s.reg (Reg.mgtSense i)) (if lim = true then 17 else 16) = true) ∧ (3 ≤ Map.get (fun _ => 0) s.inn.inside (4 * i + b2n lim)) ∧ (bit (s.reg (Reg.mgtSense i)) (if (!lim) = true then 17 else 16) = false ∧ Map.get (fun _ => 0) s.inn.excess (4 * i + b2n !lim) < 3 ∨ bit (s.reg (Reg.mgtSense i)) (if (!lim) = true then 17 else 16) = true ∧ Map.get (fun _ => 0) s.inn.inside (4 * i + b2n !lim) < 3)) :=
  ⟨⟨3, M.bound, by decide +kernel⟩,
    ⟨3, false, (T6.inn fun n => { n with excess := [(12, 3)] }), by decide +kernel⟩,
    ⟨3, false, ((T6.inn fun n => { n with inside := [(12, 3)] }).setReg (Reg.mgtSense 3) 0x10000), by decide +kernel⟩⟩

end N

end Sys2Proof.Tests
end

section
/-!
PROOFS. Guarded writes (R53 to R55): what a 32-bit write of a register window does, that a read of the complement region
gives zero, and that every reset leaves the host bus as after power-up, so that no write is held.
-/
namespace Sys2Proof

open Machine

/-! ### Accesses to a register window -/

/-- An aligned write below the MSI-X table reaches the place that its address decodes to. -/
theorem hostWrite32_decoded {a : Nat} {p : Place} {s : State} (hs : s.serves = true) (ha : a % 4 = 0) (hb : a < 0x3E0000)
    (hp : decodeAddr a = some p) (v : Word) : hostWrite32 a v s = windowWrite p v s := by
  have hw : ¬ 0x400000 ≤ a := by omega
  simp [hostWrite32, hs, ha, hw, hp]

theorem writeReaches_serving {s : State} (hs : s.serves = true) (w : Nat) : writeReaches w s = dropHold w s :=
  if_pos hs

@[simp] theorem answers_dropHold (w win i : Nat) (s : State) : (dropHold w s).answers win i = s.answers win i := rfl

/-- The place of a complement names no register. -/
theorem reg_of_compl {a : Nat} {p : Place} (hp : decodeAddr a = some p) (hc : p.compl = true) : p.reg = none := by
  revert hp
  unfold decodeAddr
  dsimp only
  split
  · rintro ⟨⟩
  · split
    · rintro ⟨⟩
      cases hc
    · split
      · rintro ⟨⟩
        rfl
      · rintro ⟨⟩
        cases hc

/-- The first write of a guarded register is held (R53). -/
theorem windowWrite_guarded {p : Place} {r : RegDef} {s : State} (hs : s.serves = true) (hc : p.compl = false)
    (hr : p.reg = some r) (hg : r.acc = .gw) (hn : s.answers p.win p.inst = true) (v : Word) :
    windowWrite p v s = (dropHold p.win s).onBus fun b =>
      { b with guard := Map.set (fun _ => none) b.guard p.win (some { inst := p.inst, off := p.off, val := v }) } := by
  simp [windowWrite, writeReaches_serving hs, hn, hc, hr, registerEffect, hg]

/-- The complement of the held value completes the write (R53). -/
theorem windowWrite_completes {p : Place} {v : Word} {s : State} (hs : s.serves = true) (hc : p.compl = true)
    (hn : s.answers p.win p.inst = true)
    (hh : Map.get (fun _ => none) s.bus.guard p.win = some { inst := p.inst, off := p.off, val := ~~~ v }) :
    windowWrite p v s = guardedReg p (~~~ v) (dropHold p.win s) := by
  simp [windowWrite, writeReaches_serving hs, hn, hc, hh]

/-- Any other write of a complement discards the hold and does nothing more (R55). -/
theorem windowWrite_mismatch {p : Place} {v : Word} {s : State} (hs : s.serves = true) (hc : p.compl = true)
    (hh : Map.get (fun _ => none) s.bus.guard p.win ≠ some { inst := p.inst, off := p.off, val := ~~~ v }) :
    windowWrite p v s = dropHold p.win s := by
  simp [windowWrite, writeReaches_serving hs, hc, hh]

/-- A word of the complement region reads 0 without effect (R55). -/
theorem hostRead32_compl {a : Nat} {p : Place} (s : State) (hb : a < 0x3E0000) (hp : decodeAddr a = some p)
    (hc : p.compl = true) : hostRead32 a s = (0, s) := by
  have hw : ¬ 0x400000 ≤ a := by omega
  simp [hostRead32, hw, hp, reg_of_compl hp hc]

/-- An aligned read of four bytes gives the word at its address. -/
theorem hostRead_word {a : Nat} (ha : a % 4 = 0) (s : State) :
    hostRead a 4 s = giveHost (wordBytes (hostRead32 a s).1) (settle (hostRead32 a s).2) := by
  have hl : (wordBytes (hostRead32 a s).1).take 4 = wordBytes (hostRead32 a s).1 := rfl
  simp [hostRead, hostReadWords, ha, hl]

theorem Quiet.giveHost {s t : State} (h : Quiet s t) (d : Bytes) : Quiet (giveHost d s) (giveHost d t) := by
  obtain ⟨ht, hm⟩ := h
  exact ⟨congrArg (Machine.giveHost d) ht, hm⟩

/-! ### What a reset leaves on the host bus -/

@[simp] theorem State.resetReg_bus (s : State) (a : Nat) : (s.resetReg a).bus = s.bus := rfl

/-- A write of a register, also of a field or an event bit, after which the host bus is still `b`. -/
theorem setReg_bus_of {s : State} {b : HostBus} (h : s.bus = b) (a : Nat) (v : Word) : (s.setReg a v).bus = b := h

/-- Commands that keep the host bus one by one keep it in a row. -/
theorem foldl_bus {α : Type} {f : State → α → State} (hf : ∀ s x, (f s x).bus = s.bus) (l : List α) (s : State) :
    (l.foldl f s).bus = s.bus :=
  foldl_keeps State.bus f hf l s

/-- A choice between states with one host bus. -/
theorem ite_bus {c : Prop} [Decidable c] {s t : State} {b : HostBus} (hs : s.bus = b) (ht : t.bus = b) :
    (if c then s else t).bus = b := by
  split
  · exact hs
  · exact ht

@[simp] theorem renumber_bus (s : State) : (renumber s).bus = s.bus := rfl

@[simp] theorem fioShow_bus (s : State) : (fioShow s).bus = s.bus := by
  unfold fioShow
  extract_lets d balls s₁ s₂ s₃ s₄
  have h₂ : s₂.bus = s.bus := setReg_bus_of (State.setReg_bus s _ _) _ _
  have h₄ : s₄.bus = s.bus := setReg_bus_of (setReg_bus_of h₂ _ _) _ _
  exact setReg_bus_of h₄ _ _

@[simp] theorem safeShow_bus (s : State) : (safeShow s).bus = s.bus := by
  unfold safeShow
  extract_lets i s₁ s₂ s₃ s₄ s₅ hold s₆ s₇ s₈ used well s₉
  have h₃ : s₃.bus = s.bus := setReg_bus_of (setReg_bus_of (State.setReg_bus s _ _) _ _) _ _
  have h₆ : s₆.bus = s.bus := setReg_bus_of (setReg_bus_of (setReg_bus_of (setReg_bus_of h₃ _ _) _ _) _ _) _ _
  have h₉ : s₉.bus = s.bus := setReg_bus_of (setReg_bus_of (setReg_bus_of h₆ _ _) _ _) _ _
  exact setReg_bus_of h₉ _ _

@[simp] theorem lplusShow_bus (s : State) : (lplusShow s).bus = s.bus := by
  unfold lplusShow
  extract_lets v
  exact ite_bus rfl (setReg_bus_of (State.setReg_bus s _ _) _ _)

@[simp] theorem dieReset_bus (linkDown errs : Bool) (s : State) : (dieReset linkDown errs s).bus = s.bus := by
  unfold dieReset
  extract_lets s₁ s₂
  have h : s₂.bus = s.bus := ite_bus (State.onDie_bus s₁ _) (State.onDie_bus s _)
  exact ite_bus h ((fioShow_bus s₂).trans h)

@[simp] theorem pauseSessions_bus (s : State) : (pauseSessions s).bus = s.bus := by
  unfold pauseSessions
  exact ite_bus rfl (foldl_bus (fun s n => by exact ite_bus rfl (setReg_bus_of (State.setSes_bus s n _) _ _)) _ s)

@[simp] theorem strapFabric_bus (s : State) : (strapFabric s).bus = s.bus := by
  unfold strapFabric
  extract_lets v s₁ dev s₂ s₃ s₄
  have h₁ : s₁.bus = s.bus := ite_bus (foldl_bus (fun s n => by exact State.setReg_bus s _ _) _ s) rfl
  have h₂ : s₂.bus = s.bus := setReg_bus_of h₁ _ _
  have h₃ : s₃.bus = s.bus := (foldl_bus (fun s n => by exact State.setReg_bus s _ _) _ s₂).trans h₂
  have h₄ : s₄.bus = s.bus := setReg_bus_of h₃ _ _
  exact ite_bus ((foldl_bus (fun s n => by exact State.setReg_bus s _ _) _ s₄).trans h₄) h₄

@[simp] theorem strapAlways_bus (s : State) : (strapAlways s).bus = s.bus := by
  unfold strapAlways
  extract_lets v s₁ s₂ s₃ s₄
  have h₁ : s₁.bus = s.bus := setReg_bus_of (setReg_bus_of (State.setReg_bus s _ _) _ _) _ _
  have h₂ : s₂.bus = s.bus := setReg_bus_of (setReg_bus_of (setReg_bus_of h₁ _ _) _ _) _ _
  have h₃ : s₃.bus = s.bus := ite_bus ((foldl_bus (fun s n => by exact State.setReg_bus s _ _) _ s₂).trans h₂) h₂
  exact setReg_bus_of (setReg_bus_of h₃ _ _) _ _

@[simp] theorem fabricOff_bus (s : State) : (fabricOff s).bus = s.bus := strapFabric_bus _

/-- The end of a reset leaves the host bus as after power-up (R54, R87). -/
@[simp] theorem resetDevice_bus (kind : Nat) (straps : Option (BitVec 14)) (s : State) :
    (resetDevice kind straps s).bus = {} := by
  unfold resetDevice
  -- unmerged: two of the kept sets have one condition
  extract_lets -merge k sampled s₁ keepTime keepFbk keepIsland s₂ kept lost p t₁ t₂ t₃ t₄ t₅ t₆ t₇ t₈ t₉ t₁₀ b
    t₁₁ conflict
  have h₂ : t₂.bus = {} := (strapAlways_bus _).trans (fabricOff_bus _)
  have h₃ : t₃.bus = {} := ite_bus ((renumber_bus t₂).trans h₂) h₂
  have h₄ : t₄.bus = {} := ite_bus h₃ h₃
  have h₅ : t₅.bus = {} := ite_bus ((safeShow_bus t₄).trans h₄) h₄
  have h₆ : t₆.bus = {} := h₅
  have h₇ : t₇.bus = {} := (dieReset_bus _ _ t₆).trans h₆
  have h₈ : t₈.bus = {} := (lplusShow_bus t₇).trans h₇
  have h₉ : t₉.bus = {} := ite_bus (setReg_bus_of h₈ _ _) h₈
  have h₁₁ : t₁₁.bus = {} := setReg_bus_of (setReg_bus_of h₉ _ _) _ _
  exact ite_bus (setReg_bus_of h₁₁ _ _) h₁₁

@[simp] theorem holdReset_bus (mode : Mode) (linkDown : Bool) (s : State) : (holdReset mode linkDown s).bus = {} := by
  unfold holdReset
  extract_lets s₁ power inn s₂
  have h₁ : s₁.bus = {} :=
    (fioShow_bus _).trans ((State.resetReg_bus _ _).trans ((dieReset_bus _ _ _).trans (fabricOff_bus _)))
  exact (pauseSessions_bus s₂).trans h₁

@[simp] theorem endReset_bus (kind : Nat) (straps : BitVec 14) (s : State) : (endReset kind straps s).bus = {} := by
  unfold endReset
  exact ite_bus (holdReset_bus _ _ s) (resetDevice_bus _ _ s)

/-- A command that answers a settled state of a cleared host bus discards every hold. -/
theorem brings_noHold {i : Instr} {s u : State} (h : exec i s = done u) (hu : u.bus = {}) :
    Brings i s fun t => t.bus.guard = [] := by
  refine ⟨settle u, h, ?_⟩
  rw [(settle_quiet u).1]
  exact congrArg HostBus.guard hu

/-! ### The commands -/

theorem gives_guardedValueWrite {a : Nat} {v : Word} {s u : State} (h : hostWrite32 a v s = u) :
    Gives (.guardedValueWrite a v) s u :=
  gives_of_done (congrArg done h)

theorem gives_guardedComplementFault {a : Nat} {v : Word} {s u : State} (h : hostWrite32 a v s = u) :
    Gives (.guardedComplementFault a v) s u :=
  gives_of_done (congrArg done h)

/-- A read of a word of the complement region gives zero and does nothing more (R55). -/
theorem gives_read_compl {a : Nat} {p : Place} (s : State) (ha : a % 4 = 0) (hb : a < 0x3E0000)
    (hp : decodeAddr a = some p) (hc : p.compl = true) :
    Gives (.readClearRead a 4) s (s.onBus fun b => { b with rdata := [0, 0, 0, 0] }) := by
  have hr : hostRead a 4 s = giveHost (wordBytes 0) (settle s) := by
    rw [hostRead_word ha, hostRead32_compl s hb hp hc]
  refine ⟨settle (hostRead a 4 s), rfl, ?_⟩
  rw [hr]
  exact ((settle_quiet s).giveHost (wordBytes 0)).trans (settle_quiet _)

theorem referenceRecovered_noHold {s : State} (hc : s.power.clockHold = true) (hm : s.power.mainOk = true) :
    Brings .referenceRecovered s fun t => t.bus.guard = [] := by
  refine brings_noHold rfl ?_
  rw [if_pos hc]
  exact (congrArg State.bus (if_pos hm)).trans (resetDevice_bus _ _ _)

theorem powerOnReset_noHold (straps : BitVec 14) (s : State) :
    Brings (.powerOnReset straps) s fun t => t.bus.guard = [] :=
  brings_noHold rfl (endReset_bus _ _ _)

theorem mainSupplyRestored_noHold (straps : BitVec 14) {s : State} (hm : s.power.mainOk = false) :
    Brings (.mainSupplyRestored straps) s fun t => t.bus.guard = [] :=
  brings_noHold rfl (by simp [hm])

theorem pinReset_noHold (straps : BitVec 14) {s : State} (hm : s.power.mainOk = true) :
    Brings (.pinReset straps) s fun t => t.bus.guard = [] :=
  brings_noHold rfl (by simp [hm])

theorem runSupplyReset_noHold {rails : BitVec 3} {s : State} (hr : rails ≠ 0) (hu : s.up = true) :
    Brings (.runSupplyReset rails) s fun t => t.bus.guard = [] :=
  by
  refine brings_noHold rfl ?_
  rw [if_neg hr, if_pos hu]
  exact setReg_bus_of (resetDevice_bus _ _ _) _ _

/-- `PWR` answers whenever the host link serves (R87). -/
theorem answers_power {s : State} (hs : s.serves = true) : s.answers 0x01 0 = true := by
  simp [State.answers, hs]

theorem softwareReset_noHold {s : State} (hs : s.serves = true) :
    Brings .softwareReset s fun t => t.bus.guard = [] := by
  refine brings_noHold rfl ?_
  simp only [guardedPair, writeReaches_serving hs, answers_dropHold, answers_power hs, if_true]
  exact resetDevice_bus _ _ _

theorem innkeeperWatchdogExpiry_noHold {s : State} (hs : s.serves = true) :
    Brings .innkeeperWatchdogExpiry s fun t => t.bus.guard = [] :=
  brings_noHold rfl (by simp [hs])

theorem coreWatchdogExpiry_noHold {n : Nat} {s : State} (hn : s.coreSilent n = true) :
    Brings (.coreWatchdogExpiry n) s fun t => t.bus.guard = [] :=
  brings_noHold rfl (by simp [hn])

theorem pllLossOfLock_noHold {n : Nat} {s : State} (hu : s.up = true) (hn : n < 3) :
    Brings (.pllLossOfLock n) s fun t => t.bus.guard = [] :=
  brings_noHold rfl (by simp [hu, hn])

/-- Settles O25: a write reaches the place it decodes to, where the hold decides; every reset clears the host bus, and
with it the holds. -/
theorem guardedWrites : Obligations.GuardedWrites := by
  unfold Obligations.GuardedWrites
  constructor
  · intro a v p s hs ha hb hp
    have hw : hostWrite32 a v s = windowWrite p v s := hostWrite32_decoded hs ha hb hp v
    refine ⟨?held, ?completes, ?mismatch, fun hc => gives_read_compl s ha hb hp hc⟩
    case held =>
      intro r hc hr hg hn
      exact gives_guardedValueWrite (hw.trans (windowWrite_guarded hs hc hr hg hn v))
    case completes =>
      intro hc hn hh
      exact gives_guardedComplementFault (hw.trans (windowWrite_completes hs hc hn hh))
    case mismatch =>
      intro hc hh
      exact gives_guardedComplementFault (hw.trans (windowWrite_mismatch hs hc hh))
  · intro straps rails n s
    exact ⟨referenceRecovered_noHold, powerOnReset_noHold straps s, mainSupplyRestored_noHold straps,
      pinReset_noHold straps, runSupplyReset_noHold,
      fun hs => ⟨softwareReset_noHold hs, innkeeperWatchdogExpiry_noHold hs⟩,
      coreWatchdogExpiry_noHold, pllLossOfLock_noHold⟩

end Sys2Proof
end

section
/-!
PROOFS. A packet is fetched (R107): what the checks of a packet do with its session, in host memory and in shared SRAM.
-/
namespace Sys2Proof

open Machine

/-! ### Fields of a register -/

theorem testBit_field (v hi lo i : Nat) :
    (field v hi lo).testBit i = (decide (i < hi + 1 - lo) && v.testBit (lo + i)) := by
  rw [field, Nat.testBit_mod_two_pow, Nat.testBit_div_two_pow, Nat.add_comm lo i]

theorem getLsbD_maskw {hi lo i : Nat} (hh : hi < 32) :
    (maskw hi lo).getLsbD i = decide (lo ≤ i ∧ i ≤ hi) := by
  rw [maskw, BitVec.getLsbD_ofNat, Nat.testBit_mul_two_pow, Nat.testBit_two_pow_sub_one]
  grind

/-- A bit of a word in which a field was replaced: the field's new bit, or the former one outside it. -/
theorem getLsbD_setBits (w : Word) {hi lo i : Nat} (v : Nat) (hh : hi < 32) :
    (setBits w hi lo v).getLsbD i = if lo ≤ i ∧ i ≤ hi then v.testBit (i - lo) else w.getLsbD i := by
  rw [setBits, BitVec.getLsbD_or, BitVec.getLsbD_and, BitVec.getLsbD_not, getLsbD_maskw hh, BitVec.getLsbD_ofNat,
    Nat.testBit_mul_two_pow, Nat.testBit_mod_two_pow]
  have hw : 32 ≤ i → w.getLsbD i = false := BitVec.getLsbD_of_ge w i
  grind

/-- The field that was replaced holds the new value, as far as it fits. -/
theorem bits_setBits_same (w : Word) {hi lo : Nat} (v : Nat) (hh : hi < 32) :
    bits (setBits w hi lo v) hi lo = v % 2 ^ (hi + 1 - lo) := by
  refine Nat.eq_of_testBit_eq fun i => ?_
  rw [bits, testBit_field, Nat.testBit_mod_two_pow, BitVec.testBit_toNat, getLsbD_setBits w v hh]
  grind

/-- A field below the one that was replaced is as before. -/
theorem bits_setBits_below (w : Word) {hi lo hi' lo' : Nat} (v : Nat) (hh : hi < 32) (hd : hi' < lo) :
    bits (setBits w hi lo v) hi' lo' = bits w hi' lo' := by
  refine Nat.eq_of_testBit_eq fun i => ?_
  rw [bits, bits, testBit_field, testBit_field, BitVec.testBit_toNat, BitVec.testBit_toNat, getLsbD_setBits w v hh]
  grind

/-! ### A read of shared SRAM (R60) -/

/-- `t` is `s` but for shared SRAM and the registers that tell of its errors (R60). -/
structure SramOnly (s t : State) : Prop where
  rest : t = { s with regs := t.regs, sram := t.sram, sramFlip := t.sramFlip }
  reg : ∀ a, Reg.sysEccAddr < a → t.reg a = s.reg a

theorem SramOnly.refl (s : State) : SramOnly s s := ⟨rfl, fun _ _ => rfl⟩

theorem SramOnly.trans {s t u : State} (h : SramOnly s t) (k : SramOnly t u) : SramOnly s u :=
  ⟨by rw [k.rest, h.rest], fun a ha => (k.reg a ha).trans (h.reg a ha)⟩

theorem sramOnly_setReg (s : State) {a : Nat} (v : Word) (h : a ≤ Reg.sysEccAddr) : SramOnly s (s.setReg a v) :=
  ⟨rfl, fun _ hj => State.reg_setReg_ne s v (by omega)⟩

theorem sramOnly_setSramWord (s : State) (w : Nat) (v : BitVec 64) : SramOnly s (setSramWord s w v) :=
  ⟨rfl, fun _ _ => rfl⟩

theorem sramOnly_sramCe (s : State) : SramOnly s (sramCe s) :=
  (sramOnly_setReg s _ (by decide)).trans (sramOnly_setReg _ _ (by decide))

theorem sramOnly_sramUe (w : Nat) (s : State) : SramOnly s (sramUe w s) :=
  ((sramOnly_setReg s _ (by decide)).trans (sramOnly_setReg _ _ (by decide))).trans (sramOnly_setReg _ _ (by decide))

theorem sramOnly_eccRead (s : State) (w : Nat) : SramOnly s (eccRead s w).2 := by
  have corrected (v : BitVec 64) : SramOnly s (sramCe (setSramWord s w v)) :=
    (sramOnly_setSramWord s w v).trans (sramOnly_sramCe _)
  unfold eccRead
  dsimp only
  split
  · exact SramOnly.refl s
  · split
    · exact corrected _
    · split
      · exact sramOnly_sramUe w s
      · split
        · exact SramOnly.refl s
        · exact corrected _
        · exact sramOnly_sramUe w s

theorem sramOnly_eccRun (s : State) (w k : Nat) : SramOnly s (eccRun s w k).2 := by
  induction k generalizing s w with
  | zero => exact SramOnly.refl s
  | succ k ih => exact (sramOnly_eccRead s w).trans (ih _ _)

theorem sramOnly_sramRead (s : State) (o n : Nat) : SramOnly s (sramRead s o n).2 := by
  unfold sramRead
  split
  · exact SramOnly.refl s
  · exact sramOnly_eccRun s _ _

theorem SramOnly.sesState {s t : State} (h : SramOnly s t) (n : Nat) : t.sesState n = s.sesState n :=
  congrArg (bits · 2 0) (h.reg (Reg.cmdState n) (by simp only [Reg.sysEccAddr, Reg.cmdState]; omega))

theorem SramOnly.sessions {s t : State} (h : SramOnly s t) : t.sessions = s.sessions := by rw [h.rest]
theorem SramOnly.journal {s t : State} (h : SramOnly s t) : t.journal = s.journal := by rw [h.rest]
theorem SramOnly.porter {s t : State} (h : SramOnly s t) : t.porter = s.porter := by rw [h.rest]

theorem SramOnly.inStep {s t : State} (h : SramOnly s t) : t.inStep = s.inStep := by
  unfold State.inStep State.paired State.pairPhase State.field
  rw [h.reg Reg.pairCfg (by decide), h.reg Reg.pairState (by decide)]

/-! ### A session halts (R102, R107) -/

/-- `t` is `s` after session `n` halted with the cause: of the command path, nothing but the session's `STATE` and
`STAT` registers differs. -/
structure Halted (n cause : Nat) (s t : State) : Prop where
  state : t.sesState n = 3
  cause : t.field (Reg.cmdState n) 19 16 = cause
  reg : ∀ a, a ≠ Reg.cmdState n → a ≠ Reg.cmdStat n → t.reg a = s.reg a
  sessions : t.sessions = s.sessions
  journal : t.journal = s.journal
  porter : t.porter = s.porter

/-- Interrupt messages leave a halt as it is. -/
theorem Halted.quiet {n cause : Nat} {s u t : State} (h : Halted n cause s u) (q : Quiet u t) : Halted n cause s t where
  state := (congrArg (bits · 2 0) (q.reg _)).trans h.state
  cause := (congrArg (bits · 19 16) (q.reg _)).trans h.cause
  reg a h1 h2 := (q.reg a).trans (h.reg a h1 h2)
  sessions := (congrArg State.sessions q.1).trans h.sessions
  journal := (congrArg State.journal q.1).trans h.journal
  porter := (congrArg State.porter q.1).trans h.porter

theorem Halted.head {n cause : Nat} {s t : State} (h : Halted n cause s t) :
    t.reg (Reg.cmdSqHead n) = s.reg (Reg.cmdSqHead n) :=
  h.reg _ (by simp only [Reg.cmdSqHead, Reg.cmdState]; omega) (by simp only [Reg.cmdSqHead, Reg.cmdStat]; omega)

/-- A halt of a session that is not closing writes registers alone. -/
theorem haltSes_eq (cause : Nat) {n : Nat} {s : State} (hs : s.sesState n ≠ 4) :
    haltSes n cause s =
      ((s.setField (Reg.cmdState n) 2 0 3).setField (Reg.cmdState n) 19 16 cause).event (Reg.cmdStat n) 3 := by
  simp only [haltSes, if_neg hs]

theorem reg_haltSes_cmdState (cause : Nat) {n : Nat} {s : State} (hs : s.sesState n ≠ 4) :
    (haltSes n cause s).reg (Reg.cmdState n) = setBits (setBits (s.reg (Reg.cmdState n)) 2 0 3) 19 16 cause := by
  rw [haltSes_eq cause hs]
  simp [State.event, State.raise, State.setField]

/-- A write of another register leaves the session's state. -/
theorem sesState_setReg_ne {n a : Nat} (s : State) (v : Word) (h : Reg.cmdState n ≠ a) :
    (s.setReg a v).sesState n = s.sesState n :=
  congrArg (bits · 2 0) (State.reg_setReg_ne s v h)

theorem haltSes_halted {n cause : Nat} {s : State} (hs : s.sesState n ≠ 4) (hc : cause < 16) :
    Halted n cause s (haltSes n cause s) where
  state := by
    rw [State.sesState, State.field, reg_haltSes_cmdState cause hs, bits_setBits_below _ _ (by decide) (by decide)]
    exact bits_setBits_same _ _ (by decide)
  cause := by
    rw [State.field, reg_haltSes_cmdState cause hs, bits_setBits_same _ _ (by decide)]
    exact Nat.mod_eq_of_lt hc
  reg a h1 h2 := by
    rw [haltSes_eq cause hs]
    simp [State.event, State.raise, State.setField, h1, h2]
  sessions := by rw [haltSes_eq cause hs]; rfl
  journal := by rw [haltSes_eq cause hs]; rfl
  porter := by rw [haltSes_eq cause hs]; rfl

/-! ### The checks of a packet and its acceptance (R107, R108) -/

theorem takePacket_badSeq {n : Nat} {k : Packet} {s : State} (len : Nat) (hk : k.hdr.seq ≠ s.reg (Reg.cmdNextSeq n)) :
    takePacket n k len s = haltSes n 1 (s.setReg (Reg.cmdBadSeq n) k.hdr.seq) :=
  if_pos hk

theorem takePacket_tooLong {n len : Nat} {k : Packet} {s : State} (hk : k.hdr.seq = s.reg (Reg.cmdNextSeq n))
    (hl : 496 < len) : takePacket n k len s = haltSes n 2 s := by
  rw [takePacket, if_neg (not_not_intro hk), if_pos hl]

/-- The state in which the counters of an acceptance move: `SQ_HEAD` is past the packet, which is in flight and journaled
(R108 before step 4). -/
def journaled (n : Nat) (k : Packet) (s : State) : State :=
  writeJournal n true ((s.setReg (Reg.cmdSqHead n) (s.reg (Reg.cmdSqHead n) + 1)).onSes n fun x =>
    { x with flights := x.flights ++ [{ pkt := k, eff := none, phase := .mirror, tick := s.reg Reg.ptrTick }] })

theorem reg_journaled (n : Nat) (k : Packet) (s : State) (a : Nat) :
    (journaled n k s).reg a = if a = Reg.cmdSqHead n then s.reg (Reg.cmdSqHead n) + 1 else s.reg a :=
  State.reg_setReg _ _ _ _

/-- A good packet outside a pair in step is accepted at once. -/
theorem takePacket_accepts {n len : Nat} {k : Packet} {s : State} (hk : k.hdr.seq = s.reg (Reg.cmdNextSeq n))
    (hl : len ≤ 496) (hi : s.inStep = false) : takePacket n k len s = acceptPacket n k.hdr.seq (journaled n k s) := by
  rw [takePacket, if_neg (not_not_intro hk), if_neg (Nat.not_lt.mpr hl)]
  simp [hi, journaled]

/-- The Porter's work for a new command writes no register but the Porter's. -/
theorem createTask_reg (n : Nat) (q : Word) (s : State) {a : Nat} (hp : a ≠ Reg.ptrPeak) (hs : a ≠ Reg.ptrStat) :
    (createTask n q s).reg a = s.reg a := by
  unfold createTask
  dsimp only
  split
  · rw [examine_reg _ _ _ hp, noteFull_reg _ hs, notePeak_reg _ hp, State.onPorter_reg, onFlight_reg]
  · rw [noteFull_reg _ hs, notePeak_reg _ hp, State.onPorter_reg, onFlight_reg]

theorem acceptPacket_reg (n : Nat) (q : Word) (s : State) {a : Nat} (hp : a ≠ Reg.ptrPeak) (hs : a ≠ Reg.ptrStat) :
    (acceptPacket n q s).reg a =
      if a = Reg.cmdNextSeq n then q + 1 else if a = Reg.cmdAcceptedSeq n then q else s.reg a := by
  rw [acceptPacket, createTask_reg _ _ _ hp hs, State.reg_setReg, State.reg_setReg]

/-- The acceptance of a packet moves `SQ_HEAD`, `ACCEPTED_SEQ` and `NEXT_SEQ`; the session stays as it is. -/
theorem reg_accepted {n : Nat} (hn : n < 4) (k : Packet) (s : State) :
    let t := acceptPacket n k.hdr.seq (journaled n k s)
    t.reg (Reg.cmdState n) = s.reg (Reg.cmdState n) ∧ t.reg (Reg.cmdAcceptedSeq n) = k.hdr.seq
      ∧ t.reg (Reg.cmdSqHead n) = s.reg (Reg.cmdSqHead n) + 1 := by
  have cmd {a : Nat} (h : a < 0x30000) :=
    acceptPacket_reg n k.hdr.seq (journaled n k s) (a := a) (by simp only [Reg.ptrPeak]; omega)
      (by simp only [Reg.ptrStat]; omega)
  refine ⟨?_, ?_, ?_⟩
  · rw [cmd (by simp only [Reg.cmdState]; omega), reg_journaled]
    simp [Reg.cmdState, Reg.cmdNextSeq, Reg.cmdAcceptedSeq, Reg.cmdSqHead]
  · rw [cmd (by simp only [Reg.cmdAcceptedSeq]; omega)]
    simp [Reg.cmdNextSeq, Reg.cmdAcceptedSeq]
  · rw [cmd (by simp only [Reg.cmdSqHead]; omega), reg_journaled]
    simp [Reg.cmdNextSeq, Reg.cmdAcceptedSeq, Reg.cmdSqHead]

/-! ### The fetch (R106, R107) -/

theorem mayFetch_isOpen {n : Nat} {s : State} (h : s.mayFetch n = true) : n < 4 ∧ s.sesState n = 2 := by
  simp only [State.mayFetch, State.mayTake, State.cmdUp, Bool.and_eq_true, decide_eq_true_eq] at h
  obtain ⟨⟨⟨⟨⟨⟨⟨⟨⟨⟨-, hn⟩, ho⟩, -⟩, -⟩, -⟩, -⟩, -⟩, -⟩, -⟩, -⟩ := h
  exact ⟨hn, ho⟩

/-- The packet at `SQ_HEAD` is taken as it lies in shared SRAM or as the host link gives it; a read of shared SRAM leaves
the rest of the device as it is. -/
theorem fetchPacket_takes {n : Nat} {slot : Bytes} {s : State} (hf : s.mayFetch n = true)
    (hh : s.reg (Reg.cmdSqHead n) ≠ s.reg (Reg.cmdSqTail n)) :
    let c := (s.ses n).opened
    let r := (sramRead s (sramBase c.sqBase + (s.reg (Reg.cmdSqHead n)).toNat % c.depth * 512) 512).1
    (c.sqSram = true → r.2 = none) →
    let k := packetOf n (if c.sqSram then r.1 else padTo 512 slot)
    ∃ u, SramOnly s u ∧ fetchPacket n slot s = takePacket n k.1 k.2 u := by
  intro c r hr k
  cases hc : c.sqSram with
  | false =>
    refine ⟨s, SramOnly.refl s, ?_⟩
    simp [fetchPacket, hf, hh, k, c, hc]
  | true =>
    refine ⟨_, sramOnly_sramRead s (sramBase c.sqBase + (s.reg (Reg.cmdSqHead n)).toNat % c.depth * 512) 512, ?_⟩
    simp [fetchPacket, hf, hh, k, c, r, hc, hr hc]

/-- A fetch brings what its effect and the interrupt messages after it leave. -/
theorem brings_packetFetch {n : Nat} {slot : Bytes} {s u : State} {P : State → Prop} (h : fetchPacket n slot s = u)
    (hP : ∀ t, Quiet u t → P t) : Brings (.packetFetch n slot) s P :=
  ⟨settle u, congrArg done h, hP _ (settle_quiet u)⟩

/-- Settles O32: a read of shared SRAM touches nothing of the command path, a halt only `STATE` and `STAT` of its session,
and an acceptance moves `SQ_HEAD` without touching `STATE`. -/
theorem badPacketsHalt : Obligations.BadPacketsHalt := by
  unfold Obligations.BadPacketsHalt
  intro n slot s hf hh c r hr k
  obtain ⟨hn, ho⟩ := mayFetch_isOpen hf
  obtain ⟨u, hu, hk⟩ := fetchPacket_takes (slot := slot) hf hh hr
  have ou : u.sesState n ≠ 4 := by rw [hu.sesState, ho]; decide
  have next : u.reg (Reg.cmdNextSeq n) = s.reg (Reg.cmdNextSeq n) :=
    hu.reg _ (by simp only [Reg.sysEccAddr, Reg.cmdNextSeq]; omega)
  have head : u.reg (Reg.cmdSqHead n) = s.reg (Reg.cmdSqHead n) :=
    hu.reg _ (by simp only [Reg.sysEccAddr, Reg.cmdSqHead]; omega)
  rw [← hu.inStep, ← hu.sesState n, ← next, ← head, ← hu.sessions, ← hu.journal, ← hu.porter]
  refine ⟨fun hq => ?badSeq, fun hq hl => ?tooLong, fun hq hl hi => ?good⟩
  case badSeq =>
    refine brings_packetFetch (hk.trans (takePacket_badSeq _ hq)) fun t qt => ?_
    have halt := (haltSes_halted (cause := 1)
      (s := u.setReg (Reg.cmdBadSeq n) k.1.hdr.seq) (by rwa [sesState_setReg_ne _ _ (by simp)]) (by decide)).quiet qt
    refine ⟨halt.state, halt.cause, ?_, ?_, halt.sessions, halt.journal, halt.porter⟩
    · rw [halt.reg _ (by simp) (by simp), State.reg_setReg, if_pos rfl]
    · exact halt.head.trans (State.reg_setReg_ne _ _ (by simp))
  case tooLong =>
    refine brings_packetFetch (hk.trans (takePacket_tooLong hq hl)) fun t qt => ?_
    have halt := (haltSes_halted (cause := 2) ou (by decide)).quiet qt
    exact ⟨halt.state, halt.cause, halt.head, halt.sessions, halt.journal, halt.porter⟩
  case good =>
    refine brings_packetFetch (hk.trans (takePacket_accepts hq hl hi)) fun t qt => ?_
    obtain ⟨state, accepted, moved⟩ := reg_accepted hn k.1 u
    exact ⟨congrArg (bits · 2 0) ((qt.reg _).trans state), (qt.reg _).trans accepted, (qt.reg _).trans moved⟩

end Sys2Proof
end

section
/-!
PROOFS. The reply of `PAIR_STATUS` (R415): how long a reply of words is, a command of the device whose checks leave the
slots alone, and what the pair's status tells while the command path moves.
-/
namespace Sys2Proof

open Machine

/-! ### The length of a reply of words -/

@[simp] theorem length_leBytes (n v : Nat) : (leBytes n v).length = n := by
  induction n generalizing v with
  | zero => rfl
  | succ n ih => exact congrArg (· + 1) (ih (v / 256))

@[simp] theorem length_wordBytes (w : Word) : (wordBytes w).length = 4 := length_leBytes 4 w.toNat

/-! ### Commands of the device that hold no slot (R134) -/

theorem slotsBad_of_noSlots {o : OpSpec} {s : State} {k : Packet} (hs : o.slots s k = []) : slotsBad o s k = none := by
  rw [slotsBad, hs]
  rfl

/-- A command of the device that names nothing and holds no slot passes its checks if its unit is there and its payload
is in order. -/
theorem checkCommand_device {o : OpSpec} {s : State} {k : Packet} (hf : k.hdr.flags = 0) (ht : k.hdr.target = 0xFFFF)
    (hd : o.device = true) (hc : ∀ c, o.cap = some c → s.cap c = true) (hn : o.named s k = none) (hl : o.len s k = true)
    (hk : o.check s k = none) (hs : o.slots s k = []) : checkCommand o s k = none := by
  have target : o.targets 65535 = true := by simp [OpSpec.targets, hd]
  have last : (o.check s k).sooner (slotsBad o s k) = none := by
    rw [hk, slotsBad_of_noSlots hs]
    rfl
  cases hcap : o.cap with
  | none => simp [checkCommand, firstFail, Bad.or, hf, ht, target, hcap, hn, hl, last]
  | some c => simp [checkCommand, firstFail, Bad.or, hf, ht, target, hcap, hc c hcap, hn, hl, last]

/-- Only a move needs room in a queue (R117); a path segment is one. -/
theorem queueFits_of_noMove {s : State} {o : OpSpec} {k : Packet} (hm : isMove k.op = false) :
    s.queueFits o k = true := by
  have noSegment : k.op ≠ 0x0408 := fun e => by simp [e, isMove] at hm
  simp [State.queueFits, noSegment, hm]

/-! ### `PAIR_STATUS` -/

theorem length_pairStatus (s : State) (k : Packet) : (pairStatus s k).length = 32 := by
  simp [pairStatus]

/-- The pair's status tells of nothing that lies on the command path. -/
theorem Path.pairStatus {s t : State} (h : Path s t) (k : Packet) : pairStatus t k = pairStatus s k := by
  have pair : t.pair = s.pair := by rw [h.rest]
  rw [Machine.pairStatus, Machine.pairStatus, pair, h.reg Reg.pairState (by decide), h.reg Reg.pairLastDiff (by decide),
    h.reg Reg.pairTimeOfs (by decide), h.reg Reg.pairPartner (by decide)]

/-- `PAIR_STATUS` without a payload passes its checks on a device with a pair unit. -/
theorem pairStatus_passes {h : Hdr} {s : State} (hc : Clear h [] s) (hf : h.flags = 0) (ht : h.target = 0xFFFF)
    (hp : s.cap 2 = true) : Passes opPairStatus 0x0D01 h [] s where
  near hy := absurd hy (by decide)
  checks := by
    refine checkCommand_device hf ht rfl (fun c e => ?_) rfl rfl rfl rfl
    cases e
    exact ((clear_paths hc).1.cap 2).trans hp
  fits := queueFits_of_noMove rfl

/-- Settles O10: the command passes its checks and only answers, and on its way to a core it moves nothing that the
pair's status tells of. -/
theorem pairStatusReply : Obligations.PairStatusReply := by
  unfold Obligations.PairStatusReply
  intro h s hc hf ht hp told
  have answer := exec_query (i := .pairStatus h []) (exec_packet rfl) hc rfl (pairStatus_passes hc hf ht hp) rfl rfl
    fun _ => rfl
  rw [show opPairStatus.result = pairStatus from rfl, (clear_paths hc).1.pairStatus] at answer
  exact ⟨length_pairStatus s { op := 0x0D01, hdr := h }, answer⟩

end Sys2Proof
end

section
/-!
PROOFS. The reply of `HEALTH_READ` (R535): a command that only reads and keeps its unit's session alive, how long the
health report is, and what it tells while the command path moves.
-/
namespace Sys2Proof

open Machine

/-! ### Commands that read and keep their unit alive (R443, R526) -/

/-- What a class of commands keeps alive lies off the command path. -/
theorem Path.touchUnit {s t : State} (h : Path s t) (op : Nat) : Path (touchUnit op s) (touchUnit op t) := by
  unfold Machine.touchUnit
  split
  case isTrue => exact ⟨by rw [h.rest]; rfl, h.reg⟩
  case isFalse =>
    split
    case isTrue => exact ⟨by rw [h.rest]; rfl, h.reg⟩
    case isFalse => exact h

/-- A command that only answers leaves the device as it was, but for what its class keeps alive. -/
theorem exec_reads {i : Instr} {o : OpSpec} {op : Nat} {h : Hdr} {p : Bytes} {s : State}
    (hi : ∀ s, exec i s = done (hostCommand op h p s)) (hc : Clear h p s) (ho : opSpec op = some o) (hp : Passes o op h p s)
    (hy : o.yes = false) (ha : o.act = fun _ _ r s => { reply := r, st := s }) :
    Serves i op h { result := o.result (judged op h p s) { op := op, hdr := h, payload := p } } s (touchUnit op s) := by
  have ran := hp.ran
  rw [ha] at ran
  have served := exec_acts hi hc ho hp hy (by rw [ran]) (by rw [ran]; exact off_touchUnit op _)
  rw [ran] at served
  exact served.of_path ((clear_paths hc).2.touchUnit op)

/-! ### `HEALTH_READ` -/

theorem length_health (s : State) : s.health.length = 48 := by
  have sensors : ((List.range 12).flatMap fun i => leBytes 2 (s.field (Reg.mgtSense i) 15 0)).length = 24 :=
    calc
      _ = ((List.range 12).map fun _ => 2).sum := by simp only [List.length_flatMap, length_leBytes]
      _ = 24 := rfl
  simp only [State.health, List.length_append, sensors, length_leBytes, length_wordBytes]

/-- The health report tells of nothing that lies on the command path. -/
theorem Path.health {s t : State} (h : Path s t) : t.health = s.health := by
  have sensors : (fun i => leBytes 2 (t.field (Reg.mgtSense i) 15 0)) = fun i => leBytes 2 (s.field (Reg.mgtSense i) 15 0) := by
    funext i
    rw [State.field, State.field, h.reg (Reg.mgtSense i) (by simp only [pathReg, Reg.mgtSense, decide_eq_false_iff_not]; omega)]
  have inn : t.inn = s.inn := by rw [h.rest]
  have days : t.scrubDays = s.scrubDays := by rw [State.scrubDays, State.scrubDays, h.rest]
  rw [State.health, State.health, sensors, inn, days, h.reg Reg.mgtMon (by decide), h.reg Reg.mgtBank (by decide),
    h.reg Reg.mgtSvn (by decide)]

/-- `HEALTH_READ` without a payload passes its checks on every part. -/
theorem healthRead_passes {h : Hdr} {s : State} (hf : h.flags = 0) (ht : h.target = 0xFFFF) :
    Passes opHealthRead 0x0F06 h [] s where
  near hy := absurd hy (by decide)
  checks := checkCommand_device hf ht rfl (fun _ e => by cases e) rfl rfl rfl rfl
  fits := queueFits_of_noMove rfl

/-- Settles O11: the command passes its checks and only reads, and on its way to a core it moves nothing that the health
report tells of. -/
theorem healthReply : Obligations.HealthReply := by
  unfold Obligations.HealthReply
  intro h s hc hf ht told
  have answer := exec_reads (i := .healthRead h []) (exec_packet rfl) hc rfl (healthRead_passes hf ht) rfl rfl
  have report : opHealthRead.result (judged 0x0F06 h [] s) { op := 0x0F06, hdr := h } = s.health := (clear_paths hc).1.health
  rw [report] at answer
  exact ⟨length_health s, answer⟩

end Sys2Proof
end
